-- ==== Sys2Proof/Word.lean ====
section
/-!
DEFINITION. Word.lean: the plain data that commands carry (bytes, flits, messages, images, atomic operands),
and the type of sparse tables. No behaviour is defined here.
-/
namespace Sys2Proof

/-- One byte of memory (R8: multi-byte values are little-endian, built from bytes in Machine/Bits.lean). -/
abbrev Byte := BitVec 8

/-- A sparse table: entries in strictly rising key order, none equal to what an unlisted key reads as.
Its operations and that canonical form are in Machine/Tables.lean. -/
abbrev Table (α : Type) := List (Nat × α)

/-- The external xSPI configuration flash as the hatter finds it at a cold start (R4, R5, R350 to R352, R415).
The Bools are the outcomes of the checks those rules name; the flash itself lies outside the package. -/
structure FlashImage where
  present      : Bool        -- not blank and not missing (R5, R415)
  recordsOk    : Bool        -- configuration records, PUF helper data and DeviceID verify (R350)
  rpmbOk       : Bool        -- replay-protected region verifies (R352)
  image0Ok     : Bool        -- the class 0 image verifies (R351)
  boardMax     : Nat         -- PWR_BOARD_MAX, in W (R324)
  owner        : Nat         -- the owner's public key, by number (R353)
  svn          : List Nat    -- stored SVN of classes 0 to 3 (R352)
  imgSvn       : List Nat    -- SVN of the installed image of classes 0 to 3
  auto         : List Bool   -- AUTOCOMMIT of the installed images (R353)
  revoked      : List Nat    -- revocation list (R352)
  singeA       : Nat         -- singe counts (R352, R368)
  singeB       : Nat
  retiredSites : List Nat    -- repair map (R142, R143, R385)
  spares       : List Nat    -- planks whose spare the repair map assigns (R142)
  retiredChans : List Nat    -- repair map (R386)
  deriving DecidableEq, Repr, Inhabited

/-- An image that arrives through PLDM firmware update, with its manifest (R351). -/
structure Image where
  cls       : Nat            -- 0 to 4 (Table 4 of The Hatter)
  svn       : Nat            -- 16-bit security version
  stepB0    : Bool           -- the manifest names stepping B0
  digestOk  : Bool           -- the SHA-384 digest matches
  sigOk     : Bool           -- the ECDSA signature chains to the Hufort root
  keySerial : Nat            -- serial of the signing image key
  auto      : Bool           -- AUTOCOMMIT
  flash     : FlashImage     -- the records a class 4 image carries
  deriving DecidableEq, Repr, Inhabited

/-- The controls of a function that a configuration write of the host sets beside its enables (R218, R224; Table 1 of PCI Express). -/
structure FnCtl where
  ats    : Bool              -- ATS Enable (VF)
  pasid  : Bool              -- PASID Enable (PF)
  pri    : Bool              -- PRI Enable (PF)
  stu    : Nat               -- Smallest Translation Unit: 4 KiB × 2^stu (VF)
  relax  : Bool              -- Enable Relaxed Ordering
  maxPay : Nat               -- Max Payload Size: 128 × 2^n bytes
  maxRd  : Nat               -- Max Read Request Size: 128 × 2^n bytes
  tags   : Nat               -- 0 8-bit, 1 10-bit, 2 14-bit tags
  ari    : Bool              -- ARI at the upstream port (PF)
  rate   : Nat               -- link rate: 1 2.5 GT/s .. 6 64 GT/s (PF)
  width  : Nat               -- link width (PF)
  l0p    : Nat               -- lanes kept active by L0p (PF)
  deriving DecidableEq, Repr, Inhabited

/-- What a configuration write of the host sets in a function: its enables (R225, R232) and its controls. -/
structure FnCfg extends FnCtl where
  bme    : Bool              -- Bus Master Enable
  mse    : Bool              -- Memory Space Enable
  fmask  : Bool              -- MSI-X Function Mask
  deriving DecidableEq, Repr, Inhabited

/-- What a GRANT lends (R185; Table 11 of Hoods): a handle, with the lender's counter at the grant. -/
structure Loan where
  handle : Nat
  g      : Nat
  deriving DecidableEq, Repr

/-- The pages that an ATS translation covers (R224): the first, and how many. -/
structure PageRun where
  page  : Nat
  pages : Nat
  deriving DecidableEq, Repr

/-- Who sends a coherence request (R150, R157): a cache, for a hood. -/
structure Asker where
  hood : Nat
  req  : Nat
  deriving DecidableEq, Repr

/-- A link found lost (R211): `lanes`, a lane out of lock or deskew for 10 µs; otherwise no good flit for 50 µs. -/
structure LinkEnd where
  link  : Nat
  lanes : Bool
  deriving DecidableEq, Repr

/-- Where a rotation piece lands (R86): the receive slot, and the piece's code. -/
structure Landing where
  slot : Nat
  code : Nat
  deriving DecidableEq, Repr

/-- Operands of one atomic access (R152): the engine that issues it, the virtual address, and the operands. -/
structure AtomArgs where
  kind   : Nat               -- ENGINE class (R117): 0 tile, 1 copy engine, 2 rotation engine, 3 front end
  num    : Nat               -- site index, or engine number
  hood   : Nat               -- hood whose access this is
  ctx    : Nat               -- context in which the address is translated
  req    : Nat               -- requester of the AtomResult
  va     : Nat               -- virtual address; bits below the width are read as zero
  width  : Nat               -- 32, 64 or 128 bits
  opnd   : BitVec 128        -- operand, or swap value for CAS
  cmp    : BitVec 128        -- compare value for CAS
  ret    : Bool              -- returning or posted
  deriving DecidableEq, Repr, Inhabited

/-- Vendor-defined SPDM requests (R226, R363): IDE_KM and TDISP. -/
inductive VdrOp where
  | ideKeyProg (stream hood : Nat)   -- IDE_KM programs the keys of a stream for a VF
  | ideKeySetGo (stream : Nat)       -- IDE_KM starts the stream
  | ideKeySetStop (stream : Nat)     -- IDE_KM stops the stream
  | tdispGetReport (hood : Nat)      -- TDISP interface report
  | tdispGetState (hood : Nat)
  | tdispStart (hood : Nat)          -- TDISP START_INTERFACE_REQUEST
  | unsupported                      -- any other vendor-defined request
  deriving DecidableEq, Repr, Inhabited

/-- The body of a Stader message, by traffic class (Table 4 of Stader Links). -/
inductive StlBody where
  | rdU (lease addr len : Nat)                              -- MREQ: read of a lent range
  | wrU (lease addr : Nat) (data : List Byte) (psn : List Nat) -- MREQ: write of a lent range, with its poisoned lines (R100)
  | atom (lease addr width op : Nat) (opnd cmp : BitVec 128) -- MREQ: atomic on a lent range
  | fence (lease addr value : Nat)                          -- MREQ: fence signal to a lent fence (R285)
  | rsp (tag : Nat) (data : List Byte) (psn : List Nat)     -- MRSP: Data with its poisoned lines, WrAck (empty) or AtomResult
  | piece (engine slot code off : Nat) (data : List Byte) (psn : List Nat) -- KVROT: a part of the piece `code` from byte `off` on, with its poisoned lines
  | credit (engine : Nat)                                   -- KVROT: a credit
  | coll (engine pos layer head off : Nat) (data : List Byte) (psn : List Nat) -- COLL: the partial states of ring position `pos`, from byte `off` on (R82)
  | ask (len : Nat) (ro : Bool) (dMs : Nat)                 -- MGMT, lease phases (R185)
  | grant (leaseId handle g : Nat)                          -- with the lender's counter at the grant (Table 11 of Hoods)
  | deny
  | renew (leaseId : Nat)
  | ack (leaseId : Nat)
  | ret (leaseId : Nat)
  | keepalive                                               -- MGMT (R212)
  | retrain                                                 -- MGMT (R213)
  | spdm (code : Nat)                                       -- MGMT, SPDM between hatters
  | arrive (member gid seq lateness : Nat)                  -- POWER (Table 3 of Clocks)
  | shift (seq : Nat) (off : Int) (time : Nat)
  | revert
  | other (kind : Nat)                                      -- any other KIND
  deriving DecidableEq, Repr, Inhabited

/-- A Stader message with its 8-byte header (Table 5 of Stader Links). -/
structure StlMsg where
  len    : Nat               -- body bytes
  rsv    : Bool              -- a nonzero RSV bit
  tag    : Nat               -- end-to-end TAG (R208)
  hood   : Option Nat        -- HOOD with HV
  enc    : Bool              -- ENC
  keyidx : Nat               -- KEYIDX
  ctr    : Nat               -- the counter after the header (R214)
  gcm    : BitVec 128        -- the tag after the body (R214)
  body   : StlBody
  deriving DecidableEq, Repr, Inhabited

/-- A flit received on a link (R196, R197): its header fields, payload and CRC. The messages are those that end in it. -/
structure Flit where
  link  : Nat
  typ   : Nat                -- TYPE
  fseq  : Nat
  ack   : Nat
  nak   : Bool
  tc    : Nat
  vc    : Nat
  crtc  : Nat
  crvc  : Nat
  crcnt : Nat
  dst   : Nat
  src   : Nat
  rsv   : Nat                -- RSV
  payload : List Byte        -- bytes 10 to 251
  crc   : BitVec 32          -- bytes 252 to 255
  errs  : Nat                -- symbol errors of the codeword that begins within this flit, if one does (R196)
  die   : Nat                -- the link die of the source that sent it (R208)
  msgs  : List StlMsg
  more  : Bool               -- a message goes on in the next DATA flit of the class and virtual channel (R204)
  deriving DecidableEq, Repr, Inhabited

/-- A range of a migration image (section 5 of R389): its entry and the bytes of its lines that were written. -/
structure MigRange where
  hbase : Nat
  len   : Nat
  ro    : Bool
  bytes : List (Nat × Byte)  -- offset in range, byte
  psn   : List Nat           -- poisoned lines of the range, by line offset (R100)
  deriving DecidableEq, Repr, Inhabited

/-- A context of a migration image (section 2 of R389). -/
structure MigCtx where
  num   : Nat
  state : Nat
  gen   : Nat
  ptroot : Nat
  pasid : Nat
  pasidv : Bool
  share : Nat
  evbase : Nat
  evlog2 : Nat
  defto : Nat
  vt    : Nat
  usage : Nat
  clamp : Nat
  invalid : Nat
  deriving DecidableEq, Repr, Inhabited

/-- A ring of a migration image (section 3 of R389). -/
structure MigRing where
  num   : Nat
  ctx   : Nat
  dbase : Nat
  dbrec : Nat
  log2n : Nat
  pfd   : Nat
  ci    : Nat
  wgen  : Nat
  rgen  : Nat
  psn   : Bool               -- poison mark (R272)
  deriving DecidableEq, Repr, Inhabited

/-- A descriptor, element or node of a ring in a migration image (section 3 of R389). -/
structure MigWork where
  num    : Nat
  ring   : Nat
  ctx    : Nat
  parent : Option Nat
  idx    : Nat
  phase  : Nat               -- 0 fetched, 1 saved or stopped, 2 waiting, 3 started under a saved parent
  desc   : List Byte
  args   : List Byte
  lo     : Nat
  cnt    : Nat
  slots  : Table Nat         -- saved-slot list
  prog   : Table Nat         -- copy piece offset
  doneT  : List Nat
  elems  : List (List Byte × List Byte)
  doneN  : List Nat
  runN   : List Nat
  ran    : Bool
  pid    : Nat
  vals   : Table (BitVec 64)
  left   : Nat               -- remaining timeout of a wait, ns
  lo0    : Nat
  outT   : Table Nat         -- tiles switched out at a fault, with their slot
  psnN   : List Nat
  marks  : List Bool         -- clamped, PSNW and the poison mark so far
  sums   : List Nat          -- STATUS, arithmetic flags, VSTAT, STKCNT, EMPTY and start time so far (R250)
  deriving DecidableEq, Repr, Inhabited

/-- The state of one row of the attention sequence (R75): FP32 codes, and whether an unmasked group of it was poisoned (R76). -/
structure RowSt where
  m   : Nat
  l   : Nat
  o   : List Nat
  bad : Bool
  deriving DecidableEq, Repr, Inhabited

/-- The controller state of a save slot (R56), which travels with the slot. -/
structure MigCtl where
  slot   : Nat
  valid  : Table Bool
  poison : Table Bool
  tags   : Table (BitVec 32)
  modes  : Table Bool
  vstat  : BitVec 5
  attn   : List (List RowSt)
  deriving DecidableEq, Repr, Inhabited

/-- A migration image after its chunks have been decrypted (R389). The Bools are the outcomes of the checks of R390. -/
structure MigImage where
  keyOk    : Bool            -- every GCM tag verifies under the key agreed with HOOD_MIG_PEER
  key      : Nat             -- which migration key the image was written under
  seqOk    : Bool            -- no COUNTER missing or repeated, END matches
  srcPkg   : Nat
  ntile    : Nat
  nchan    : Nat
  gran     : Nat
  conf     : Bool
  ctxBase  : Nat
  ctxCount : Nat
  ringBase : Nat
  ringCount : Nat
  barUnits : Nat
  saveBase : Nat
  saveLen  : Nat
  svn      : List Nat        -- running SVNs of classes 0 to 3
  sleepIdle : Nat
  fqTimeout : Nat
  winBase  : Nat
  schedCfg : Nat
  hoodCfg  : Nat
  gen      : Nat
  hbRegs   : List Nat        -- HB_WIN_CFG, HB_GUAR, HB_CLS_GUAR and HB_LAT_THR
  ctxs     : List MigCtx
  rings    : List MigRing
  pats     : List (Nat × List Byte × List (Nat × BitVec 64)) -- number, image bytes, resident slots
  ranges   : List MigRange
  works    : List MigWork
  ctls     : List MigCtl
  deriving DecidableEq, Repr, Inhabited

end Sys2Proof
end

