-- ==== Sys2Proof/Syntax.lean ====
section
/-!
DEFINITION. Syntax.lean: the commands of the block, one constructor per row of spec/opcode_table.json (the table gives
no operand fields, so the operands are the model's: log entry 1). `h` is a hood, `c` a context, `r` a ring, `w` a started
descriptor, element or node, `p` a package-wide plank, `l` a link, `fn` a function (0 = PF, h + 1 = VF of hood h), `line` a
package-wide line number, `pkg` a Stader package ID, `ide` tells that an access to a BAR arrived on the VF's IDE stream with the T bit set (R226), `ecc` how
many of the 72 symbols of the first codeword that the channel controller reads are bad (0 a good one, R98).
-/
namespace Sys2Proof

/-- The commands. Each docstring names the row's mnemonic and rule. -/
inductive Instr where
  /-- COLD_START (R377). -/
  | coldStart (f : FlashImage) (katOk : Bool) (failSites failChans : List Nat) (stuck : Option Nat)
  /-- HATTER_START_TIMEOUT (R378). -/
  | hatterStartTimeout
  /-- RAIL_REGULATION_TIMEOUT (R378). -/
  | railRegulationTimeout (rail : Nat)
  /-- PGOOD_NAP_FALL (R410). -/
  | pgoodNapFall
  /-- PERST (R380). -/
  | perst
  /-- PERST_DEASSERT (R380). -/
  | perstDeassert (refOk katOk : Bool) (failSites : List Nat) (stuck : Option Nat)
  /-- DL_DOWN (R219). -/
  | dlDown
  /-- FUNCTION_LEVEL_RESET (R373). -/
  | functionLevelReset (h : Nat)
  /-- PF_FUNCTION_LEVEL_RESET (R219). -/
  | pfFunctionLevelReset
  /-- VF_ENABLE_CLEAR (R382). -/
  | vfEnableClear
  /-- VF_ENABLE_SET (R383). -/
  | vfEnableSet (numVfs : Nat)
  /-- DISABLE_PATH_COMPLETE (R382). -/
  | disablePathComplete (h : Nat)
  /-- BUS_MASTER_ENABLE_CHANGE (R225): the configuration write that carries the function's enables (log entry 9). -/
  | busMasterEnableChange (fn : Nat) (bme mse fmask : Bool) (ctl : FnCtl)
  /-- REFERENCE_CHECK_FAULT (R320). -/
  | referenceCheckFault
  /-- CREATE (R163). -/
  | create (h : Nat)
  /-- RESHAPE (R175). -/
  | reshape (h : Nat)
  /-- ADD_RANGE (R179). -/
  | addRange (h r : Nat)
  /-- RELEASE_RANGE (R180). -/
  | releaseRange (h r : Nat)
  /-- MOVE_RANGE (R181). -/
  | moveRange (h r : Nat)
  /-- MARK_RO (R191). -/
  | markRo (h r : Nat)
  /-- SEAL (R162). -/
  | seal (h : Nat)
  /-- RESTART (R162). -/
  | restart (h : Nat)
  /-- DESTROY (R423). -/
  | destroy (h : Nat)
  /-- BLOCK_COMMIT (R174). -/
  | blockCommit (h : Nat)
  /-- DRAIN_COMPLETE (R171). -/
  | drainComplete (h : Nat)
  /-- MOVE_COPY_COMPLETE (R181). -/
  | moveCopyComplete (h : Nat)
  /-- ERASE_COMPLETE (R104). -/
  | eraseComplete (stack : Nat)
  /-- ASK (R185). -/
  | ask (pkg len : Nat) (ro : Bool) (dMs : Nat)
  /-- GRANT (R185): lease, where its addresses start, and the lender's counter `g` (Table 11 of Hoods). -/
  | grant (pkg leaseId : Nat) (loan : Loan)
  /-- DENY (R185). -/
  | deny (pkg : Nat)
  /-- RENEW (R185). -/
  | renew (pkg leaseId : Nat)
  /-- ACK (R186). -/
  | ack (pkg leaseId : Nat)
  /-- RETURN (R185). -/
  | returnLease (pkg leaseId : Nat)
  /-- LEASE_RENEW_TICK (R186). -/
  | leaseRenewTick (h r : Nat)
  /-- LEASE_DEADLINE (R186). -/
  | leaseDeadline (h r : Nat)
  /-- LEASE_RECLAIM (R186). -/
  | leaseReclaim (leaseId : Nat)
  /-- LEASE_ASK_TIMEOUT (R187). -/
  | leaseAskTimeout (h : Nat)
  /-- CTX_CREATE (R238). -/
  | ctxCreate (h c : Nat)
  /-- CTX_DESTROY (R290). -/
  | ctxDestroy (h c : Nat)
  /-- RING_CREATE (R241). -/
  | ringCreate (h r : Nat)
  /-- RING_DESTROY (R286). -/
  | ringDestroy (h r : Nat)
  /-- SET_SHARE (R294). -/
  | setShare (h c share : Nat)
  /-- TEARDOWN_RELEASE (R287). -/
  | teardownRelease (h : Nat) (isCtx : Bool) (num : Nat)
  /-- REGISTER (R257). -/
  | register (h : Nat)
  /-- UNREGISTER (R262). -/
  | unregister (h pid : Nat)
  /-- RETRY (R118). -/
  | retry (h seq : Nat)
  /-- FAIL (R118). -/
  | fail (h seq : Nat)
  /-- MIGRATE (R122). -/
  | migrate (h seq : Nat)
  /-- FAULT_TIMEOUT (R118). -/
  | faultTimeout (h seq : Nat)
  /-- FAULT_RECORD_WRITE (R116). -/
  | faultRecordWrite (h : Nat)
  /-- INVALIDATION_REQUEST (R125). -/
  | invalidationRequest (h c : Nat)
  /-- INVALIDATION_FENCE (R127). -/
  | invalidationFence (h : Nat)
  /-- ATS_TRANSLATION_COMPLETION (R113, R224): for a page, a translation of `pages` 4 KiB pages about it. -/
  | atsTranslationCompletion (h pasid : Nat) (pgs : PageRun) (hostPage : Nat) (r w : Bool)
  /-- PRI_PAGE_REQUEST (R114). -/
  | priPageRequest (h pasid page : Nat)
  /-- PRI_RESPONSE (R114). -/
  | priResponse (h pasid page code : Nat)
  /-- ATS_INVALIDATE_REQUEST (R114). -/
  | atsInvalidateRequest (h pasid page pages : Nat)
  /-- HOOD_RESET (R374). -/
  | hoodReset (fn : Nat)
  /-- PLANK_RESET (R384). -/
  | plankReset (p : Nat) (failSites : List Nat)
  /-- PLANK_RESET_SAVE_TIMEOUT (R28). -/
  | plankResetSaveTimeout (p : Nat)
  /-- REPAIR_SITE (R385). -/
  | repairSite (f : Nat) (spareOk : Bool)
  /-- RETIRE_CHANNEL (R386). -/
  | retireChannel (c : Nat)
  /-- APPLY (R387). -/
  | apply (classes : Nat)
  /-- FREEZE (R388). -/
  | freeze (peerOk : Bool)
  /-- THAW (R388). -/
  | thaw
  /-- RESTORE (R390). -/
  | restore (img : MigImage)
  /-- RETRAIN (R213). -/
  | retrain
  /-- DISABLE (R213). -/
  | disable
  /-- ENABLE (R205). -/
  | enable
  /-- SVN_COMMIT (R353). -/
  | svnCommit
  /-- CONFIG (R353). -/
  | config
  /-- DEBUG_OPEN (R361). -/
  | debugOpen
  /-- INT_FUNC_REARM (R232). -/
  | intFuncRearm (fn : Nat) (ide : Bool)
  /-- TOP_TS_HOST_WRITE (R401). -/
  | topTsHostWrite (fn : Nat) (ide : Bool) (v : BitVec 64)
  /-- STL_PKG_ID_WRITE (R205). -/
  | stlPkgIdWrite (v : BitVec 32)
  /-- CAP_WRITE (R324). -/
  | capWrite (v : BitVec 32)
  /-- SIDEBAND_CAP_SET (R324). -/
  | sidebandCapSet (watts : Nat)
  /-- MODE_WRITE (R328). -/
  | modeWrite (v : BitVec 32)
  /-- GROUP_ENABLE (R332). -/
  | groupEnable (v : BitVec 32)
  /-- HATBAND_CONFIG_WRITE (R316). -/
  | hatbandConfigWrite (off : Nat) (v : BitVec 32)
  /-- HOLD_SET (R308). -/
  | holdSet
  /-- HOLD_CLEAR (R308). -/
  | holdClear
  /-- SERVICE_STATE_WRITE (R399). -/
  | serviceStateWrite (v : BitVec 32)
  /-- SAVE_AREA_WRITE (R301). -/
  | saveAreaWrite (isLen : Bool) (v : BitVec 64)
  /-- FE_CTX_COUNT_WRITE (R237). -/
  | feCtxCountWrite (v : BitVec 32)
  /-- FE_RING_COUNT_WRITE (R237). -/
  | feRingCountWrite (v : BitVec 32)
  /-- POOL_CONFIG_WRITE (R184). -/
  | poolConfigWrite (r : Nat) (v : BitVec 64)
  /-- CAUSE_CLEAR (R231). -/
  | causeClear (fn : Nat) (ide : Bool) (off : Nat) (v : BitVec 64)
  /-- ALERT_SUMMARY_CLEAR (R234). -/
  | alertSummaryClear (v : BitVec 32)
  /-- REGISTER_WRITE (R9). -/
  | registerWrite (fn : Nat) (ide : Bool) (off width : Nat) (v : BitVec 64)
  /-- LOWER_HALF_READ (R11). -/
  | lowerHalfRead (fn : Nat) (ide : Bool) (off : Nat)
  /-- LOWER_HALF_WRITE (R11). -/
  | lowerHalfWrite (fn : Nat) (ide : Bool) (off : Nat) (v : BitVec 32)
  /-- INVALID_REGISTER_ACCESS (R12). -/
  | invalidRegisterAccess (fn : Nat) (ide : Bool) (off width : Nat) (isRead : Bool)
  /-- WINDOW_READ (R222). -/
  | windowRead (h : Nat) (ide : Bool) (off len ecc : Nat)
  /-- WINDOW_WRITE (R221). -/
  | windowWrite (h : Nat) (ide : Bool) (off : Nat) (data : List Byte)
  /-- WAKE_PAGE_WRITE (R223). -/
  | wakePageWrite (h : Nat) (ide : Bool) (off width : Nat) (v : BitVec 64)
  /-- ATOMICOP_REQUEST (R218). -/
  | atomicopRequest (fn bar : Nat)
  /-- POISONED_TLP_RECEIVED (R228). -/
  | poisonedTlpReceived (fn : Nat)
  /-- COMPLETION_TIMEOUT (R228). -/
  | completionTimeout (fn w : Nat)
  /-- IDE_INTEGRITY_FAILURE (R227). -/
  | ideIntegrityFailure (stream : Nat)
  /-- MSIX_MOD_EXPIRY (R232). -/
  | msixModExpiry (fn : Nat)
  /-- MSIX_UNMASK (R232). -/
  | msixUnmask (fn : Nat)
  /-- MCTP_CONTROL_MESSAGE (R235). -/
  | mctpControlMessage (bus code eid : Nat)
  /-- PLDM_REQUEST (R235). -/
  | pldmRequest (code arg : Nat)
  /-- PLDM_FIRMWARE_UPDATE (R351). -/
  | pldmFirmwareUpdate (img : Image)
  /-- IMAGE_VERIFIED (R351). -/
  | imageVerified (cls : Nat)
  /-- GET_VERSION (R363). -/
  | getVersion
  /-- GET_CAPABILITIES (R363). -/
  | getCapabilities
  /-- NEGOTIATE_ALGORITHMS (R363). -/
  | negotiateAlgorithms
  /-- GET_DIGESTS (R363). -/
  | getDigests
  /-- GET_CERTIFICATE (R349). -/
  | getCertificate (slot off len : Nat)
  /-- CHALLENGE (R363). -/
  | challenge (slot : Nat)
  /-- GET_MEASUREMENTS (R365). -/
  | getMeasurements (idx : Nat)
  /-- KEY_EXCHANGE (R363). -/
  | keyExchange (sid : Nat)
  /-- FINISH (R363). -/
  | finish (sid : Nat)
  /-- HEARTBEAT (R363). -/
  | heartbeat (sid : Nat)
  /-- KEY_UPDATE (R363). -/
  | keyUpdate (sid : Nat)
  /-- END_SESSION (R363). -/
  | endSession (sid : Nat)
  /-- CHUNK_SEND (R363). -/
  | chunkSend (seq : Nat) (last : Bool)
  /-- CHUNK_GET (R363). -/
  | chunkGet (seq : Nat)
  /-- VENDOR_DEFINED_REQUEST (R226). -/
  | vendorDefinedRequest (req : VdrOp)
  /-- LOCK_INTERFACE_REQUEST (R226). -/
  | lockInterfaceRequest (h : Nat)
  /-- STOP_INTERFACE_REQUEST (R227). -/
  | stopInterfaceRequest (h : Nat)
  /-- NOP (R247). -/
  | nop (w : Nat)
  /-- PATTERN_LAUNCH (R260). -/
  | patternLaunch (w : Nat)
  /-- PATCH (R261). -/
  | patch (w : Nat)
  /-- FENCE_SIGNAL (R248). -/
  | fenceSignal (w : Nat)
  /-- FENCE_WAIT (R273). -/
  | fenceWait (w : Nat)
  /-- CHAIN (R255). -/
  | chain (w : Nat)
  /-- STRIDED (R254). -/
  | strided (w : Nat)
  /-- GATHER (R254). -/
  | gather (w : Nat)
  /-- SCATTER (R254). -/
  | scatter (w : Nat)
  /-- FILL (R254). -/
  | fill (w : Nat)
  /-- COPY_COMPLETE (R247). -/
  | copyComplete (w : Nat)
  /-- MMA (R252). -/
  | mma (w : Nat)
  /-- WB (R46). -/
  | wb (w : Nat)
  /-- MERGE (R44). -/
  | merge (w : Nat)
  /-- LOAD (R251). -/
  | load (w : Nat)
  /-- STORE (R251). -/
  | store (w : Nat)
  /-- KVC (R68). -/
  | kvc (w : Nat)
  /-- ATTN (R75). -/
  | attn (w : Nat)
  /-- KVRING_SET_UP (R85). -/
  | kvringSetUp (w : Nat)
  /-- KVRING_TEAR_DOWN (R85). -/
  | kvringTearDown (w : Nat)
  /-- BAR (R138). -/
  | bar (w : Nat)
  /-- ADD (R52). -/
  | vecAdd (w : Nat)
  /-- SUB (R52). -/
  | vecSub (w : Nat)
  /-- MUL (R52). -/
  | vecMul (w : Nat)
  /-- FMA (R52). -/
  | vecFma (w : Nat)
  /-- MIN (R52). -/
  | vecMin (w : Nat)
  /-- MAX (R52). -/
  | vecMax (w : Nat)
  /-- ABS (R52). -/
  | vecAbs (w : Nat)
  /-- NEG (R52). -/
  | vecNeg (w : Nat)
  /-- CMP (R251). -/
  | vecCmp (w : Nat)
  /-- SEL (R52). -/
  | vecSel (w : Nat)
  /-- EXP2 (R52). -/
  | vecExp2 (w : Nat)
  /-- LOG2 (R52). -/
  | vecLog2 (w : Nat)
  /-- RCP (R52). -/
  | vecRcp (w : Nat)
  /-- RSQRT (R52). -/
  | vecRsqrt (w : Nat)
  /-- EXP (R52). -/
  | vecExp (w : Nat)
  /-- LN (R52). -/
  | vecLn (w : Nat)
  /-- CVT_DOWN (R52). -/
  | cvtDown (w : Nat)
  /-- CVT_UP (R52). -/
  | cvtUp (w : Nat)
  /-- QMX (R53). -/
  | qmx (w : Nat)
  /-- STB (R35). -/
  | stb (w : Nat)
  /-- RMAX (R52). -/
  | rmax (w : Nat)
  /-- RSUM (R52). -/
  | rsum (w : Nat)
  /-- ACCRD (R47). -/
  | accrd (w : Nat)
  /-- KERNEL_COMPLETE (R251). -/
  | kernelComplete (w : Nat)
  /-- DESCRIPTOR_FETCH (R246). -/
  | descriptorFetch (r : Nat)
  /-- DOORBELL_POLL (R243). -/
  | doorbellPoll (r : Nat)
  /-- RING_SLEEP (R243). -/
  | ringSleep (r : Nat)
  /-- RING_ROTATE (R244). -/
  | ringRotate (r : Nat)
  /-- SIGNAL_APPLY (R270). -/
  | signalApply
  /-- WAIT_TIMEOUT (R274). -/
  | waitTimeout (w : Nat)
  /-- FENCE_POLL (R285). -/
  | fencePoll (w : Nat)
  /-- DEADLOCK_SCAN (R283). -/
  | deadlockScan
  /-- QUANTUM_EXPIRY (R300). -/
  | quantumExpiry (w : Nat)
  /-- SAVE_COMPLETE (R304). -/
  | saveComplete (w : Nat)
  /-- SCRATCHPAD_PARITY_ERROR (R55). -/
  | scratchpadParityError (site : Nat)
  /-- PLANK_GATE_IDLE (R323). -/
  | plankGateIdle (p : Nat)
  /-- BARRIER_ARRIVAL (R138). -/
  | barrierArrival (unit site gen : Nat)
  /-- FULLING_HOLD_END (R334). -/
  | fullingHoldEnd (unit : Nat)
  /-- ISSUE_RAMP_STAGE (R334). -/
  | issueRampStage (p : Nat)
  /-- CAP_STAGE_TIMEOUT (R337). -/
  | capStageTimeout (h : Nat)
  /-- POWER_ESTIMATE_TICK (R325). -/
  | powerEstimateTick (pkgWatts : Nat) (est : List (Nat × Nat))
  /-- FREQ_STEP_COMPLETE (R322). -/
  | freqStepComplete (p : Nat)
  /-- DROOP_TRIP (R335). -/
  | droopTrip (p : Nat)
  /-- DROOP_STRETCH_END (R335). -/
  | droopStretchEnd (p : Nat)
  /-- DROOP_HOLDOFF_END (R336). -/
  | droopHoldoffEnd (p : Nat)
  /-- DROOP_INTERVAL_END (R336). -/
  | droopIntervalEnd (p : Nat) (overHalf : Bool)
  /-- ELECTRICAL_EMERGENCY (R338). -/
  | electricalEmergency (regulator : Bool)
  /-- EMERGENCY_RELEASE_STAGE (R338). -/
  | emergencyReleaseStage
  /-- PMBUS_TELEMETRY_POLL (R409). -/
  | pmbusTelemetryPoll (readings : List (Nat × Nat)) (faults : List Nat)
  /-- PMB_ALERT (R409). -/
  | pmbAlert (rail : Nat) (fault : Bool)
  /-- REGULATOR_TIMEOUT (R409). -/
  | regulatorTimeout (rail : Nat)
  /-- THERMAL_SAMPLE (R339). -/
  | thermalSample (readings layers : List (Nat × Int))
  /-- THROTTLE_STEP (R339). -/
  | throttleStep (p : Nat)
  /-- THROTTLE_RECOVERY_STEP (R339). -/
  | throttleRecoveryStep (p : Nat)
  /-- THERMAL_EMERGENCY (R339). -/
  | thermalEmergency (sensor : Nat)
  /-- HARDWARE_THERMAL_TRIP (R340). -/
  | hardwareThermalTrip (sensor : Nat)
  /-- GROUP_CONFIRM_TICK (R332). -/
  | groupConfirmTick
  /-- ARRIVE (R332). -/
  | arrive (member gid seq lateness : Nat)
  /-- SHIFT (R332). -/
  | shift (seq : Nat) (off : Int) (time : Nat)
  /-- REVERT (R333). -/
  | revert (pkg : Nat)
  /-- GROUP_SHIFT_TIMEOUT (R333). -/
  | groupShiftTimeout
  /-- GROUP_RESTORE_TIMER (R333). -/
  | groupRestoreTimer
  /-- GROUP_OFFSET_RISE_TIMER (R332). -/
  | groupOffsetRiseTimer
  /-- HATBAND_WINDOW_START (R315). -/
  | hatbandWindowStart (h : Nat)
  /-- RDS (R150): of hood `h`, by cache `req` (0 to 7 compute dies, 8 the spine die). -/
  | rds (line : Nat) (who : Asker) (ecc : Nat)
  /-- RDX (R150): of hood `h`, by cache `req`. -/
  | rdx (line : Nat) (who : Asker)
  /-- UPG (R150): of hood `h`, by cache `req`. -/
  | upg (line : Nat) (who : Asker)
  /-- RDU (R150): of hood `h`, by an uncached requester `req`. -/
  | rdu (h line req ecc : Nat)
  /-- WRU (R150): of hood `h`, by an uncached requester `req`, of bytes from `off` of the line. -/
  | wru (h line req off ecc : Nat) (data : List Byte)
  /-- WBM (R150). -/
  | wbm (line req : Nat)
  /-- EVC (R150). -/
  | evc (line req : Nat)
  /-- ATOMIC_ADD (R152). -/
  | atomicAdd (a : AtomArgs)
  /-- ATOMIC_AND (R152). -/
  | atomicAnd (a : AtomArgs)
  /-- ATOMIC_OR (R152). -/
  | atomicOr (a : AtomArgs)
  /-- ATOMIC_XOR (R152). -/
  | atomicXor (a : AtomArgs)
  /-- ATOMIC_SMIN (R152). -/
  | atomicSmin (a : AtomArgs)
  /-- ATOMIC_SMAX (R152). -/
  | atomicSmax (a : AtomArgs)
  /-- ATOMIC_UMIN (R152). -/
  | atomicUmin (a : AtomArgs)
  /-- ATOMIC_UMAX (R152). -/
  | atomicUmax (a : AtomArgs)
  /-- ATOMIC_SWAP (R152). -/
  | atomicSwap (a : AtomArgs)
  /-- ATOMIC_CAS (R152). -/
  | atomicCas (a : AtomArgs)
  /-- ATOMIC_FADD (R152). -/
  | atomicFadd (a : AtomArgs)
  /-- FWDS (R148). -/
  | fwds (line holder : Nat)
  /-- FWDX (R148). -/
  | fwdx (line holder : Nat)
  /-- FWDRD (R148). -/
  | fwdrd (line holder : Nat)
  /-- INV (R148). -/
  | inv (line holder : Nat)
  /-- RECALL (R148). -/
  | recall (line holder : Nat)
  /-- INVACK (R150). -/
  | invack (line holder : Nat)
  /-- DONE (R150). -/
  | done (line src : Nat)
  /-- UPGRADE_GRANT (R150). -/
  | upgradeGrant (line req : Nat)
  /-- ATOMRESULT (R153). -/
  | atomresult (line req : Nat)
  /-- WRACK (R150). -/
  | wrack (line req : Nat)
  /-- DATA (R150). -/
  | data (line req : Nat)
  /-- DATAX (R150). -/
  | datax (line req : Nat)
  /-- WBDATA (R150). -/
  | wbdata (line src : Nat)
  /-- PATROL (R103): the lines found with errors, each with the bad symbols of its codeword (R98). -/
  | patrol (stack : Nat) (lines errs : List Nat)
  /-- COUNTER_HALVE (R105). -/
  | counterHalve (stack : Nat)
  /-- DATA_FLIT (R197). -/
  | dataFlit (f : Flit)
  /-- IDLE_FLIT (R198). -/
  | idleFlit (f : Flit)
  /-- LINK_LOSS (R211): too few lanes are left when `lanes`, else 50 µs without a good flit. -/
  | linkLoss (e : LinkEnd)
  /-- KEEPALIVE_TICK (R212). -/
  | keepaliveTick
  /-- KEEPALIVE (R212). -/
  | keepalive (pkg : Nat)
  /-- PATH_LOSS (R212). -/
  | pathLoss (pkg : Nat)
  /-- RETRAIN_NOTICE (R213). -/
  | retrainNotice (l : Nat)
  /-- LINK_TRAINING_COMPLETE (R213). -/
  | linkTrainingComplete (l lanes : Nat)
  /-- LINK_RETRAIN_RETRY (R213). -/
  | linkRetrainRetry (l : Nat)
  /-- MREQ_HOLD_RELEASE (R209). -/
  | mreqHoldRelease (die dst : Nat)
  /-- ASSOCIATION_REKEY (R356). -/
  | associationRekey (die idx : Nat)
  /-- PIECE_SEND (R86). -/
  | pieceSend (engine : Nat)
  /-- PIECE_LANDED (R86): the piece `code` in a slot, with its poisoned lines. -/
  | pieceLanded (engine : Nat) (spot : Landing) (data : List Byte) (psn : List Nat)
  /-- TAMPER_TRIP (R367). -/
  | tamperTrip (cause : Nat)
  /-- HATTER_WATCHDOG_TIMEOUT (R367). -/
  | hatterWatchdogTimeout
  /-- SINGE_COUNT_RETRY (R368). -/
  | singeCountRetry (accepted : Bool)
  /-- TRNG_HEALTH_FAILURE (R347). -/
  | trngHealthFailure
  /-- PHYSICAL_FAULT (R25). -/
  | physicalFault (kind index : Nat)
  /-- DEVICE_POWER_STATE_CHANGE (R218). -/
  | devicePowerStateChange (fn : Nat) (d3hot : Bool)
  /-- INTERRUPT_DISABLE_CHANGE (R230). -/
  | interruptDisableChange (v : Bool)
  /-- RESIZABLE_BAR_WRITE (R221). -/
  | resizableBarWrite (log2 : Nat)
  /-- PCIE_LINK_ERROR (R228). -/
  | pcieLinkError (code : Nat)
  /-- DYNAMIC_ADDRESS_ASSIGNMENT (R414). -/
  | dynamicAddressAssignment (addr : Nat)
  /-- RSTDAA (R414). -/
  | rstdaa
  deriving DecidableEq, Repr

end Sys2Proof
end

