-- ==== Sys2Proof/Decode.lean ====
section
/-!
DEFINITION. Decode.lean: the rows of the opcode table that give bits. None does: every row is a named command or event.
-/
namespace Sys2Proof

/-- The command a table word spells: no row of the table gives a bit, so no word spells a command. -/
def decodeTableWord (_nbits _w : Nat) : Option Instr := none

end Sys2Proof
end

