-- ==== Sys2Proof/Machine/Bits.lean ====
section
/-!
DEFINITION. Machine/Bits.lean: bit fields and little-endian byte order (R8), and saturating counts (R395).
-/
namespace Sys2Proof.Machine

/-- The number that little-endian bytes spell (R8). -/
def leNat : List Byte → Nat
  | [] => 0
  | b :: bs => b.toNat + 256 * leNat bs

/-- The `n` little-endian bytes of a number (R8). -/
def leBytes : Nat → Nat → List Byte
  | 0, _ => []
  | n + 1, v => BitVec.ofNat 8 v :: leBytes n (v / 256)

/-- Bits [lsb+w-1:lsb] of a number. -/
def bits (v lsb w : Nat) : Nat := (v >>> lsb) % 2 ^ w

/-- Bit `b` of a number. -/
def bit (v b : Nat) : Bool := v.testBit b

/-- The field of `w` bits at bit `lsb` of byte `off` of a record. Bytes past its end read as zero. -/
def fld (bs : List Byte) (off lsb w : Nat) : Nat :=
  bits (leNat ((bs.drop off).take ((lsb + w + 7) / 8))) lsb w

/-- One bit of a record. -/
def fldB (bs : List Byte) (off b : Nat) : Bool := fld bs off b 1 == 1

/-- The bytes of a record from an offset, as many as `n`, padded with zeros. -/
def slice (bs : List Byte) (off n : Nat) : List Byte :=
  let r := (bs.drop off).take n
  r ++ List.replicate (n - r.length) 0

/-- Replace the bytes of a record at an offset. -/
def splice (bs : List Byte) (off : Nat) (d : List Byte) : List Byte :=
  slice bs 0 off ++ d ++ bs.drop (off + d.length)

/-- A count of `w` bits that stops at its greatest value. -/
def satAdd (w a n : Nat) : Nat := min (a + n) (2 ^ w - 1)

/-- Round down to a multiple. -/
def alignDown (a m : Nat) : Nat := a / m * m

/-- Round up to a multiple. -/
def alignUp (a m : Nat) : Nat := (a + m - 1) / m * m

/-- Bring a value between two bounds. -/
def clampTo (lo hi v : Nat) : Nat := if v < lo then lo else if hi < v then hi else v

/-- A two's complement field of `w` bits as a signed number. -/
def toSigned (w v : Nat) : Int := if v < 2 ^ (w - 1) then (v : Int) else (v : Int) - 2 ^ w

/-- Positions of the set bits of a number below `n`. -/
def bitsSet (v n : Nat) : List Nat := (List.range n).filter (fun i => v.testBit i)

/-- The number whose set bits are listed. -/
def maskOf (l : List Nat) : Nat := l.foldl (fun a i => a ||| (1 <<< i)) 0

/-- Do two half-open intervals [a, a + m) and [b, b + n) meet? -/
def overlaps (a m b n : Nat) : Bool := decide (a < b + n) && decide (b < a + m)

/-- The entries of a list without repeats, keeping first occurrences. -/
def distinct : List Nat → Bool
  | [] => true
  | x :: xs => !xs.contains x && distinct xs

end Sys2Proof.Machine
end

