-- ==== Sys2Proof/Machine/Operands.lean ====
section
/-!
DEFINITION. Machine/Operands.lean: the operand forms of submitted work: descriptor headers and bodies (Tables 6 and 12 of
Contexts), kernel argument records (Tables 9 to 11), and the check that every RSV bit is zero (R249).
-/
namespace Sys2Proof.Machine

/-- Fields of a record, as (byte offset, first bit, width). -/
abbrev Fields := List (Nat × Nat × Nat)

/-- Is every bit outside the listed fields zero? -/
def rsvZero (bs : List Byte) (fs : Fields) : Bool :=
  let mask := fs.foldl (fun m f => m ||| ((2 ^ f.2.2 - 1) <<< (8 * f.1 + f.2.1))) 0
  leNat bs ||| mask == mask

/-! ### Descriptor headers (Table 6 of Contexts) -/

def dKind (d : List Byte) : Nat := fld d 0 0 4
def dOrd (d : List Byte) : Bool := fldB d 0 4
def dOp (d : List Byte) : Nat := fld d 1 0 8
def dUser (d : List Byte) : Nat := fld d 4 0 32
def dCpl (d : List Byte) : Nat := alignDown (fld d 8 0 48) 32

/-- Body fields of each kind (R251, Table 12); an unlisted KIND has none. -/
def bodyFields : Nat → Fields
  | 1 => [(0x10, 0, 11), (0x12, 0, 11), (0x18, 0, 64)]
  | 2 => [(0x10, 0, 10), (0x14, 0, 13), (0x18, 0, 64), (0x20, 0, 11)]
  | 3 => [(0x10, 0, 10), (0x12, 0, 2), (0x14, 0, 9), (0x16, 0, 9), (0x18, 0, 9), (0x1A, 0, 9), (0x20, 0, 256)]
  | 4 => [(0x10, 0, 64), (0x18, 0, 64)]
  | 5 => [(0x10, 0, 64), (0x18, 0, 64), (0x20, 0, 32)]
  | 6 => [(0x10, 0, 64), (0x18, 0, 64), (0x20, 0, 64), (0x28, 0, 2), (0x2C, 0, 64), (0x38, 0, 64)]
  | 7 => [(0x10, 0, 64), (0x18, 0, 12)]
  | _ => []

/-- A listed KIND with every RSV field zero (R249). OP is RSV but for a KERNEL. -/
def descOk (d : List Byte) : Bool :=
  decide (dKind d < 8) &&
    rsvZero d ([(0, 0, 5), (4, 0, 32), (8, 0, 64)] ++ (if dKind d = 1 then [(1, 0, 8)] else []) ++ bodyFields (dKind d))

def kLt0 (d : List Byte) : Nat := fld d 0x10 0 11
def kNlt (d : List Byte) : Nat := fld d 0x12 0 11 + 1
def kArgs (d : List Byte) : Nat := alignDown (fld d 0x18 0 48) 64
def lPid (d : List Byte) : Nat := fld d 0x10 0 10
def lPlen (d : List Byte) : Nat := alignDown (fld d 0x14 0 13) 8
def lParam (d : List Byte) : Nat := alignDown (fld d 0x18 0 48) 8
def lBase (d : List Byte) : Nat := fld d 0x20 0 11
def fVa (d : List Byte) : Nat := alignDown (fld d 0x10 0 48) 64
def fValue (d : List Byte) : Nat := fld d 0x18 0 64
def fTimeout (d : List Byte) : Nat := fld d 0x20 0 32
def cSrc (d : List Byte) : Nat := fld d 0x10 0 64
def cDst (d : List Byte) : Nat := fld d 0x18 0 64
def cLen (d : List Byte) : Nat := fld d 0x20 0 32
def cRows (d : List Byte) : Nat := fld d 0x24 0 32 + 1
def cMode (d : List Byte) : Nat := fld d 0x28 0 2
def cSstride (d : List Byte) : Nat := fld d 0x2C 0 32
def cDstride (d : List Byte) : Nat := fld d 0x30 0 32
def cIdx (d : List Byte) : Nat := fld d 0x38 0 64
def chCb (d : List Byte) : Nat := alignDown (fld d 0x10 0 48) 64
def chCount (d : List Byte) : Nat := fld d 0x18 0 12 + 1

/-! ### Kernel argument records (Table 9 of Contexts) -/

/-- Bytes of the record of each OP; zero for an unlisted OP. -/
def argBytes : Nat → Nat
  | 1 => 64 | 2 => 16 | 3 => 16 | 4 => 32 | 5 => 32 | 6 => 32 | 7 => 32 | 8 => 192 | 9 => 16 | 10 => 16
  | _ => 0

/-- Fields of the record of each OP. -/
def argFields : Nat → Fields
  | 1 => [(0, 0, 31), (4, 0, 20), (8, 0, 20), (0xC, 0, 20), (0x10, 0, 15), (0x12, 0, 15), (0x14, 0, 15), (0x16, 0, 15), (0x18, 0, 32)]
  | 2 => [(0, 0, 14), (4, 0, 20), (8, 0, 20)]
  | 3 => [(0, 0, 1), (2, 0, 11)]
  | 4 => [(0, 0, 64), (8, 0, 20), (0xC, 0, 32), (0x10, 0, 64)]
  | 5 => [(0, 0, 64), (8, 0, 20), (0xC, 0, 32), (0x10, 0, 64)]
  | 6 => [(0, 0, 64), (8, 0, 8), (9, 0, 6), (0xA, 0, 6), (0xB, 0, 7), (0xC, 0, 32), (0x10, 0, 20), (0x14, 0, 20), (0x18, 0, 32)]
  | 7 => [(0, 0, 18), (4, 0, 20), (8, 0, 20), (0xC, 0, 20), (0x10, 0, 20), (0x14, 0, 18)]
  | 8 => [(0, 0, 10), (4, 0, 12), (6, 0, 8), (7, 0, 6), (8, 0, 32), (0x10, 0, 64), (0x18, 0, 64), (0x20, 0, 20), (0x24, 0, 20),
          (0x28, 0, 20), (0x40, 0, 1024)]
  | 9 => [(0, 0, 1), (8, 0, 64)]
  | 10 => [(0, 0, 6)]
  | _ => []

/-- A listed OP whose record has every RSV field zero (R249). RINGREC of ATTN is RSV when RING = 0. -/
def argsOk (op : Nat) (a : List Byte) : Bool :=
  decide (argBytes op ≠ 0) && rsvZero (slice a 0 (argBytes op)) (argFields op) &&
    (op != 8 || fld a 0 6 2 != 0 || fld a 0x18 0 64 == 0)

/-- A 20-bit tile-local address whose bits [4:0] read as zero. -/
def a32 (bs : List Byte) (off : Nat) : Nat := alignDown (fld bs off 0 20) 32

/-- A 20-bit field in which 0xF_FFFF means none, recognised before bits [4:0] are cleared (R251). -/
def a32none (bs : List Byte) (off : Nat) : Option Nat :=
  if fld bs off 0 20 = 0xFFFFF then none else some (a32 bs off)

end Sys2Proof.Machine
end

