-- ==== Sys2Proof/Config.lean ====
section
/-!
DEFINITION. Config.lean: the values the spec leaves open, as constants WITHOUT A BODY (nothing can be proved of their
values), one per kind of open value. Each is named in the assumption log (notes/assumptions).
-/
namespace Sys2Proof.Config

/-- R104: what an erased line reads as under a key: it depends only on the key (index and generation) and the address.
Log entry 2. -/
opaque erasedByte (keyIdx keyGen addr : Nat) : BitVec 8

/-- Contents of another package's memory before this package has written them (environment). Log entry 3. -/
opaque farByte (pkg addr : Nat) : BitVec 8

/-- Contents of host memory before anything has written them (environment). Log entry 3. -/
opaque hostByte (addr : Nat) : BitVec 8

/-- R52: the transcendental operations are stated only within a bound in ulp, and are a function of the input. This is
the deviation from the correctly rounded result, later reduced to the stated bound. Log entry 5. -/
opaque ulpDev (op : Nat) (x : BitVec 32) : Nat

/-- R52: underflow and inexact of a transcendental lane, whose rule the spec does not state. Log entry 5. -/
opaque transFlags (op : Nat) (x : BitVec 32) : BitVec 2

/-- R52: IEEE 754 lets an implementation detect tininess before or after rounding. Log entry 16. -/
opaque tinyAfter : Bool

/-- R52: what CVT to INT8 gives for a NaN, an infinity or a value beyond the format. Log entry 17. -/
opaque cvtInt8 (x : BitVec 32) (rnd : Nat) (sat : Bool) : BitVec 8

/-- R52: the status flags of such a conversion. Log entry 17. -/
opaque cvtInt8Flags (x : BitVec 32) (rnd : Nat) (sat : Bool) : BitVec 5

/-- R52: what STB stores for a lane that BF16 does not hold exactly. Log entry 17. -/
opaque stbRound (x : BitVec 32) : BitVec 16

/-- R251: the lane CMP writes for a predicate that does not hold or holds. Log entry 17. -/
opaque cmpLane (holds : Bool) : BitVec 32

/-- R52: does a lane make SEL choose its first value? Log entry 17. -/
opaque selTest (x : BitVec 32) : Bool

/-- R54: what an operand read past scratchpad byte 1,048,575 gives. Log entry 19. -/
opaque pastEnd (addr : Nat) : BitVec 8

/-- R26, R78: the partial state of a span whose site has gone, for a row (item 0: m, 1: l, 2 + e: o[e]). Log entry 27. -/
opaque peerState (seed pos row item : Nat) : BitVec 32

/-- R66: the scratchpad address, before its reduction to 32-byte chunks, at which array `k` of an expanded batt is delivered. Log entry 28. -/
opaque attnPlace (seed k : Nat) : Nat

/-- R124: a scratchpad byte of the destination of a LOAD that has been abandoned. Log entry 100. -/
opaque loadLeft (seed i : Nat) : BitVec 8

/-- R56, R301: byte `i` of the 256 bytes of controller state in a save slot, whose layout the spec does not state. Log entry 105. -/
opaque ctlByte (seed i : Nat) : BitVec 8

/-- R75: what the attention sequence leaves in the accumulators and vector registers it has used. Log entry 28. -/
opaque attnLeft (seed item : Nat) : BitVec 128

/-- R146, R151: the set of a directory that a line falls in, before its reduction to the number of sets. Log entry 30. -/
opaque dirSet (line : Nat) : Nat

/-- R144: the set of a die cache, or of the spine cache, that a line falls in, before its reduction. Log entry 30. -/
opaque cacheSet (cache line : Nat) : Nat

/-- R98: the bytes that a codeword with six bad symbols or more is miscorrected to. Log entry 84. -/
opaque miscorrect (n i : Nat) : BitVec 8

/-- R207: do two links of the package lie in one dimension of the topology (the wiring of the board)? Log entry 49. -/
opaque sameDim (a b : Nat) : Bool

/-- R204: the KIND code of a message kind, which no chapter states. Log entry 81. -/
opaque msgKind (n : Nat) : BitVec 8

/-- R204: byte `i` of a message body whose layout no chapter states, from its fields. Log entry 81. -/
opaque bodyByte (n : Nat) (fields : List Nat) (i : Nat) : BitVec 8

/-- R214: the tag of AES-256-GCM for a key, a salt, a counter, the additional authenticated data and a body. Log entry 82. -/
opaque gcmTag (key : Nat) (salt : BitVec 32) (ctr : Nat) (aad : BitVec 64) (body : List (BitVec 8)) : BitVec 128

/-- R214: byte `i` of the AES-256 key stream for a key and the IV of a salt and a counter. Log entry 82. -/
opaque gcmStream (key : Nat) (salt : BitVec 32) (ctr i : Nat) : BitVec 8

/-- R73, R254: an order the spec leaves open (which of two unordered writers is last). Log entry 6. -/
opaque choice (n : Nat) : Nat

/-- R355, R361, R363: values from the DRBG (nonces, key generations), from signatures and from measurements. Log entry 7. -/
opaque drbg (n : Nat) : BitVec 128

/-- R345: signatures and digests of answers. Log entry 7. -/
opaque signature (key n : Nat) : BitVec 384

/-- R4, R348: the serial number of the part: the first 64 bits of the digest of the public key that its PUF yields. Log entry 101. -/
opaque deviceSerial : BitVec 64

/-- R353, R361: does the ECDSA signature of a signed request verify (key: 1 Hufort debug key, 2 + n the owner key n)? Log entry 8. -/
opaque sigValid (key : Nat) (req : List (BitVec 8)) : Bool

/-- R353: do the configuration records at this host address authenticate and verify? Log entry 8. -/
opaque recordsAt (addr : Nat) : FlashImage

/-- R364: the 48-byte digest of a measurement over the named content. Log entry 7. -/
opaque digest (content : List Nat) : BitVec 384

/-- R332: PWR_CAP of another member of the power group, which the leader's limits name and no message carries. Log entry 11. -/
opaque memberCap (pkg : Nat) : Nat

/-- R389: bytes of the image sections whose layout the spec does not state. Log entry 13. -/
opaque imageExtra (hood : Nat) : BitVec 48

end Sys2Proof.Config
end

