-- ==== Sys2Proof/Machine/Flags.lean ====
section
/-!
DEFINITION. Machine/Flags.lean: the flag words of results: the vector status word (R52), the six element flags (R36, R48) and how a
completion record gathers them (R48, R250).
-/
namespace Sys2Proof.Machine

/-! ### The vector status word (R52, R250): invalid, divide-by-zero, overflow, underflow, inexact in bits 4 to 0 (log entry 16) -/

abbrev VFlags := BitVec 5

def fInvalid : VFlags := 16
def fDivZero : VFlags := 8
def fOverflow : VFlags := 4
def fUnderflow : VFlags := 2
def fInexact : VFlags := 1

def flagIf (b : Bool) (f : VFlags) : VFlags := if b then f else 0

/-! ### Element flags: PSN, NAN, PINF, NINF, OVF, STK in bits 5 to 0, the order of bits [127:122] (R36, R250) -/

abbrev EFlags := BitVec 6

def ePsn : EFlags := 32
def eNan : EFlags := 16
def ePinf : EFlags := 8
def eNinf : EFlags := 4
def eOvf : EFlags := 2
def eStk : EFlags := 1

def eflagIf (b : Bool) (f : EFlags) : EFlags := if b then f else 0

/-- What a kernel reports of the elements it converts or exports (R48): the OR of their flags and the count of those with STK. -/
def reportFlags (l : List EFlags) : EFlags × Nat :=
  l.foldl (fun r f => (r.1 ||| f, if f.getLsbD 0 then satAdd 32 r.2 1 else r.2)) (0, 0)

end Sys2Proof.Machine
end

