-- ==== Sys2Proof/Machine/Float.lean ====
section
/-!
DEFINITION. Machine/Float.lean: the element formats (R32), exact values, rounding into a format (R46, R47, R52), FP32 arithmetic and
the bounded operations of the vector unit (R52). Values are m × 2^e with a sign, exactly.
-/
namespace Sys2Proof.Machine

/-! ### Formats (Table 3 of The Tile) -/

/-- Exponent and mantissa bits, bias, code of the largest finite magnitude, code of +Inf, code of the NaN that is written. -/
structure Fmt where
  eb   : Nat
  mb   : Nat
  bias : Nat
  top  : Nat
  inf  : Option Nat
  nan  : Option Nat
  deriving DecidableEq, Repr

def fE2M1 : Fmt := ⟨2, 1, 1, 0x7, none, none⟩
def fE2M3 : Fmt := ⟨2, 3, 1, 0x1F, none, none⟩
def fE3M2 : Fmt := ⟨3, 2, 3, 0x1F, none, none⟩
def fE4M3 : Fmt := ⟨4, 3, 7, 0x7E, none, some 0x7F⟩
def fE5M2 : Fmt := ⟨5, 2, 15, 0x7B, some 0x7C, some 0x7E⟩
def fFP16 : Fmt := ⟨5, 10, 15, 0x7BFF, some 0x7C00, some 0x7E00⟩
def fBF16 : Fmt := ⟨8, 7, 127, 0x7F7F, some 0x7F80, some 0x7FC0⟩
def fFP32 : Fmt := ⟨8, 23, 127, 0x7F7FFFFF, some 0x7F800000, some 0x7FC00000⟩

/-- The format of a format code other than INT8 (R251). -/
def fmtOf : Nat → Option Fmt
  | 0 => some fE2M1 | 1 => some fE2M3 | 2 => some fE3M2 | 3 => some fE4M3 | 4 => some fE5M2 | 6 => some fFP16 | 7 => some fBF16
  | 8 => some fFP32 | _ => none

/-- Bits of an element of a format code. -/
def elBits : Nat → Nat
  | 0 => 4 | 1 => 6 | 2 => 6 | 6 => 16 | 7 => 16 | 8 => 32 | _ => 8

/-- An exact value. -/
inductive FVal where
  | nan (sig : Bool)
  | inf (neg : Bool)
  | fin (neg : Bool) (m : Nat) (e : Int)
  deriving DecidableEq, Repr

/-- Exponent of the last bit of the subnormals. -/
def Fmt.qmin (f : Fmt) : Int := 1 - (f.bias : Int) - f.mb

/-- Sign bit of a format. -/
def Fmt.sbit (f : Fmt) : Nat := f.eb + f.mb

/-- Value of a magnitude code, taken as finite. -/
def Fmt.mag (f : Fmt) (c : Nat) : Nat × Int :=
  let ex := c >>> f.mb
  if ex = 0 then (c, f.qmin) else (2 ^ f.mb + c % 2 ^ f.mb, (ex : Int) - f.bias - f.mb)

/-- The value of a code (R32). -/
def Fmt.val (f : Fmt) (code : Nat) : FVal :=
  let neg := bit code f.sbit
  let c := code % 2 ^ f.sbit
  if c ≤ f.top then let (m, e) := f.mag c; .fin neg m e
  else if f.inf = some c then .inf neg
  else .nan (!bit c (f.mb - 1))

/-- The value of an element of a format code (R32); INT8 is two's complement. -/
def elVal (code x : Nat) : FVal :=
  if code = 5 then let v := toSigned 8 (x % 256); .fin (decide (v < 0)) v.natAbs 0
  else match fmtOf code with
    | some f => f.val x
    | none => .fin false 0 0

/-! ### Rounding -/

/-- Number of bits of a number. -/
def bitLen (m : Nat) : Nat := if m = 0 then 0 else Nat.log2 m + 1

/-- Shift by an exponent, down with what is lost: (integer part, remainder, divisor). -/
def shiftBy (m : Nat) (e : Int) : Nat × Nat × Nat :=
  if 0 ≤ e then (m * 2 ^ e.toNat, 0, 1) else let d := 2 ^ (-e).toNat; (m / d, m % d, d)

/-- Does a mode round a magnitude up (R46)? 0 nearest even, 1 toward zero, 2 toward +Inf, 3 toward −Inf. `st`: a nonzero part lies
below the remainder. -/
def roundsUp (rnd : Nat) (neg odd : Bool) (rem d : Nat) (st : Bool) : Bool :=
  let inexact := rem != 0 || st
  match rnd with
  | 0 => decide (d < 2 * rem) || (2 * rem == d && (st || odd)) && d != 1
  | 1 => false
  | 2 => inexact && !neg
  | _ => inexact && neg

/-- Round m × 2^e to the last place q: (result, inexact). -/
def roundAt (rnd : Nat) (neg : Bool) (m : Nat) (e q : Int) (st : Bool) : Nat × Bool :=
  let (k, r, d) := shiftBy m (e - q)
  (if roundsUp rnd neg (k % 2 == 1) r d st then k + 1 else k, r != 0 || st)

/-- Round a positive value into a format: its magnitude code, which may lie past the largest finite one, whether it is inexact, and
whether it is tiny. -/
def Fmt.roundMag (f : Fmt) (rnd : Nat) (neg : Bool) (m : Nat) (e : Int) (st : Bool) : Nat × Bool × Bool :=
  let p : Int := e + bitLen m - 1
  let q := max (p - f.mb) f.qmin
  let (k, inx) := roundAt rnd neg m e q st
  let tiny0 := decide (p < 1 - (f.bias : Int))
  let tiny1 := tiny0 && !(decide (p = -(f.bias : Int)) && (roundAt rnd neg m e (p - f.mb) st).1 == 2 ^ (f.mb + 1))
  ((q - f.qmin).toNat * 2 ^ f.mb + k, inx, if Config.tinyAfter then tiny1 else tiny0)

/-- A magnitude code with its sign. -/
def Fmt.signed (f : Fmt) (neg : Bool) (c : Nat) : Nat := if neg then c + 2 ^ f.sbit else c

/-- Round a value into a format, with what Table 6 of The Tile gives beyond the largest finite value. `sat` is ignored for FP32 and
BF16. A result beyond the format raises overflow and inexact, saturated or not (log entry 78). -/
def Fmt.pack (f : Fmt) (rnd : Nat) (sat neg : Bool) (m : Nat) (e : Int) (st : Bool) : Nat × VFlags :=
  if m = 0 && !st then (f.signed neg 0, 0)
  else
    let (c, inx, tiny) := f.roundMag rnd neg m e st
    if c ≤ f.top then (f.signed neg c, flagIf inx fInexact ||| flagIf (inx && tiny) fUnderflow)
    else
      let away := rnd == 0 || (rnd == 2 && !neg) || (rnd == 3 && neg)
      let r := if f.eb ≠ 8 && sat then f.top
        else match f.inf with
          | some i => if away then i else f.top
          | none => f.nan.getD f.top
      (f.signed neg r, fOverflow ||| fInexact)

/-- An infinity written in a format (Table 6). -/
def Fmt.packInf (f : Fmt) (sat neg : Bool) : Nat :=
  f.signed neg (if f.eb ≠ 8 && sat then f.top else (f.inf.orElse (fun _ => f.nan)).getD f.top)

/-- Any value written in a format. -/
def Fmt.packVal (f : Fmt) (rnd : Nat) (sat : Bool) : FVal → Nat × VFlags
  | .nan sig => (f.nan.getD 0, flagIf sig fInvalid)
  | .inf neg => (f.packInf sat neg, 0)
  | .fin neg m e => f.pack rnd sat neg m e false

/-! ### FP32 arithmetic (R52) -/

def qNaN : Nat := 0x7FC00000

def f32 (x : Nat) : FVal := fFP32.val x

def isSig : FVal → Bool
  | .nan s => s
  | _ => false

def isNan : FVal → Bool
  | .nan _ => true
  | _ => false

/-- a × b + c, rounded once to nearest even. 0 × Inf raises invalid also beside a quiet NaN addend (log entry 78). -/
def fmaV (a b c : FVal) : Nat × VFlags :=
  let sig := flagIf (isSig a || isSig b || isSig c) fInvalid
  match a, b, c with
  | .inf _, .fin _ 0 _, _ => (qNaN, fInvalid)
  | .fin _ 0 _, .inf _, _ => (qNaN, fInvalid)
  | .nan _, _, _ => (qNaN, sig)
  | _, .nan _, _ => (qNaN, sig)
  | _, _, .nan _ => (qNaN, sig)
  | .inf s, .inf t, .inf u => if (s != t) == u then (fFP32.packInf false u, 0) else (qNaN, fInvalid)
  | .inf s, .fin t _ _, .inf u => if (s != t) == u then (fFP32.packInf false u, 0) else (qNaN, fInvalid)
  | .fin s _ _, .inf t, .inf u => if (s != t) == u then (fFP32.packInf false u, 0) else (qNaN, fInvalid)
  | .inf s, .inf t, .fin .. => (fFP32.packInf false (s != t), 0)
  | .inf s, .fin t _ _, .fin .. => (fFP32.packInf false (s != t), 0)
  | .fin s _ _, .inf t, .fin .. => (fFP32.packInf false (s != t), 0)
  | .fin .., .fin .., .inf u => (fFP32.packInf false u, 0)
  | .fin s m e, .fin t n g, .fin u k h =>
    let pe := e + g
    let lo := min pe h
    let p : Int := (m * n * 2 ^ (pe - lo).toNat : Nat)
    let q : Int := (k * 2 ^ (h - lo).toNat : Nat)
    let x := (if s != t then -p else p) + (if u then -q else q)
    if x = 0 then (fFP32.signed ((s != t) && u) 0, 0)
    else fFP32.pack 0 false (decide (x < 0)) x.natAbs lo false

def one32 : FVal := .fin false 1 0
def negZero : FVal := .fin true 0 0

def fadd (a b : Nat) : Nat × VFlags := fmaV (f32 a) one32 (f32 b)
def fneg (a : Nat) : Nat := if isNan (f32 a) then qNaN else (a + 2 ^ 31) % 2 ^ 32
def fabs (a : Nat) : Nat := if isNan (f32 a) then qNaN else a % 2 ^ 31
def fsub (a b : Nat) : Nat × VFlags := fmaV (f32 a) one32 (f32 ((b + 2 ^ 31) % 2 ^ 32))
def fmul (a b : Nat) : Nat × VFlags := fmaV (f32 a) (f32 b) negZero
def ffma (a b c : Nat) : Nat × VFlags := fmaV (f32 a) (f32 b) (f32 c)

/-- The order of FP32 codes that are not NaN, −0 below +0. -/
def ordKey (a : Nat) : Int := if bit a 31 then -(bits a 0 31 : Int) - 1 else bits a 0 31

/-- MIN and MAX (R52). -/
def fminmax (isMax : Bool) (a b : Nat) : Nat × VFlags :=
  let fl := flagIf (isSig (f32 a) || isSig (f32 b)) fInvalid
  if isNan (f32 a) then (if isNan (f32 b) then qNaN else b, fl)
  else if isNan (f32 b) then (a, fl)
  else (if (ordKey a < ordKey b) == isMax then b else a, fl)

/-- The value order of FP32 codes that are not NaN; the zeros are equal. -/
def valKey (a : Nat) : Int := if bit a 31 then -(bits a 0 31 : Int) else bits a 0 31

/-- CMP under PRED: 0 EQ, 1 NE, 2 LT, 3 LE, 4 GT, 5 GE, 6 UNORDERED (R251). LT, LE, GT and GE raise invalid on a quiet NaN, the others do
not (log entry 78). -/
def fcmp (pred a b : Nat) : Bool × VFlags :=
  let un := isNan (f32 a) || isNan (f32 b)
  let fl := flagIf (isSig (f32 a) || isSig (f32 b) || (un && decide (2 ≤ pred) && decide (pred ≤ 5))) fInvalid
  let x := valKey a
  let y := valKey b
  (match pred with
    | 0 => !un && decide (x = y)
    | 1 => un || decide (x ≠ y)
    | 2 => !un && decide (x < y)
    | 3 => !un && decide (x ≤ y)
    | 4 => !un && decide (y < x)
    | 5 => !un && decide (y ≤ x)
    | _ => un, fl)

/-! ### Operations stated within a bound (R52): a fixed-point centre, and any FP32 value within the bound of it -/

/-- Fraction bits of the fixed-point centre. -/
def fxBits : Nat := 128
def fxLn2 : Nat := 235865763225513294137944142764154484399
def fxLog2e : Nat := 490923683258796565746369346286093237521

/-- Sum of t^k / k! from k on, in fixed point. -/
def expTaylor : Nat → Nat → Nat → Nat → Nat
  | 0, _, _, _ => 0
  | n + 1, k, t, term => term + expTaylor n (k + 1) t (term * t / 2 ^ fxBits / (k + 1))

/-- 2^f for a fraction f in [0, 1). -/
def exp2Fx (f : Nat) : Nat := expTaylor 40 0 (f * fxLn2 / 2 ^ fxBits) (2 ^ fxBits)

/-- Sum of z^(2k+1) / (2k+1) in fixed point. -/
def atanhSum : Nat → Nat → Nat → Nat → Nat
  | 0, _, _, _ => 0
  | n + 1, k, z2, p => p / (2 * k + 1) + atanhSum n (k + 1) z2 (p * z2 / 2 ^ fxBits)

/-- Natural logarithm of m × 2^e in fixed point. -/
def lnFx (m : Nat) (e : Int) : Int :=
  let p := bitLen m - 1
  let x := m * 2 ^ fxBits / 2 ^ p
  let z := (x - 2 ^ fxBits) * 2 ^ fxBits / (x + 2 ^ fxBits)
  2 * (atanhSum 48 0 (z * z / 2 ^ fxBits) z : Int) + (e + p) * fxLn2

/-- A dyadic value as a fixed-point integer, rounded down. -/
def toFx (neg : Bool) (m : Nat) (e : Int) : Int :=
  let v : Int := (m * 2 ^ (e + fxBits + 200).toNat : Nat)
  (if neg then -v else v) / 2 ^ (200 : Nat)

/-- Integer square root, from the highest bit down. -/
def isqrtLoop : Nat → Nat → Nat → Nat
  | 0, _, r => r
  | b + 1, n, r => isqrtLoop b n (if (r + 2 ^ b) * (r + 2 ^ b) ≤ n then r + 2 ^ b else r)

/-- Is |a − b| ≤ bound, all dyadic, the first two with sign? -/
def within (an : Bool) (am : Nat) (ae : Int) (bn : Bool) (bm : Nat) (be : Int) (bd : Nat) (bde : Int) : Bool :=
  let lo := min ae (min be bde)
  let x : Int := (am * 2 ^ (ae - lo).toNat : Nat)
  let y : Int := (bm * 2 ^ (be - lo).toNat : Nat)
  decide (((if an then -x else x) - (if bn then -y else y)).natAbs ≤ bd * 2 ^ (bde - lo).toNat)

/-- A result of an operation with a centre (sign, m, e) and a bound: the value that the part gives (log entry 5) if it is finite, lies
within the bound and passes `ok`, else the centre rounded. -/
def bounded (op x : Nat) (neg : Bool) (m : Nat) (e : Int) (bd : Nat) (bde : Int) (ok : Nat → Bool) : Nat × VFlags :=
  let fl := (Config.transFlags op (BitVec.ofNat 32 x)).setWidth 5
  let c := Config.ulpDev op (BitVec.ofNat 32 x) % 2 ^ 32
  match f32 c with
  | .fin n k g => if within n k g neg m e bd bde && ok c then (c, fl)
      else let r := fFP32.pack 0 false neg m e false; (r.1, fl ||| (r.2 &&& fOverflow))
  | _ => let r := fFP32.pack 0 false neg m e false; (r.1, fl ||| (r.2 &&& fOverflow))

/-- Last place of FP32 at a centre. -/
def lastPlace (m : Nat) (e : Int) : Int := max (e + bitLen m - 24) (-149)

/-- Within `k` units in the last place (with 2^−30 of one for the error of the fixed-point centre). -/
def ulps (op x k : Nat) (neg : Bool) (m : Nat) (e : Int) (ok : Nat → Bool) : Nat × VFlags :=
  bounded op x neg m e (k * 2 ^ 30 + 1) (lastPlace m e - 30) ok

/-- Powers of two: 2^(X / 2^128), for an exponent in fixed point. -/
def powFx (op x k : Nat) (y : Int) (ok : Nat → Bool) : Nat × VFlags :=
  let one : Int := 2 ^ fxBits
  if 1024 * one ≤ y then (fFP32.packInf false false, fOverflow ||| fInexact)
  else if y < -1024 * one then ulps op x k false 1 (-1024) ok
  else ulps op x k false (exp2Fx (y % one).toNat) (y / one - fxBits) ok

/-- EXP2 (0x10): +Inf above 128, a subnormal or +0 below −126; exactly 1 at zero, as R76 and R83 have it. -/
def fexp2 (x : Nat) : Nat × VFlags :=
  match f32 x with
  | .nan s => (qNaN, flagIf s fInvalid)
  | .inf neg => (if neg then 0 else fFP32.packInf false false, 0)
  | .fin _ 0 _ => (0x3F800000, 0)
  | .fin neg m e =>
    let y := toFx neg m e
    if 128 * 2 ^ fxBits < y then (fFP32.packInf false false, fOverflow ||| fInexact)
    else if y < -126 * 2 ^ fxBits then
      let (c, fl) := powFx 0x10 x 2 y (fun c => decide (c < 0x800000))
      (min c 0x7FFFFF, fl)
    else powFx 0x10 x 2 y (fun _ => true)

/-- EXP (0x14). -/
def fexp (x : Nat) : Nat × VFlags :=
  match f32 x with
  | .nan s => (qNaN, flagIf s fInvalid)
  | .inf neg => (if neg then 0 else fFP32.packInf false false, 0)
  | .fin neg m e => powFx 0x14 x 3 (toFx neg m e * fxLog2e / 2 ^ fxBits) (fun _ => true)

/-- LOG2 (0x11) and LN (0x15). LOG2 has an absolute error of at most 2^−22 for inputs in [0.5, 2]. -/
def flog (ln : Bool) (x : Nat) : Nat × VFlags :=
  match f32 x with
  | .nan s => (qNaN, flagIf s fInvalid)
  | .fin _ 0 _ => (fFP32.packInf false true, fDivZero)
  | .inf neg => if neg then (qNaN, fInvalid) else (fFP32.packInf false false, 0)
  | .fin neg m e =>
    if neg then (qNaN, fInvalid)
    else
      let l := lnFx m e
      let r := if ln then l else (l - (e + bitLen m - 1) * fxLn2) * fxLog2e / 2 ^ fxBits + (e + bitLen m - 1) * 2 ^ fxBits
      if !ln && decide (0x3F000000 ≤ x) && decide (x ≤ 0x40000000) then
        bounded 0x11 x (decide (r < 0)) r.natAbs (-(fxBits : Int)) (2 ^ 30 + 1) (-52) (fun _ => true)
      else if r = 0 then (0, 0)
      else ulps (if ln then 0x15 else 0x11) x (if ln then 3 else 2) (decide (r < 0)) r.natAbs (-(fxBits : Int)) (fun _ => true)

/-- RCP (0x12). -/
def frcp (x : Nat) : Nat × VFlags :=
  match f32 x with
  | .nan s => (qNaN, flagIf s fInvalid)
  | .inf neg => (fFP32.signed neg 0, 0)
  | .fin neg 0 _ => (fFP32.packInf false neg, fDivZero)
  | .fin neg m e => ulps 0x12 x 1 neg (2 ^ 200 / m) (-200 - e) (fun c => bit c 31 == neg)

/-- RSQRT (0x13). -/
def frsqrt (x : Nat) : Nat × VFlags :=
  match f32 x with
  | .nan s => (qNaN, flagIf s fInvalid)
  | .fin neg 0 _ => (fFP32.packInf false neg, fDivZero)
  | .inf neg => if neg then (qNaN, fInvalid) else (0, 0)
  | .fin neg m e =>
    if neg then (qNaN, fInvalid)
    else
      let odd := e % 2 != 0
      let m := if odd then 2 * m else m
      let e := if odd then e - 1 else e
      ulps 0x13 x 1 false (isqrtLoop 140 (2 ^ 240 / m) 0) (-120 - e / 2) (fun c => !bit c 31)

end Sys2Proof.Machine
end

