-- ==== Sys2Proof/Machine/State.lean ====
section
/-!
DEFINITION. Machine/State.lean: everything the spec gives the package, as plain data. Registers of Register Reference are
in `regs` (one copy per function, hood, unit or context as R394 says, keyed in Machine/Regs.lean); every other piece of
state has a field of its own. Tables are sparse: an entry not listed holds the default of its type.
-/
namespace Sys2Proof.Machine

/-- Why the block stops. -/
inductive Fault where
  /-- Raised by every command whose operand names a unit, index or width the spec says does not exist (a plank above 127, a function
  above 16). Safe: the model stops where the hardware has no such unit. -/
  | noSuchUnit
  deriving DecidableEq, Repr, Inhabited

/-- Why the block refuses a command. -/
inductive Refusal where
  /-- Raised by no arm: every command has its meaning. Safe. -/
  | notModelled (mnemonic : String)
  deriving DecidableEq, Repr, Inhabited

/-- The nap domain (R15): lost only when VDD_NAP fails or PGOOD_NAP falls. -/
structure Nap where
  pgood    : Bool := false          -- PGOOD_NAP (R410)
  counter  : BitVec 64 := 0         -- package counter (R6)
  alert    : BitVec 32 := 0         -- TOP_ALERT_SUMMARY (R234)
  alertEn  : BitVec 32 := 0x7FF     -- TOP_ALERT_EN (R234)
  alertN   : Bool := false          -- ALERT_N is driven low (R234)
  sideCap  : Nat := 6000            -- sideband cap, W (R324)
  classA   : Nat := 0               -- class A singes since cold power-on (R367 cause 5)
  classB   : Bool := false          -- a class B singe stands (R368)
  countKey : Bool := false          -- Count key held by the singe recorder (R348)
  recPend  : List Bool := []        -- singe counts not yet written: true = class B (R368)
  recFail  : Bool := false          -- the flash did not accept a count within 50 ms (R368)
  mctpEid  : Nat := 0               -- MCTP endpoint ID (R235)
  i3cAddr  : Option Nat := none     -- I3C dynamic address; none = static 0x2A (R414)
  refFault : Bool := false          -- reference check failed; planks stay gated (R320)
  refCheck : Bool := false          -- the reference check is active (step 11 of R377)
  spine    : Bool := false          -- the spine die is isolated: the package cannot serve (R228)
  tripped  : Bool := false          -- hardware trip stands; THERMTRIP_N low (R340, R413)
  perst    : Bool := false          -- PERST# is asserted, or a package reset waits for its restart (R380)
  hatFail  : Bool := false          -- HATTERFAIL hold of R347 and R378
  deriving DecidableEq, Repr, Inhabited

/-- The start-up sequencer, the hatter and what it holds (R344 to R372, R377 to R381). -/
structure Hatter where
  step     : Nat := 0               -- last completed step of Table 3 of Reset (R377)
  runs     : Bool := false          -- hatter firmware runs (step 6)
  rails    : List Nat := []         -- indices of commanded rails that are on and in regulation (R407, R410)
  stuck    : Option Nat := none     -- a commanded rail that is not in regulation (R378)
  calib    : Bool := false          -- step 8 has completed (R380)
  table3   : Bool := false          -- DeviceID and Storage keys held (R348)
  aliasKey : Bool := false          -- Alias key and certificate (R349)
  flash    : FlashImage := default  -- the configuration flash (R4)
  serial   : BitVec 64 := 0         -- the device serial number, once the identity is derived from the PUF (R348)
  staged   : Table Image := []      -- verified or received image per class (R351)
  running  : List Nat := [0, 0, 0, 0] -- SVN of the class 0 image running, then of the images CREATE installs
  nonce    : Nat := 0               -- SEC_NONCE is Config.drbg of this number (R361)
  debug    : Nat := 0               -- package debug: 0 closed; 4 + SCOPE open (R361, R362)
  keys     : Table Nat := []        -- memory key index → generation + 1; 0 = key absent or erased (R354, R358)
  keyGens  : Table Nat := []        -- 10-bit generation of each key index (R358)
  domains  : Table Nat := []        -- live KEYDOM → key index 16 to 31 (R354)
  domNonce : Table Nat := []        -- live KEYDOM → its nonce, the low 64 bits of Config.drbg of this number (R354)
  ideKeys  : Table Nat := []        -- IDE stream → hood + 1 (R226)
  ideGo    : Table Bool := []       -- IDE stream started
  sessions : Table Nat := []        -- SPDM session → 1 exchanging, 2 established (R363)
  sessKeys : Table Nat := []        -- key update count of a session
  chunk    : Nat := 0               -- chunks of a large request accepted so far
  migKeys  : Table Nat := []        -- migration key held for a hood, with the peer + 1 (R356)
  migUsed  : List Nat := []         -- migration keys that a RESTORE has ended (R390)
  repair   : Option (Nat × Bool) := none -- REPAIR_SITE that waits for a live update: the site, and its spare's self-test (R392)
  linkAuth : Table (Nat × Nat) := [] -- packages whose hatter holds an association with ours: its key, messages sent under it (R215)
  tagFails : List Nat := []         -- times of GCM tag failures within 1 s (R367 cause 6)
  deriving DecidableEq, Repr, Inhabited

/-- One function: configuration state and interrupt output (R218 to R236). Function 0 is the PF, h + 1 the VF of hood h. -/
structure Fn where
  bme      : Bool := false          -- Bus Master Enable (R225)
  mse      : Bool := false          -- Memory Space Enable (R221)
  ats      : Bool := false          -- ATS Enable (VF)
  pasid    : Bool := false          -- PASID Enable (PF)
  pri      : Bool := false          -- PRI Enable (PF, R224)
  stu      : Nat := 0               -- Smallest Translation Unit: 4 KiB × 2^stu (VF, R224)
  fmask    : Bool := false          -- MSI-X Function Mask (R232)
  relax    : Bool := true           -- Enable Relaxed Ordering (R218)
  maxPay   : Nat := 0               -- Max Payload Size: 128 × 2^n bytes (R218)
  maxRd    : Nat := 2               -- Max Read Request Size: 128 × 2^n bytes (R218)
  tags     : Nat := 0               -- tag width: 0 8-bit, 1 10-bit, 2 14-bit (R218)
  ari      : Bool := true           -- ARI at the upstream port (PF, R218)
  rate     : Nat := 6               -- link rate: 1 2.5 GT/s .. 6 64 GT/s (PF, R218)
  width    : Nat := 16              -- link width (PF, R218)
  l0p      : Nat := 16              -- lanes kept active by L0p (PF, R218)
  d3hot    : Bool := false          -- device power state (R218)
  intDis   : Bool := false          -- Interrupt Disable (PF, R230)
  masked   : Bool := true           -- MSI-X vector masked (R232)
  pba      : Bool := false          -- MSI-X pending bit (R232)
  held     : Bool := false          -- a message held by MOD (R232)
  modBusy  : Bool := false          -- less than MOD µs since the last message (R232)
  wasZero  : Bool := true           -- the summary read zero when last evaluated (R232)
  bmeHeld  : Bool := false          -- a message held while Bus Master Enable is clear, or in D3hot (R225, R236)
  inta     : Bool := false          -- INTA asserted (PF, R230)
  aer      : BitVec 32 := 0         -- AER status, one bit per row of Table 3 of PCI Express (R228)
  deriving DecidableEq, Repr, Inhabited

/-- A 64-bit register access in two halves (R11), keyed by function and offset. -/
structure Half where
  rd : Option (BitVec 32) := none   -- latched upper half of the latest lower-half read
  wr : Option (BitVec 32) := none   -- lower half written since the last upper-half write
  deriving DecidableEq, Repr, Inhabited

/-- A move target of MOVE_RANGE (R181, Table 4 of Hoods). -/
structure Target where
  borrowed : Bool := false
  cbase    : Nat := 0
  lender   : Nat := 0
  carrier  : Nat := 0
  leaseId  : Nat := 0
  leaseMs  : Nat := 0
  asked    : Nat := 0               -- as in a range entry
  sent     : Nat := 0
  renews   : List Nat := []
  deriving DecidableEq, Repr, Inhabited

/-- A range entry of a block (Table 4 of Hoods, R166). -/
structure Range where
  hbase    : Nat := 0
  len      : Nat := 0
  borrowed : Bool := false          -- KIND
  ro       : Bool := false
  shared   : Bool := false
  state    : Nat := 0               -- 0 BOUND, 1 ADDING, 2 MOVING, 3 RELEASING, 4 LOST
  lender   : Nat := 0
  carrier  : Nat := 0
  leaseMs  : Nat := 0
  cbase    : Nat := 0               -- stripe base, or the lender's handle
  leaseId  : Nat := 0
  srcHood  : Nat := 0
  moved    : Nat := 0
  target   : Option Target := none
  asked    : Nat := 0               -- counter s of the latest answered ASK or RENEW (R186)
  sent     : Nat := 0               -- counter when the ASK was sent (R186)
  renews   : List Nat := []         -- counters at the RENEWs sent and not answered, oldest first (R186)
  deriving DecidableEq, Repr, Inhabited

/-- A block (R163 to R167), less EPOCH and GEN. -/
structure Block where
  gran     : Nat := 0
  conf     : Bool := false
  keydom   : Nat := 0
  tmap     : List Nat := []         -- NTILE is its length
  links    : BitVec 40 := 0
  channels : BitVec 256 := 0
  ranges   : List Range := []
  deriving DecidableEq, Repr, Inhabited

/-- Block change states (Table 7 of Hoods). -/
inductive Phase where
  | stable | staged | draining | copying
  deriving DecidableEq, Repr, Inhabited

/-- A block change in progress (R169 to R183). -/
structure Change where
  phase    : Phase := .stable
  cmd      : Nat := 0               -- command code of Table 1
  new      : Option Block := none   -- staged block
  old      : Option Block := none   -- block of the draining epoch (R170)
  leaving  : List Nat := []         -- sites held until the drain ends (R171)
  range    : Option Range := none   -- the range the command concerns
  second   : Bool := false          -- a move past its E + 2 commit
  aborted  : Bool := false          -- a move that ends on its source (R183)
  lenders  : List Nat := []         -- lenders asked and not answered (R185)
  grants   : List (Nat × Nat) := [] -- leases granted and not bound: lender, lease ID
  saves    : List Nat := []         -- works whose save the change waits for (R175)
  deriving DecidableEq, Repr, Inhabited

/-- A translation fault (R115 to R118, Table 7 of Birier Memory). -/
structure XFault where
  seq      : Nat := 0
  va       : Nat := 0
  ctx      : Nat := 0
  gen      : Nat := 0
  typ      : Nat := 0               -- 0 NOT_PRESENT .. 6 WALK_POISON
  access   : Nat := 0               -- 0 read, 1 write, 2 atomic, 3 table read
  switch   : Bool := false          -- MODE
  straddle : Bool := false
  epoch    : Nat := 0
  remain   : Nat := 0
  cls      : Nat := 0               -- engine class
  eng      : Nat := 0               -- site index or engine number
  level    : Nat := 0
  time     : Nat := 0
  entry    : BitVec 64 := 0
  work     : Option Nat := none     -- the work that waits
  tile     : Nat := 0               -- the tile of its span that waits
  ring     : Option Nat := none     -- the ring that stopped (R121)
  written  : Bool := false          -- its record is in the fault queue
  wtime    : Nat := 0               -- counter when the record was written (R118)
  mig      : Option (Nat × Nat × Nat) := none -- an accepted MIGRATE: source, target, entry (R122)
  atom     : Option (Nat × AtomArgs) := none  -- the atomic access that waits: its operation and operands (R110, R113)
  due      : Option Nat := none     -- a switch-out that waits for room in the fault queue: the work of the step (R116)
  deriving DecidableEq, Repr, Inhabited

/-- Whose access it is: what it is charged to (R312), the queue it comes from (R140), the work that waits for its acknowledgement (R141)
and the block epoch under which it was routed (R170). -/
structure Who where
  hood  : Nat := 16
  cls   : Nat := 4                  -- hatband class (Table 3 of Scheduling); 4 = charged to none
  queue : Option Nat := none        -- ring
  work  : Option Nat := none
  epoch : Nat := 0
  deriving DecidableEq, Repr, Inhabited

/-- Requests a home serves (R147, R150), with whose they are. -/
inductive CReq where
  | rdS (w : Who) (req : Nat) | rdX (w : Who) (req : Nat) | upg (w : Who) (req : Nat) | rdU (w : Who) (req : Nat)
  | wrU (w : Who) (req off : Nat) (data : List Byte)
  | wbM (req : Nat) | evC (req : Nat)
  | atom (w : Who) (op addr : Nat) (near : Bool) (a : AtomArgs) -- at hood address `addr`
  | evict                            -- the home frees the entry (R151)
  deriving DecidableEq, Repr, Inhabited

/-- An invalidation request outstanding (R125 to R129). -/
structure Inval where
  ctx : Nat := 0
  va  : Nat := 0
  len : Nat := 0
  fva : Nat := 0                    -- fence VA, in the named context
  val : Nat := 0
  after : List Nat := []            -- SEQs of the MIGRATEs it waits for (Table 10 step 2)
  far   : List (Nat × Nat × Nat) := [] -- MREQ of the hood in flight at step 3: die, package, tag (R127)
  reqs  : List (Nat × CReq) := []   -- requests of the hood in flight at step 3: line, request
  deriving DecidableEq, Repr, Inhabited

/-- A teardown in progress (R286 to R291). -/
structure Teardown where
  isCtx : Bool := false
  num   : Nat := 0                  -- ring or context
  dctx  : Nat := 0
  dva   : Nat := 0
  dval  : Nat := 0
  deriving DecidableEq, Repr, Inhabited

/-- One hood (R159 to R194, R294 to R319, R373 to R392). -/
structure Hood where
  vf       : Nat := 0               -- 0 DISABLED, 1 ENABLED, 2 DISABLING, 3 DISABLING_QUEUED (R382, R383)
  created  : Bool := false
  block    : Block := {}
  change   : Change := {}
  sealed   : Bool := false          -- R162
  failed   : Bool := false          -- R374
  gen      : Nat := 0               -- GEN, 16 bits (R375)
  held     : Bool := false          -- HELD or SAVING under R308
  frozen   : Bool := false          -- R388
  meas     : Bool := false          -- measurement answers Busy (R366)
  tdi      : Nat := 0               -- device interface: 0 CONFIG_UNLOCKED, 1 CONFIG_LOCKED, 2 RUN, 3 ERROR (R226, R227)
  teardown : List Teardown := []
  faults   : List XFault := []      -- outstanding faults, oldest first
  seq      : Nat := 0               -- next fault SEQ
  invals   : List Inval := []       -- outstanding invalidations, oldest first
  ucode    : List Nat := [0, 0, 0]  -- running SVN of classes 1 to 3 (R387)
  ucPend   : List (Option Nat) := [none, none, none] -- standby slots holding a new image
  ucNext   : List Nat := []         -- classes of an update that waits
  ucOld    : Option (List Nat × List (Option Nat)) := none -- what measurements show of an update until the hood resumes (Table 10 of The Hatter)
  weights  : Table (Nat × Nat) := [] -- plank → weight as a fraction; unlisted = 1 (R331)
  slots    : List Nat := []         -- save slots in use, by slot number; their count is SAVED (R305)
  effNext  : Option (List Nat) := none -- hood and class budgets and scale to take effect at the next window (R316)
  usageNs  : Nat := 0               -- tile-nanoseconds charged to the hood; HOOD_USAGE reads them in µs (R294)
  migAlias : Option Nat := none     -- HOOD_MIG_ALIAS of a restored hood (R390)
  image    : Option MigImage := none -- image written by FREEZE (R389)
  restore  : Option MigImage := none -- image that a RESTORE has still to read (R225, R390)
  peerOk   : Bool := false          -- outcome of the session check of a FREEZE that waits (R388)
  deriving DecidableEq, Repr, Inhabited

/-- One context (R237 to R240, R269, R294, R295). -/
structure Ctx where
  state  : Nat := 0                 -- 0 absent, 1 ACTIVE, 2 STOPPED, 3 DESTROYING
  hood   : Nat := 0
  gen    : Nat := 0                 -- CTX_GEN, 16 bits
  ptroot : Nat := 0
  pasid  : Nat := 0
  pasidv : Bool := false
  share  : Nat := 1
  evbase : Nat := 0
  evlog2 : Nat := 8
  defto  : Nat := 1
  vt     : Nat := 0                 -- 64-bit saturating virtual time
  usage  : Nat := 0                 -- tile-ns charged
  evpi   : Nat := 0                 -- EVPI
  evdrop : Nat := 0                 -- DROP
  evheld : List (List Byte) := []   -- entries held while Bus Master Enable is clear (R225)
  busy   : Bool := false            -- had work ready or holding tiles when last examined (R295)
  last   : Nat := 0                 -- ring served last (R297 round robin)
  deriving DecidableEq, Repr, Inhabited

/-- One ring (R241 to R248, R272, R275, R286, R287). -/
structure Ring where
  live   : Bool := false
  hood   : Nat := 0
  ctx    : Nat := 0
  dbase  : Nat := 0
  dbrec  : Nat := 0
  log2n  : Nat := 6
  pfd    : Nat := 16
  ci     : Nat := 0
  pi     : Nat := 0                 -- PI last read
  wgen   : Nat := 0
  state  : Nat := 3                 -- 0 AWAKE, 1 ASLEEP, 2 STOPPED, 3 DESTROYED
  rgen   : Nat := 0                 -- ring generation
  queue  : List Nat := []           -- works fetched and not started, in ring order
  started : List Nat := []          -- works started and not complete
  psn    : Bool := false            -- poison mark (R272)
  xstop  : Bool := false            -- stopped on a translation fault (R121)
  piTime : Nat := 0                 -- counter when PI last advanced
  awake  : Nat := 0                 -- counter when it last became AWAKE
  idle   : Nat := 0                 -- counter when CI last came to equal PI (R243)
  dbDue  : Bool := false            -- a write of its doorbell record waits (R225, R121)
  lenders : List Nat := []          -- packages whose lent ranges its work has accessed since its last signal (R190)
  deriving DecidableEq, Repr, Inhabited

/-- Phases of a descriptor, chain element or pattern node. -/
inductive WPhase where
  | queued      -- fetched, not started
  | started     -- started: its engines may run it
  | waiting     -- a started wait, or work that waits on host requests, a barrier or a piece
  | stalled     -- stopped at a translation fault or an ATS answer
  | finished    -- every part is done; its completion has not been handled
  | saving      -- preempted; its save has not completed (R304)
  | saved       -- in the save area (R306)
  deriving DecidableEq, Repr, Inhabited

/-- A descriptor, chain element or pattern node (R247 to R262, R296 to R311). -/
structure Work where
  ring    : Nat := 0
  ctx     : Nat := 0
  hood    : Nat := 0
  hgen    : Nat := 0                -- hood generation (R376)
  rgen    : Nat := 0                -- ring generation (R287)
  epoch   : Nat := 0                -- epoch current at dispatch
  desc    : List Byte := []         -- 64 bytes as dispatched
  args    : List Byte := []         -- argument record, or parameter block
  parent  : Option Nat := none      -- chain or launch it belongs to
  idx     : Nat := 0                -- element or node number
  phase   : WPhase := .queued
  lo      : Nat := 0                -- claim or span: first logical tile
  cnt     : Nat := 0                -- claim or span: logical tiles
  holds   : Bool := false           -- holds its claim
  status  : Nat := 0                -- STATUS of Table 8
  clamped : Bool := false
  psnw    : Bool := false
  aflags  : BitVec 6 := 0
  vstat   : BitVec 5 := 0
  stkcnt  : Nat := 0
  empty   : BitVec 32 := 0
  tstart  : Nat := 0
  since   : Nat := 0                -- counter up to which its claim or engine has been charged (R294)
  claimed : Nat := 0                -- counter when the claim was taken or last resumed (R300)
  waited  : Option Nat := none      -- counter since when it has waited on busy tiles (R297)
  lo0     : Nat := 0                -- first logical tile of its claim as first taken (R306)
  seqNo   : Nat := 0                -- start order
  prog    : Table Nat := []         -- bytes already moved, by tile of its span (tile 0 for a copy)
  doneT   : List Nat := []          -- tiles of its span that have run to their end
  outT    : Table Nat := []         -- tiles switched out at a fault, with their save slot (R120)
  backT   : List Nat := []          -- of these, the tiles whose fault has been answered (R305)
  elems   : List (List Byte × List Byte) := [] -- CHAIN: elements with their argument records
  doneN   : List Nat := []          -- completed elements or nodes
  runN    : List Nat := []          -- started elements or nodes
  psn     : Bool := false           -- poison mark of a chain or launch (R272)
  psnN    : List Nat := []          -- nodes of a launch that completed with PSNW (R272)
  slots   : Table Nat := []         -- save slots, by tile of the claim (R304)
  ran     : Bool := false           -- its effect has happened; only its completion is left
  pid     : Nat := 0                -- pattern of a launch
  vals    : Table (BitVec 64) := [] -- clamped slot values of a launch
  engine  : Option Nat := none      -- copy engine
  lenders : List Nat := []          -- packages whose lent ranges it has accessed (R190)
  moveT   : Table Nat := []         -- tiles that a RESHAPE moves and whose save is not complete, with their slot (R175)
  pin     : Bool := false           -- saved for a RESHAPE or plank reset: it resumes on the same logical tiles (R176, R28)
  taken   : Bool := false           -- the die sequencers have accepted its dispatch (R173)
  recs    : Table (List Byte) := [] -- region and ring records that the kernel has read, by virtual address
  late    : Bool := false           -- a host read of it has timed out: what it reads next from the host is poisoned (R228)
  deriving DecidableEq, Repr, Inhabited

/-- A fence's place: (0, global byte address) for local memory, (`farTag` of lender and lease, address at the lender) for a borrowed range. -/
abbrev FLoc := Nat × Nat

/-- The place of a wait on no fence. -/
def noLoc : FLoc := (0, 2 ^ 63)

def farTag (pkg lease : Nat) : Nat := 1 + pkg + 4096 * lease
def tagPkg (t : Nat) : Nat := (t - 1) % 4096
def tagLease (t : Nat) : Nat := (t - 1) / 4096

/-- A wait (R273). -/
structure Wait where
  work   : Nat := 0
  ctx    : Nat := 0
  ring   : Nat := 0
  hood   : Nat := 0
  loc    : FLoc := (0, 0)
  va     : Nat := 0
  thr    : Nat := 0
  start  : Nat := 0
  timeout : Nat := 0                -- µs
  kind   : Nat := 0                 -- 0 fence, 1 rotation piece, 2 barrier, 3 host requests held (Table 2 of Fences)
  scans  : Nat := 0                 -- consecutive scans at which it was in a cycle (R283)
  deriving DecidableEq, Repr, Inhabited

/-- A signal event on its way to the fence unit (R139, R271). -/
structure Sig where
  loc   : FLoc := (0, 0)
  va    : Nat := 0
  ctx   : Nat := 0
  ring  : Nat := 0
  hood  : Nat := 0
  hgen  : Nat := 0
  value : Nat := 0
  psn   : Bool := false             -- attach POISONED_DATA in place of the value (R272)
  ro    : Bool := false             -- the fence lies in a read-only range (R191)
  work  : Option Nat := none        -- the FENCE_SIGNAL it completes
  deriving DecidableEq, Repr, Inhabited

/-- A slot entry of a pattern (Table 13 of Contexts). -/
structure SlotEnt where
  slot : Nat := 0
  node : Nat := 0
  inArgs : Bool := false
  typ  : Nat := 0
  off  : Nat := 0
  lsb  : Nat := 0
  width : Nat := 1
  min  : BitVec 64 := 0
  max  : BitVec 64 := 0
  deriving DecidableEq, Repr, Inhabited

/-- A pattern in the store (R257 to R262). -/
structure Pattern where
  live   : Bool := false
  hood   : Nat := 0
  bytes  : Nat := 0                 -- store space
  image  : List Byte := []          -- the image as registered
  nodes  : List (List Byte) := []
  edges  : List (Nat × Nat) := []
  args   : List Byte := []
  slots  : List SlotEnt := []
  res    : Table (BitVec 64) := []  -- resident parameter block, 8-byte words
  lo     : Nat := 0                 -- claim interval of its KERNEL nodes (R296)
  cnt    : Nat := 0
  dying  : Bool := false            -- UNREGISTER accepted
  dieSeq : Nat := 0                 -- start order at that time: launches below it started before (R262)
  deriving DecidableEq, Repr, Inhabited

/-- The front end (R243, R244, R248, R260, R298). -/
structure Front where
  wakeQ   : List Nat := []          -- wake queue (R244)
  sigs    : List Sig := []          -- signal events in flight, in arrival order (R139)
  nextW   : Nat := 1                -- next work number
  nextS   : Nat := 0                -- next start number
  engines : Table Nat := []         -- copy engine → work + 1
  heldBlk : List (Nat × Nat × Nat × Nat) := [] -- block commands whose record read waits on Bus Master Enable: code, hood, entry, HOOD_BLK_ADDR (R225)
  patWait : List Nat := []          -- hoods whose REGISTER waits for the host (R225, R113)
  enQ     : Bool := false           -- a queued VF enable (R383)
  enNum   : Nat := 0                -- its NumVFs
  numVfs  : Nat := 0
  bases   : Table Nat := []         -- bases written and not yet applied with their count, key 2 × hood + (0 context, 1 ring) (R237)
  vfEn    : Bool := false
  vfBar2  : Nat := 30               -- log2 of the VF BAR2 size (R221)
  bandNum : Nat := 1                -- factor of the latest guarantee check (R316), as a fraction
  bandDen : Nat := 1
  deriving DecidableEq, Repr, Inhabited

/-- A barrier unit of the synchronisation hub (R138). -/
structure Barrier where
  owner   : Nat := 0                -- hood + 1; 0 = unassigned
  arrived : List Nat := []          -- logical tiles that have arrived
  times   : List (Nat × Nat) := []  -- arrival times (logical tile, counter) (R331)
  fulling : Nat := 0                -- 0 none, 1 full intensity, 2 being lowered (R334)
  deriving DecidableEq, Repr, Inhabited

/-- The hatband counters of a hood within its window, in bytes (R315). -/
structure Band where
  hb  : Nat := 0                    -- hood hatband
  cls : Table Nat := []             -- class hatbands
  deriving DecidableEq, Repr, Inhabited

/-- A tile (R30, R36, R45, R52, R54 to R56). -/
structure Tile where
  spad   : Table Byte := []         -- scratchpad; invalid bytes read as zero (R55, R357)
  valid  : Table Bool := []         -- validity tag per 512-byte line (R358)
  poison : Table Bool := []         -- poison per 512-byte line (R55)
  acc    : Table (BitVec 128) := [] -- elements, key 2,048 × bank + 64 × i + j (R36, R56)
  tags   : Table (BitVec 32) := []  -- reduction tag per bank (R45)
  modes  : Table Bool := []         -- anchor mode per bank: true = local (R45)
  vregs  : Table (BitVec 32) := []  -- vector registers, key 64 × register + lane (R30)
  vstat  : BitVec 5 := 0            -- vector status word (R52)
  attn   : List (List RowSt) := []  -- row states of the attention sequence, one list per partial (R75, R78)
  part   : List (Byte × Bool) := []            -- the bytes so far of a batt that comes in several pieces (R86)
  deriving DecidableEq, Repr, Inhabited

/-- A tile site (R16, R21, R25, R142). -/
structure Site where
  owner : Option Nat := none        -- owner table entry (R21)
  isol  : Bool := false             -- isolated (R25, R26)
  retired : Bool := false           -- retired by the repair map (R142, R143)
  lastCtx : Option Nat := none      -- context of the descriptor that last held it (R299)
  deriving DecidableEq, Repr, Inhabited

/-- A plank (R17, R321 to R339). -/
structure Plank where
  n       : Nat := 0                -- operating point: 0.8 + 0.05 n GHz (R321)
  target  : Nat := 0                -- point toward which steps go
  gated   : Bool := true
  locked  : Bool := false           -- R327
  droop   : Bool := false           -- droop stretch (R335)
  holdoff : Bool := false           -- 5 µs after a droop event (R336)
  stepping : Bool := false          -- a step of R322 in progress
  susp    : Bool := false           -- a change suspended by a droop (R336)
  throt   : Bool := false           -- throttled (R339)
  hot     : Bool := false           -- held at 0.8 GHz after 105 °C (R339)
  lowered : Nat := 0                -- points lowered for droop (R336)
  ramp    : Nat := 0                -- issue ramp: 0 full rate, 1 25 %, 2 50 %, 3 75 % (R334)
  isol    : Bool := false           -- isolated (R25)
  spare   : Bool := false           -- its spare is assigned (R142)
  spareBad : Bool := false          -- its spare is marked unusable (R384)
  saveWait : Bool := false          -- a plank reset waits for saves (R28)
  badSites : List Nat := []         -- sites that will fail the self-test of that reset (R384)
  deriving DecidableEq, Repr, Inhabited

/-- An extent entry of a channel controller (R165, R184, R354). -/
structure Extent where
  base  : Nat := 0
  len   : Nat := 0
  owner : Nat := 0                  -- hood, or lease ID of a lent extent
  lent  : Bool := false
  ro    : Bool := false             -- lent read-only (R155)
  key   : Nat := 0                  -- key index (R354)
  deriving DecidableEq, Repr, Inhabited

/-- A channel (R95 to R106, R165). -/
structure Chan where
  isol    : Bool := false
  retired : Bool := false           -- retired by the repair map (R386)
  extents : List Extent := []
  dead    : List (Nat × Nat) := []  -- parts out of service until cold start (R104)
  ueTimes : List Nat := []          -- times of uncorrectable lines within 1 s (R101)
  counts  : Table Nat := []         -- access counters per 64 KiB (R105)
  listed  : Table Bool := []        -- entry appended and counter not yet below the threshold (R105)
  deriving DecidableEq, Repr, Inhabited

/-- An extent under erase (R103, R104). -/
structure Erase where
  chan  : Nat := 0
  base  : Nat := 0
  len   : Nat := 0
  deriving DecidableEq, Repr, Inhabited

/-- A Birier stack and its base die (R95, R96, R103). -/
structure Stack where
  isol   : Bool := false
  fast   : Bool := false            -- refresh doubled (R96)
  erases : List Erase := []
  deriving DecidableEq, Repr, Inhabited

/-- States of a cached line (Table 5 of On-Die Networks). -/
inductive CState where
  | I | S | E | M
  deriving DecidableEq, Repr, Inhabited

/-- A line of a die cache or of the spine cache (R144, R358). -/
structure CLine where
  st   : CState := .I
  data : List Byte := []
  psn  : Bool := false              -- filled from a poisoned line (R99)
  key  : Nat := 0                   -- tag: key index
  gen  : Nat := 0                   -- tag: key generation
  deriving DecidableEq, Repr, Inhabited

/-- A directory entry (R146). -/
structure Dir where
  sharers : List Nat := []          -- holders of S
  owner   : Option Nat := none      -- holder of E or M
  deriving DecidableEq, Repr, Inhabited

/-- Coherence messages in flight (R147). `peer` is the cache or engine that the message concerns. -/
inductive CMsg where
  | fwdS (line holder req : Nat) | fwdX (line holder req : Nat) | fwdRd (line holder req : Nat)
  | inv (line holder : Nat) | recall (line holder : Nat)
  | invAck (line holder : Nat) | done (line src : Nat) | grant (line req : Nat)
  | atomResult (line req : Nat) (old : BitVec 128) (psn : Bool) | wrAck (line req : Nat)
  | data (line req : Nat) (d : List Byte) (excl psn : Bool)     -- excl: E is granted
  | dataX (line req : Nat) (d : List Byte) (psn : Bool)
  | wbData (line src : Nat) (d : List Byte) (psn : Bool)
  deriving DecidableEq, Repr, Inhabited

/-- A line in state B: its transaction and the requests that wait in arrival order (R146, R148). -/
structure Txn where
  req   : CReq := .evict
  acks  : List Nat := []            -- holders whose InvAck, Done or WbData is awaited
  queue : List CReq := []
  sup   : Bool := false             -- the requester has been answered
  got   : Bool := false             -- the requester has received the answer
  deriving DecidableEq, Repr, Inhabited

/-- The coherent fabric of the package (R144 to R158). -/
structure Coh where
  caches : Table CLine := []        -- key: cache × 2^120 + line; caches 0 to 7 compute dies, 8 spine
  dir    : Table Dir := []          -- line → entry
  lru    : List Nat := []           -- lines with an entry, most recently used first (R151)
  txns   : Table Txn := []          -- lines in B
  msgs   : List CMsg := []          -- messages in flight
  waiting : List (Nat × CReq) := [] -- requests that wait for a directory entry or a transaction (R148, R151)
  got    : List (Nat × Nat × List Byte × Bool) := [] -- uncached data, atomic results and acknowledgements received: requester, line, data, poison mark
  hot    : List (Nat × Nat) := []   -- hot-list entries on their way to memory: hood, entry (R105)
  atoms  : List (Nat × AtomArgs) := [] -- atomic accesses held behind an access of the draining epoch (R172): operation, operands
  deriving DecidableEq, Repr, Inhabited

/-- A cached host translation (R113). -/
structure Ats where
  hood : Nat := 0
  pasid : Nat := 0
  ctx  : Nat := 0                   -- tags (R112)
  gen  : Nat := 0
  page : Nat := 0                   -- first 4 KiB page number in the PASID
  pages : Nat := 1                  -- 4 KiB pages that the answer covers (R224)
  host : Nat := 0                   -- first 4 KiB page number at the host
  r : Bool := false
  w : Bool := false
  deriving DecidableEq, Repr, Inhabited

/-- A translation cache entry (R112). -/
structure Tlb where
  loc  : Nat := 0                   -- 0 to 127 plank memory ports, 128 spine, 129 and 130 link dies
  ctx  : Nat := 0
  hood : Nat := 0
  gen  : Nat := 0
  page : Nat := 0                   -- first VA of the page
  size : Nat := 0
  ent  : BitVec 64 := 0             -- leaf entry
  deriving DecidableEq, Repr, Inhabited

/-- An L3, L2 or L1 table entry in the walk cache of a compute die (R112). -/
structure WalkEnt where
  die   : Nat := 0
  ctx   : Nat := 0
  hood  : Nat := 0
  gen   : Nat := 0
  level : Nat := 3
  page  : Nat := 0                  -- first VA under the entry
  ent   : BitVec 64 := 0
  deriving DecidableEq, Repr, Inhabited

/-- An access that waits on a page of the host (R113, R114): whose it is, for the answer to it alone. -/
structure PageWait where
  hood  : Nat := 0
  pasid : Nat := 0
  page  : Nat := 0
  work  : Option Nat := none        -- the work, with the tile of its span
  ring  : Option Nat := none        -- the ring
  tile  : Option Nat := none
  deriving DecidableEq, Repr, Inhabited

/-- The translation units (R112 to R114). -/
structure Xlt where
  tlbs   : List Tlb := []           -- newest first
  walks  : List WalkEnt := []       -- newest first
  ats    : List Ats := []
  atsReq : List (Nat × Nat × Nat) := []   -- ATS Translation Requests outstanding: hood, PASID, page
  priWait : List (Nat × Nat × Nat) := []  -- denied pages waiting for an allocation slot (R114)
  pri    : List (Nat × Nat × Nat) := []   -- PRI Page Requests outstanding, at most 1,024 (R114)
  waiters : List PageWait := []            -- accesses that wait on a page
  denied : List PageWait := []             -- of these, those whose PRI response was a failure: they raise HOST_DENIED (R114)
  deriving DecidableEq, Repr, Inhabited

/-- A flit as it is sent, with the fields of its header (Table 2 of Stader Links); the messages are those that end in it. -/
structure TxFlit where
  typ  : Nat := 1
  fseq : Nat := 0
  ack  : Nat := 0
  nak  : Bool := false
  tc   : Nat := 0
  vc   : Nat := 0
  crtc : Nat := 0
  crvc : Nat := 0
  crcnt : Nat := 0
  dst  : Nat := 0
  src  : Nat := 0
  msgs : List StlMsg := []
  more : Bool := false              -- a message goes on in the next flit of the class and virtual channel (R204)
  part : List StlMsg := []          -- own messages whose bytes it carries, and the place of its payload in them
  off  : Nat := 0
  transit : List Byte := []         -- payload of a flit that is passing through
  deriving DecidableEq, Repr, Inhabited

/-- What waits for a link (R201, R202, R204, R211): a message of this package, or a flit, of a neighbour or of a link that was lost. -/
inductive TxItem where
  | msg (die dst : Nat) (m : StlMsg)
  | flit (from' : Option Nat) (die : Nat) (f : TxFlit) -- `from'`: the link a transit flit came on
  deriving DecidableEq, Repr, Inhabited

/-- An MREQ message that has been sent and not acknowledged (R203, R209). -/
structure Mreq where
  die  : Nat := 0
  dst  : Nat := 0
  tag  : Nat := 0
  who  : Who := {}
  gen  : Nat := 0                   -- hood generation (Table 7 of Stader Links)
  ha   : Nat := 0                   -- hood address of its line (R172)
  body : StlBody := .deny
  deriving DecidableEq, Repr, Inhabited

/-- A Stader link (R195 to R213). -/
structure Link where
  st     : Nat := 0                 -- 0 DISABLED, 1 TRAINING, 2 UP, 3 LOST
  narrow : Bool := false
  isol   : Bool := false
  txSeq  : Nat := 0                 -- FSEQ of the next DATA flit
  rxSeq  : Nat := 0                 -- FSEQ expected next
  drop   : Bool := false            -- discarding until a replay begins (R199)
  nak    : Bool := false            -- NAK to be sent with the next flit
  retry  : List TxFlit := []        -- retry buffer, oldest first (R199)
  rep    : Nat := 0                 -- replays of the oldest flit in a row (R211)
  cred   : Table Nat := []          -- credits spent, key 2 × TC + VC (R201)
  owe    : Table Nat := []          -- credits to return, key 2 × TC + VC
  delay  : Nat := 10                -- next retraining interval, ms (R213)
  quiet  : Bool := false            -- DISABLE was written: no retraining attempts
  last   : Nat := 0                 -- counter at the latest good flit (R198, R211)
  cwBit  : Nat := 0                 -- bits of the current codeword received (R196)
  cwErr  : Nat := 0                 -- its symbol errors
  rrTc   : Nat := 5                 -- class that the weighted round robin serves, and what is left of its weight (R202)
  rrLeft : Nat := 0
  deriving DecidableEq, Repr, Inhabited

/-- A security association of a link die (R214). -/
structure Assoc where
  live  : Bool := false
  peer  : Nat := 0
  key   : Nat := 0                  -- number of the key in force
  salt  : BitVec 32 := 0
  sent  : Nat := 0                  -- message counter under that key
  born  : Nat := 0                  -- counter when the key was loaded
  hoods : List Nat := []            -- hoods that use it
  peers : List Nat := []            -- the peer's hoods whose messages have come under it (R215)
  deriving DecidableEq, Repr, Inhabited

/-- A watched package (R212). -/
structure Watch where
  live : Bool := false
  last : Nat := 0                   -- counter at the latest message
  lost : Bool := false
  deriving DecidableEq, Repr, Inhabited

/-- The two link dies (R205 to R216). -/
structure Stl where
  idFixed : Bool := false           -- ENABLE has been written since PERST# (R205)
  routes  : Table (BitVec 64) := [] -- routing tables, key 4,096 × die + destination (R206)
  removed : List Nat := []          -- links removed from every routing entry
  assocs  : Table Assoc := []       -- key 64 × die + index
  watch   : Table Watch := []
  tags    : Table (List Nat) := []  -- TAGs accepted, newest first, key 8,192 × receiving die + 4,096 × sending die + source package (R208)
  txTag   : Table Nat := []         -- next TAG, key 4,096 × die + destination
  held    : List (Nat × Nat × StlMsg) := [] -- MREQ held under R209: die, destination, message
  holds   : List (Nat × Nat) := []  -- (die, destination) whose MREQ are held
  mreqs   : List Mreq := []         -- MREQ sent and not acknowledged
  queue   : List TxItem := []       -- what waits for a link, credit or space, in order
  cut     : Table Nat := []         -- link taken by a message that is passing through, key 16 × link it came on + 2 × TC + VC
  deriving DecidableEq, Repr, Inhabited

/-- A lease granted by this package as lender (R184 to R187). -/
structure Lease where
  id    : Nat := 0
  pkg   : Nat := 0
  handle : Nat := 0                 -- what the borrower's addresses start at
  cbase : Nat := 0
  plen  : Nat := 0
  len   : Nat := 0
  ro    : Bool := false
  dMs   : Nat := 0
  g     : Nat := 0                  -- counter at the latest GRANT or RENEW processed (R186)
  deriving DecidableEq, Repr, Inhabited

/-- The lender side (R184). -/
structure Lender where
  leases : List Lease := []
  next   : Nat := 1                 -- next LEASE_ID
  members : List Nat := []          -- channels of the pool when it was last set
  deriving DecidableEq, Repr, Inhabited

/-- A part of a rotation piece as a message brings it (R86). -/
structure PiecePart where
  code : Nat := 0                   -- the piece
  off  : Nat := 0                   -- place of its first byte
  data : List Byte := []
  psn  : List Nat := []             -- its poisoned lines
  deriving DecidableEq, Repr, Inhabited

/-- The partial state of a query row at a ring position (R82). -/
structure CollPart where
  pos   : Nat := 0
  layer : Nat := 0
  head  : Nat := 0
  off   : Nat := 0                  -- its place among the rows, in bytes
  data  : List Byte := []           -- m, l and o
  bad   : Bool := false             -- poisoned
  deriving DecidableEq, Repr, Inhabited

/-- A KV rotation engine (R85 to R89). -/
structure Rot where
  hood  : Nat := 0                  -- hood + 1; 0 = free
  ctx   : Nat := 0
  recVa : Nat := 0                  -- VA of the ring record
  n     : Nat := 1
  pos   : Nat := 0
  next  : Nat := 0
  prev  : Nat := 0
  links : BitVec 40 := 0
  slot0 : Nat := 0
  slot1 : Nat := 0
  slotb : Nat := 0
  region : Nat := 0
  cred  : Nat := 2                  -- credits from NEXT held
  rounds : List (Nat × Nat) := []   -- layer and pieces per origin of each round of attention begun on the ring, oldest first
  heads : List Nat := []            -- KV heads that have joined the latest round
  sent  : Nat := 0                  -- pieces sent to NEXT since set-up
  todo  : List Nat := []            -- pieces that are wholly present and have still to go to NEXT, in the order in which they came to be so
  full  : List (Nat × Nat × Nat) := [] -- slots that hold a landed piece: slot, piece, bytes
  cons  : Table (List Nat) := []    -- KV heads that have consumed a landed piece, by the piece
  stage : List PiecePart := []      -- parts of pieces received in messages
  part  : Option (Nat × Nat × List Byte × List Nat) := none -- a piece whose landing waits on a fault: slot, piece, data, poisoned lines
  colls : List CollPart := []       -- partial states of ring members, oldest first (R82)
  stopped : Bool := false
  deriving DecidableEq, Repr, Inhabited

/-- The power manager (R324 to R338). -/
structure Power where
  staged  : List Nat := []          -- hoods whose planks wait for a barrier release or 10 ms (R337)
  capWait : Bool := false           -- an effective-cap change has not yet taken effect
  oldCap  : Nat := 1500             -- effective cap before the change
  newCap  : Nat := 1500
  newSrc  : Nat := 0
  emerg   : Nat := 0                -- 0 none, 1 stretch, 2 to 3 release stages (R338)
  est     : Table (Nat × Nat) := [] -- latest estimate of a plank's power in W, and its point then (R325)
  capTime : Nat := 0                -- counter when the latest cap change took effect at the package (R337)
  board   : Nat := 6000             -- board limit read at cold start
  grpSeq  : Nat := 0                -- sequence number of the latest SHIFT
  offs    : Table Int := []         -- leader: offset of each member (R332)
  late    : Table Nat := []         -- leader: lateness of the latest ARRIVE of each member
  off     : Int := 0                -- offset in force
  rise    : Option Int := none      -- offset that rises 11 ms after the SHIFT (R332)
  riseAt  : Nat := 0                -- counter at that SHIFT
  fall    : Option Int := none      -- offset that falls at the next boundary
  left    : Bool := false           -- the group has been left and re-forms only by a write of EN (R333)
  bound   : Nat := 0                -- counter at the latest boundary of a hood with ring peers (R332)
  latest  : Nat := 0                -- latest boundary time of the group as the latest SHIFT reported it
  lastShift : Nat := 0              -- counter at the latest SHIFT received or sent
  confirm : Bool := true            -- the leader still sends confirmations
  telem   : Table Nat := []         -- latest PMBus telemetry per rail (R409)
  deriving DecidableEq, Repr, Inhabited

/-- Sensor readings (R339), in 1/8 °C. -/
structure Thermal where
  temps  : Table Int := []          -- sensors 0 to 154
  layers : Table Int := []          -- Birier layer sensors: 12 × stack + layer (R96)
  deriving DecidableEq, Repr, Inhabited

/-- What leaves the package toward the host. -/
inductive HostOut where
  | msix (fn : Nat)
  | read (fn off : Nat) (v : BitVec 64)            -- completion of a register read
  | window (fn : Nat) (data : List Byte) (ep : Bool) -- completion of a BAR2 read
  | poisonedWrite (h addr : Nat)                    -- a write TLP with EP set (R100)
  | unsupported (fn : Nat)                          -- Unsupported Request
  | aer (fn code : Nat)                             -- AER message: row of Table 3 of PCI Express
  | atsReq (h pasid page : Nat)
  | priReq (h pasid page : Nat)
  | atsInvDone (h pasid page pages : Nat)
  | spdm (code arg : Nat) (sig : Bool)              -- SPDM answer (code 0x7F: ERROR, arg: error code)
  | meas (idx : Nat) (value : List Byte)            -- one measurement (R364)
  | cert (slot off len : Nat)
  | tdisp (code h : Nat) (data : List Nat)
  | image (addr : Nat) (img : MigImage)             -- the encrypted chunks of R389, written at a host address
  deriving DecidableEq, Repr, Inhabited

/-- What leaves the package on the sideband lands and board buses. -/
inductive BoardOut where
  | mctp (code arg : Nat)
  | pldm (code completion value : Nat)
  | railOn (i : Nat) | railOff (i : Nat) | railVolt (i : Nat)
  | telemetry (i : Nat)
  deriving DecidableEq, Repr, Inhabited

/-- The ports' output queues: what the device has sent and the environment has not yet taken. -/
structure Outs where
  host  : List HostOut := []
  board : List BoardOut := []
  stl   : List (Nat × TxFlit) := []       -- flits sent, with their link
  deriving DecidableEq, Repr, Inhabited

/-- The whole block. -/
structure State where
  pending : List Instr                    -- commands that wait, first in first out
  free    : Nat                           -- the model's own: free values drawn so far (log entry 4)
  nap     : Nap
  hat     : Hatter
  regs    : Table (BitVec 64)             -- registers (Machine/Regs.lean)
  halves  : Table Half                    -- half accesses, key 2^26 × function + offset (R11)
  fns     : Table Fn
  hoods   : Table Hood
  ctxs    : Table Ctx
  rings   : Table Ring
  works   : Table Work
  waits   : List Wait                     -- wait-for table and the waits beyond it (R283)
  pats    : Table Pattern
  front   : Front
  bars    : Table Barrier                 -- key 64 × hood + unit
  tiles   : Table Tile                    -- by site index
  saves   : Table Tile                    -- controller state (R56) of the tile states in save slots, key 2,048 × hood + slot
  sites   : Table Site
  planks  : Table Plank
  chans   : Table Chan
  memStacks : Table Stack
  mem     : Table Byte                    -- Birier contents that have been written since the last erase, by global byte address
  poison  : Table Bool                    -- poisoned lines, by global line number
  hostMem : Table Byte                    -- host memory as the device has written it and reads it (environment)
  farMem  : Table Byte                    -- other packages' memory as this one has written it (environment), keyed by `farKey`
  farPsn  : Table Bool                    -- its lines that this one has written poisoned, by key / 64
  bands   : Table Band                    -- hatband counters, by hood
  coh     : Coh
  xlt     : Xlt
  links   : Table Link
  stl     : Stl
  lender  : Lender
  rots    : Table Rot                     -- by engine, 8 × link die + number
  power   : Power
  thermal : Thermal
  outs    : Outs
  deriving DecidableEq, Repr, Inhabited

/-- The block before PGOOD_NAP first rises: VDD_NAP is in regulation, nothing has run, every register is at its reset value
(an empty table), the counter is zero and no command waits. COLD_START takes it from here. -/
def State.reset : State :=
  { pending := [], free := 0, nap := {}, hat := {}, regs := [], halves := [], fns := [], hoods := [], ctxs := [], rings := [],
    works := [], waits := [], pats := [], front := {}, bars := [], tiles := [], saves := [], sites := [], planks := [],
    chans := [], memStacks := [], mem := [], poison := [], hostMem := [], farMem := [], farPsn := [], bands := [], coh := {}, xlt := {}, links := [],
    stl := {}, lender := {}, rots := [], power := {}, thermal := {}, outs := {} }

end Sys2Proof.Machine
end

