-- ==== Sys2Proof/Machine/Tables.lean ====
section
/-!
DEFINITION. Machine/Tables.lean: the operations of sparse tables, and their canonical form. `d k` is what key `k` reads
as while it is not listed.
-/
namespace Sys2Proof.Table

/-- The entry of a key, if it is listed. -/
def find {α : Type} : Table α → Nat → Option α
  | [], _ => none
  | (k', v) :: r, k => if k = k' then some v else find r k

/-- Read a key. -/
def get {α : Type} (d : Nat → α) (m : Table α) (k : Nat) : α := (find m k).getD (d k)

/-- Take out whatever is listed under a key. -/
def erase {α : Type} : Table α → Nat → Table α
  | [], _ => []
  | (k', v) :: r, k => if k = k' then erase r k else (k', v) :: erase r k

/-- Put an entry at its place in rising key order. -/
def insert {α : Type} : Table α → Nat → α → Table α
  | [], k, v => [(k, v)]
  | (k', v') :: r, k, v =>
    if k < k' then (k, v) :: (k', v') :: r
    else if k = k' then (k, v) :: r
    else (k', v') :: insert r k v

/-- Write a key: writing what an unlisted key reads as removes the entry. -/
def put {α : Type} [DecidableEq α] (d : Nat → α) (m : Table α) (k : Nat) (v : α) : Table α :=
  if v = d k then erase m k else insert m k v

/-- Drop every entry whose key satisfies `p`. -/
def dropIf {α : Type} (p : Nat → Bool) : Table α → Table α
  | [] => []
  | (k, v) :: r => if p k then dropIf p r else (k, v) :: dropIf p r

/-- Keys strictly rising. -/
def sorted {α : Type} : Table α → Bool
  | [] => true
  | [_] => true
  | (k, _) :: (k', v') :: r => decide (k < k') && sorted ((k', v') :: r)

/-- Canonical form: keys strictly rising and no entry equal to what an unlisted key reads as. -/
def wf {α : Type} [DecidableEq α] (d : Nat → α) (m : Table α) : Bool :=
  sorted m && m.all (fun e => decide (e.2 ≠ d e.1))

end Sys2Proof.Table
end

