-- ==== Sys2Proof/Machine/Regs.lean ====
section
/-!
DEFINITION. Machine/Regs.lean: the register file of Register Reference (R393 to R400): offset within BAR0 (block window of
Table 1 plus the offset of Table 2), width, which functions have it, which copy an access reaches (R394), the bits each
kind of function may replace (RW, RWL) or clear (W1C), and the reset value. Registers whose value is a view of typed state
are computed in Machine/RegCmds.lean.
-/
namespace Sys2Proof.Machine

/-- Which copy of a register an access reaches (R394). `hoodp` is a per-hood register of the PWR block (PWR_SEL). -/
inductive Scope where
  | pkg | fn | hood | hoodp | ctx | chan | stack | link | plank | sensor | rot
  deriving DecidableEq, Repr

/-- One register, or an array of `n` registers, of Table 2. -/
structure RegInfo where
  off   : Nat
  wide  : Bool
  scope : Scope
  n     : Nat := 1
  pf    : Bool := true              -- present in the PF
  vf    : Bool := true              -- present in a VF
  rwP   : Nat := 0                  -- bits the PF replaces
  rwV   : Nat := 0                  -- bits a VF replaces
  w1P   : Nat := 0                  -- bits the PF clears by writing one
  w1V   : Nat := 0
  rstP  : Nat := 0                  -- reset value (copy of the PF, for registers with one copy per function)
  rstV  : Nat := 0
  deriving DecidableEq, Repr

/-! Offsets within BAR0. -/
def rTOP_ID : Nat := 0x0
def rTOP_SERIAL : Nat := 0x8
def rTOP_COUNTER : Nat := 0x10
def rTOP_TS_HOST : Nat := 0x18
def rTOP_TS_DEV : Nat := 0x20
def rTOP_ACTIVE_TILES : Nat := 0x28
def rTOP_START_STATE : Nat := 0x2C
def rTOP_MAINT_CMD : Nat := 0x30
def rTOP_MAINT_STATUS : Nat := 0x34
def rTOP_ALERT_SUMMARY : Nat := 0x40
def rTOP_ALERT_EN : Nat := 0x44
def rHOST_CAUSE : Nat := 0x10000
def rHOST_CAUSE_EN : Nat := 0x10004
def rHOST_WIN_BASE : Nat := 0x10008
def rHOST_ERR_COUNT : Nat := 0x10010
def rHOST_CLAMP : Nat := 0x10014
def rHOST_CLAMP_ROW : Nat := 0x10018
def rHOST_IDE_STREAM : Nat := 0x1001C
def rHOST_VF_STATE : Nat := 0x10020
def rINT_FUNC_SUMMARY : Nat := 0x20000
def rINT_FUNC_CTL : Nat := 0x20004
def rINT_FUNC_REARM : Nat := 0x20008
def rFE_CAUSE : Nat := 0x30000
def rFE_CAUSE_EN : Nat := 0x30004
def rFE_CTX_BASE : Nat := 0x30008
def rFE_CTX_COUNT : Nat := 0x3000C
def rFE_RING_BASE : Nat := 0x30010
def rFE_RING_COUNT : Nat := 0x30014
def rFE_PAT_QUOTA : Nat := 0x30018
def rFE_SLEEP_IDLE : Nat := 0x30020
def rFE_PAT_ADDR : Nat := 0x30028
def rFE_PAT_CTX : Nat := 0x30030
def rFE_PAT_CMD : Nat := 0x30034
def rFE_PAT_STATUS : Nat := 0x30038
def rFE_RING_STOP : Nat := 0x30040
def rFE_DL_RING : Nat := 0x30044
def rCTX_CAUSE : Nat := 0x40000
def rCTX_CAUSE_EN : Nat := 0x40004
def rCTX_CMD_ADDR : Nat := 0x40008
def rCTX_CMD : Nat := 0x40010
def rCTX_CMD_STATUS : Nat := 0x40018
def rCTX_DFENCE_CTX : Nat := 0x40020
def rCTX_DFENCE_VA : Nat := 0x40028
def rCTX_DFENCE_VAL : Nat := 0x40030
def rCTX_SEL : Nat := 0x40040
def rCTX_STATE : Nat := 0x40044
def rCTX_GEN : Nat := 0x40048
def rCTX_CLAMP : Nat := 0x4004C
def rCTX_CLAMP_ROW : Nat := 0x40050
def rCTX_INVALID : Nat := 0x40054
def rCTX_USAGE : Nat := 0x40058
def rCTX_VTIME : Nat := 0x40060
def rCTX_FERR_PAGE : Nat := 0x40068
def rCTX_FERR_COUNT : Nat := 0x40070
def rCTX_EVR_PEND : Nat := 0x40200
def rHOOD_CAUSE : Nat := 0x50000
def rHOOD_CAUSE_EN : Nat := 0x50004
def rHOOD_SEL : Nat := 0x50008
def rHOOD_BLK_ADDR : Nat := 0x50010
def rHOOD_BLK_CMD : Nat := 0x50018
def rHOOD_BLK_STATUS : Nat := 0x5001C
def rHOOD_EPOCH : Nat := 0x50020
def rHOOD_DRAIN : Nat := 0x50024
def rHOOD_REJECT_COUNT : Nat := 0x50028
def rHOOD_RESET : Nat := 0x50030
def rHOOD_SAVE_BASE : Nat := 0x50038
def rHOOD_SAVE_LEN : Nat := 0x50040
def rHOOD_SCHED_CFG : Nat := 0x50048
def rHOOD_PREEMPT : Nat := 0x5004C
def rHOOD_RUNSTATE : Nat := 0x50050
def rHOOD_SAVED : Nat := 0x50054
def rHOOD_USAGE : Nat := 0x50058
def rHOOD_UCODE_CMD : Nat := 0x50060
def rHOOD_UCODE_STATUS : Nat := 0x50064
def rHOOD_MIG_CMD : Nat := 0x50068
def rHOOD_MIG_PEER : Nat := 0x5006C
def rHOOD_MIG_ADDR : Nat := 0x50070
def rHOOD_MIG_LEN : Nat := 0x50078
def rHOOD_MIG_STATUS : Nat := 0x50080
def rHOOD_MIG_DONE : Nat := 0x50088
def rHOOD_MIG_ALIAS : Nat := 0x50090
def rHOOD_END_MAP : Nat := 0x50098
def rHOOD_FAIL_MAP : Nat := 0x5009C
def rHOOD_FAULT_UNIT : Nat := 0x500A0
def rHOOD_SVC_STATE : Nat := 0x500A8
def rHOOD_POOL_CHAN : Nat := 0x500C0
def rHOOD_POOL_CFG : Nat := 0x500E0
def rHOOD_POOL_BUDGET : Nat := 0x500E8
def rHOOD_POOL_USED : Nat := 0x500F0
def rHOOD_BLK_IMAGE : Nat := 0x58000
def rXLT_CAUSE : Nat := 0x60000
def rXLT_CAUSE_EN : Nat := 0x60004
def rXLT_FQ_BASE : Nat := 0x60008
def rXLT_FQ_CFG : Nat := 0x60010
def rXLT_FQ_PI : Nat := 0x60014
def rXLT_FQ_CI : Nat := 0x60018
def rXLT_FQ_TIMEOUT : Nat := 0x6001C
def rXLT_RESP_SRC : Nat := 0x60020
def rXLT_RESP_DST : Nat := 0x60028
def rXLT_RESP_PTE : Nat := 0x60030
def rXLT_RESP_CMD : Nat := 0x60038
def rXLT_INV_VA : Nat := 0x60040
def rXLT_INV_LEN : Nat := 0x60048
def rXLT_INV_FENCE : Nat := 0x60050
def rXLT_INV_FVAL : Nat := 0x60058
def rXLT_INV_CMD : Nat := 0x60060
def rXLT_INV_STATUS : Nat := 0x60064
def rXLT_TO_SEQ : Nat := 0x60068
def rXLT_DROP_COUNT : Nat := 0x6006C
def rMEM_CAUSE : Nat := 0x70000
def rMEM_CAUSE_EN : Nat := 0x70004
def rMEM_CHAN_SEL : Nat := 0x70008
def rMEM_CE_COUNT : Nat := 0x7000C
def rMEM_UE_COUNT : Nat := 0x70010
def rMEM_UE_CHAN : Nat := 0x70018
def rMEM_KV_NAN : Nat := 0x70020
def rMEM_KV_SAT : Nat := 0x70024
def rMEM_RO_DROP : Nat := 0x70028
def rMEM_LENT_RO_DROP : Nat := 0x7002C
def rBIR_CAUSE : Nat := 0x80000
def rBIR_CAUSE_EN : Nat := 0x80004
def rBIR_ERASE_MAP : Nat := 0x80008
def rBIR_STACK_SEL : Nat := 0x8000C
def rBIR_ERASE_RATE : Nat := 0x80010
def rBIR_HALVE : Nat := 0x80014
def rBIR_REFRESH_COUNT : Nat := 0x80018
def rBIR_HOT_BASE : Nat := 0x80020
def rBIR_HOT_SIZE : Nat := 0x80028
def rBIR_HOT_THR : Nat := 0x8002C
def rBIR_HOT_PI : Nat := 0x80030
def rBIR_HOT_CI : Nat := 0x80034
def rBIR_HOT_DROP : Nat := 0x80038
def rSTL_CAUSE : Nat := 0x90000
def rSTL_CAUSE_EN : Nat := 0x90004
def rSTL_PKG_ID : Nat := 0x90008
def rSTL_LINK_SEL : Nat := 0x9000C
def rSTL_LINK_CMD : Nat := 0x90010
def rSTL_LINK_STATUS : Nat := 0x90014
def rSTL_FEC_CORR : Nat := 0x90018
def rSTL_FEC_UNCORR : Nat := 0x9001C
def rSTL_CRC_DISC : Nat := 0x90020
def rSTL_REPLAY : Nat := 0x90024
def rSTL_TC_WEIGHT : Nat := 0x90028
def rSTL_MSG_DISC : Nat := 0x9002C
def rSTL_ROT_SEL : Nat := 0x90030
def rSTL_ROT_STALL : Nat := 0x90034
def rSTL_LOST_MAP : Nat := 0x90038
def rSTL_UP_MAP : Nat := 0x90040
def rSTL_PATH_ID : Nat := 0x90048
def rSTL_PATH_COUNT : Nat := 0x9004C
def rSTL_TAG_KEYIDX : Nat := 0x90050
def rHB_CAUSE : Nat := 0xA0000
def rHB_CAUSE_EN : Nat := 0xA0004
def rHB_WIN_CFG : Nat := 0xA0008
def rHB_GUAR : Nat := 0xA000C
def rHB_CLS_GUAR : Nat := 0xA0010
def rHB_GUAR_EFF : Nat := 0xA0020
def rHB_CLS_GUAR_EFF : Nat := 0xA0024
def rHB_SCALE : Nat := 0xA0034
def rHB_LAT_THR : Nat := 0xA0040
def rHB_LATMAX : Nat := 0xA0050
def rHB_LAT_CLR : Nat := 0xA0060
def rHB_LAT_MASTER : Nat := 0xA0064
def rHB_OVER : Nat := 0xA0080
def rPWR_CAUSE : Nat := 0xB0000
def rPWR_CAUSE_EN : Nat := 0xB0004
def rPWR_CAP : Nat := 0xB0008
def rPWR_CAP_EFF : Nat := 0xB000C
def rPWR_BOARD_MAX : Nat := 0xB0010
def rPWR_PKG_POWER : Nat := 0xB0014
def rPWR_SEL : Nat := 0xB0018
def rPWR_HOOD_CFG : Nat := 0xB001C
def rPWR_HOOD_STATUS : Nat := 0xB0020
def rPWR_RPT_LAPSE : Nat := 0xB0024
def rPWR_FULL_CFG : Nat := 0xB0028
def rPWR_GATE_CFG : Nat := 0xB002C
def rPWR_GRP_CFG : Nat := 0xB0030
def rPWR_GRP_OFFSET : Nat := 0xB0034
def rPWR_PLANK_SEL : Nat := 0xB0038
def rPWR_PLANK_STATE : Nat := 0xB003C
def rPWR_PLANK_DROOP : Nat := 0xB0040
def rPWR_PLANK_CYC : Nat := 0xB0048
def rPWR_GRP_MEMBER : Nat := 0xB0100
def rTHM_CAUSE : Nat := 0xC0000
def rTHM_CAUSE_EN : Nat := 0xC0004
def rTHM_SENSE_SEL : Nat := 0xC0008
def rTHM_TEMP : Nat := 0xC000C
def rTHM_MAX : Nat := 0xC0010
def rTHM_PLANK : Nat := 0xC0014
def rSEC_CAUSE : Nat := 0xD0000
def rSEC_CAUSE_EN : Nat := 0xD0004
def rSEC_STATUS : Nat := 0xD0008
def rSEC_SINGE_CLASS : Nat := 0xD000C
def rSEC_NONCE_LO : Nat := 0xD0010
def rSEC_NONCE_HI : Nat := 0xD0018
def rSEC_UPD_SEL : Nat := 0xD0020
def rSEC_UPD_STATUS : Nat := 0xD0024
def rSEC_SVN : Nat := 0xD0028
def rSEC_REQ_ADDR : Nat := 0xD0030
def rSEC_REQ_CMD : Nat := 0xD0038
def rSEC_REQ_STATUS : Nat := 0xD003C
def rDBG_CAUSE : Nat := 0xE0000
def rDBG_CAUSE_EN : Nat := 0xE0004
def rDBG_TOKEN_ADDR : Nat := 0xE0008
def rDBG_TOKEN_CMD : Nat := 0xE0010
def rDBG_TOKEN_STATUS : Nat := 0xE0014
def rDBG_PERF_SEL : Nat := 0xE0020
def rDBG_PERF_COUNT : Nat := 0xE0028
def rDBG_TRACE_CFG : Nat := 0xE0030
def rDBG_TRACE_PI : Nat := 0xE0034
def rDBG_TRACE : Nat := 0xE8000

def rMSIX_ADDR : Nat := 0xF0000
def rMSIX_ADDR_HI : Nat := 0xF0004
def rMSIX_DATA : Nat := 0xF0008
def rMSIX_CTRL : Nat := 0xF000C
def rMSIX_PBA : Nat := 0xF8000

/-- Registers of block TOP. -/
def regsTop : List RegInfo := [
  { off := rTOP_ID, wide := true, scope := .pkg },
  { off := rTOP_SERIAL, wide := true, scope := .pkg },
  { off := rTOP_COUNTER, wide := true, scope := .pkg },
  { off := rTOP_TS_HOST, wide := true, scope := .fn, rwP := 0xFFFFFFFFFFFFFFFF, rwV := 0xFFFFFFFFFFFFFFFF },
  { off := rTOP_TS_DEV, wide := true, scope := .fn },
  { off := rTOP_ACTIVE_TILES, wide := false, scope := .pkg, vf := false },
  { off := rTOP_START_STATE, wide := false, scope := .pkg, vf := false },
  { off := rTOP_MAINT_CMD, wide := false, scope := .pkg, vf := false },
  { off := rTOP_MAINT_STATUS, wide := false, scope := .pkg, vf := false },
  { off := rTOP_ALERT_SUMMARY, wide := false, scope := .pkg, vf := false },
  { off := rTOP_ALERT_EN, wide := false, scope := .pkg, vf := false, rwP := 0x7FF }]

/-- Registers of block HOST. -/
def regsHost : List RegInfo := [
  { off := rHOST_CAUSE, wide := false, scope := .fn, w1P := 0x2, w1V := 0x1 },
  { off := rHOST_CAUSE_EN, wide := false, scope := .fn, rwP := 0x2, rwV := 0x1, rstP := 0x2, rstV := 0x1 },
  { off := rHOST_WIN_BASE, wide := true, scope := .hood, pf := false, rwV := 0xFFFFFFFFFFFFF },
  { off := rHOST_ERR_COUNT, wide := false, scope := .fn },
  { off := rHOST_CLAMP, wide := false, scope := .fn },
  { off := rHOST_CLAMP_ROW, wide := false, scope := .fn },
  { off := rHOST_IDE_STREAM, wide := false, scope := .pkg, vf := false },
  { off := rHOST_VF_STATE, wide := false, scope := .pkg, vf := false }]

/-- Registers of block INT. -/
def regsInt : List RegInfo := [
  { off := rINT_FUNC_SUMMARY, wide := false, scope := .fn },
  { off := rINT_FUNC_CTL, wide := false, scope := .fn, rwP := 0x3FF0003, rwV := 0x3FF0001 },
  { off := rINT_FUNC_REARM, wide := false, scope := .fn }]

/-- Registers of block FE. -/
def regsFe : List RegInfo := [
  { off := rFE_CAUSE, wide := false, scope := .fn, w1V := 0x3 },
  { off := rFE_CAUSE_EN, wide := false, scope := .fn, rwV := 0x3, rstV := 0x3 },
  { off := rFE_CTX_BASE, wide := false, scope := .hood, rwP := 0xFFF },
  { off := rFE_CTX_COUNT, wide := false, scope := .hood, rwP := 0x1FFF },
  { off := rFE_RING_BASE, wide := false, scope := .hood, rwP := 0x1FFF },
  { off := rFE_RING_COUNT, wide := false, scope := .hood, rwP := 0x3FFF },
  { off := rFE_PAT_QUOTA, wide := false, scope := .hood, rwP := 0x7F },
  { off := rFE_SLEEP_IDLE, wide := false, scope := .hood, rwP := 0x3FF, rwV := 0x3FF, rstP := 0x14, rstV := 0x14 },
  { off := rFE_PAT_ADDR, wide := true, scope := .hood, rwV := 0xFFFFFFFFFFFF },
  { off := rFE_PAT_CTX, wide := false, scope := .hood, rwV := 0xFFF },
  { off := rFE_PAT_CMD, wide := false, scope := .hood },
  { off := rFE_PAT_STATUS, wide := false, scope := .hood },
  { off := rFE_RING_STOP, wide := false, scope := .fn },
  { off := rFE_DL_RING, wide := false, scope := .fn }]

/-- Registers of block CTX. -/
def regsCtx : List RegInfo := [
  { off := rCTX_CAUSE, wide := false, scope := .fn, pf := false, w1V := 0x3 },
  { off := rCTX_CAUSE_EN, wide := false, scope := .fn, pf := false, rwV := 0x3, rstV := 0x3 },
  { off := rCTX_CMD_ADDR, wide := true, scope := .hood, pf := false, rwV := 0xFFFFFFFFFFFC0 },
  { off := rCTX_CMD, wide := true, scope := .hood, pf := false },
  { off := rCTX_CMD_STATUS, wide := false, scope := .hood, pf := false },
  { off := rCTX_DFENCE_CTX, wide := false, scope := .hood, pf := false, rwV := 0xFFF },
  { off := rCTX_DFENCE_VA, wide := true, scope := .hood, pf := false, rwV := 0xFFFFFFFFFFFF },
  { off := rCTX_DFENCE_VAL, wide := true, scope := .hood, pf := false, rwV := 0xFFFFFFFFFFFFFFFF },
  { off := rCTX_SEL, wide := false, scope := .hood, pf := false, rwV := 0xFFF },
  { off := rCTX_STATE, wide := false, scope := .ctx, pf := false },
  { off := rCTX_GEN, wide := false, scope := .ctx, pf := false },
  { off := rCTX_CLAMP, wide := false, scope := .ctx, pf := false },
  { off := rCTX_CLAMP_ROW, wide := false, scope := .ctx, pf := false },
  { off := rCTX_INVALID, wide := false, scope := .ctx, pf := false },
  { off := rCTX_USAGE, wide := true, scope := .ctx, pf := false },
  { off := rCTX_VTIME, wide := true, scope := .ctx, pf := false },
  { off := rCTX_FERR_PAGE, wide := true, scope := .fn, pf := false, w1V := 0x1 },
  { off := rCTX_FERR_COUNT, wide := false, scope := .fn, pf := false },
  { off := rCTX_EVR_PEND, wide := false, scope := .fn, n := 128, pf := false, w1V := 0xFFFFFFFF }]

/-- Registers of block HOOD. HOOD_BLK_IMAGE, a record of 19,520 bytes, is taken as an array of 64-bit registers (log entry 103). -/
def regsHood : List RegInfo := [
  { off := rHOOD_CAUSE, wide := false, scope := .fn, w1P := 0xE, w1V := 0xD },
  { off := rHOOD_CAUSE_EN, wide := false, scope := .fn, rwP := 0xE, rwV := 0xD, rstP := 0xE, rstV := 0xD },
  { off := rHOOD_SEL, wide := false, scope := .fn, vf := false, rwP := 0xF },
  { off := rHOOD_BLK_ADDR, wide := true, scope := .pkg, vf := false, rwP := 0xFFFFFFFFFFFFFFC0 },
  { off := rHOOD_BLK_CMD, wide := false, scope := .pkg, vf := false },
  { off := rHOOD_BLK_STATUS, wide := false, scope := .hood },
  { off := rHOOD_EPOCH, wide := false, scope := .hood },
  { off := rHOOD_DRAIN, wide := false, scope := .hood },
  { off := rHOOD_REJECT_COUNT, wide := false, scope := .hood },
  { off := rHOOD_RESET, wide := false, scope := .hood },
  { off := rHOOD_SAVE_BASE, wide := true, scope := .hood, rwP := 0xFFFFFFFFFF000 },
  { off := rHOOD_SAVE_LEN, wide := true, scope := .hood, rwP := 0xFFFFFFFFFFFFF },
  { off := rHOOD_SCHED_CFG, wide := false, scope := .hood, rwP := 0x7FFF, rstP := 0xC13, rstV := 0xC13 },
  { off := rHOOD_PREEMPT, wide := false, scope := .hood, rwP := 0x1 },
  { off := rHOOD_RUNSTATE, wide := false, scope := .hood },
  { off := rHOOD_SAVED, wide := false, scope := .hood },
  { off := rHOOD_USAGE, wide := true, scope := .hood },
  { off := rHOOD_UCODE_CMD, wide := false, scope := .hood, vf := false },
  { off := rHOOD_UCODE_STATUS, wide := false, scope := .hood },
  { off := rHOOD_MIG_CMD, wide := false, scope := .hood, vf := false },
  { off := rHOOD_MIG_PEER, wide := false, scope := .hood, vf := false, rwP := 0xFFF },
  { off := rHOOD_MIG_ADDR, wide := true, scope := .hood, vf := false, rwP := 0xFFFFFFFFFFFFF000 },
  { off := rHOOD_MIG_LEN, wide := true, scope := .hood, vf := false, rwP := 0xFFFFFFFFFFFFFFFF },
  { off := rHOOD_MIG_STATUS, wide := false, scope := .hood, vf := false },
  { off := rHOOD_MIG_DONE, wide := true, scope := .hood, vf := false },
  { off := rHOOD_MIG_ALIAS, wide := false, scope := .hood },
  { off := rHOOD_END_MAP, wide := false, scope := .fn, vf := false, w1P := 0xFFFF },
  { off := rHOOD_FAIL_MAP, wide := false, scope := .fn, vf := false, w1P := 0xFFFF },
  { off := rHOOD_FAULT_UNIT, wide := false, scope := .fn },
  { off := rHOOD_SVC_STATE, wide := false, scope := .hood, rwP := 0x3, rstP := 0x1, rstV := 0x1 },
  { off := rHOOD_POOL_CHAN, wide := true, scope := .pkg, n := 4, vf := false, rwP := 0xFFFFFFFFFFFFFFFF },
  { off := rHOOD_POOL_CFG, wide := false, scope := .pkg, vf := false, rwP := 0x3 },
  { off := rHOOD_POOL_BUDGET, wide := true, scope := .pkg, vf := false, rwP := 0xFFFFFFFFF0000 },
  { off := rHOOD_POOL_USED, wide := true, scope := .pkg, vf := false },
  { off := rHOOD_BLK_IMAGE, wide := true, scope := .hood, n := 2440 }]

/-- Registers of block XLT. -/
def regsXlt : List RegInfo := [
  { off := rXLT_CAUSE, wide := false, scope := .fn, pf := false, w1V := 0x3 },
  { off := rXLT_CAUSE_EN, wide := false, scope := .fn, pf := false, rwV := 0x3, rstV := 0x3 },
  { off := rXLT_FQ_BASE, wide := true, scope := .hood, pf := false, rwV := 0xFFFFFFFFFFFFFFC0 },
  { off := rXLT_FQ_CFG, wide := false, scope := .hood, pf := false, rwV := 0x1F, rstV := 0x8 },
  { off := rXLT_FQ_PI, wide := false, scope := .hood, pf := false },
  { off := rXLT_FQ_CI, wide := false, scope := .hood, pf := false, rwV := 0xFFFFFFFF },
  { off := rXLT_FQ_TIMEOUT, wide := false, scope := .hood, pf := false, rwV := 0xFFFFFF, rstV := 0x1E8480 },
  { off := rXLT_RESP_SRC, wide := true, scope := .hood, pf := false, rwV := 0xFFFFFFFFFFFFFFFF },
  { off := rXLT_RESP_DST, wide := true, scope := .hood, pf := false, rwV := 0xFFFFFFFFF0000 },
  { off := rXLT_RESP_PTE, wide := true, scope := .hood, pf := false, rwV := 0xFFFFFFFFFFFFFFFF },
  { off := rXLT_RESP_CMD, wide := true, scope := .hood, pf := false },
  { off := rXLT_INV_VA, wide := true, scope := .hood, pf := false, rwV := 0xFFFFFFFFFFFF },
  { off := rXLT_INV_LEN, wide := true, scope := .hood, pf := false, rwV := 0xFFFFFFFFFFFF },
  { off := rXLT_INV_FENCE, wide := true, scope := .hood, pf := false, rwV := 0xFFFFFFFFFFFF },
  { off := rXLT_INV_FVAL, wide := true, scope := .hood, pf := false, rwV := 0xFFFFFFFFFFFFFFFF },
  { off := rXLT_INV_CMD, wide := false, scope := .hood, pf := false },
  { off := rXLT_INV_STATUS, wide := false, scope := .hood, pf := false },
  { off := rXLT_TO_SEQ, wide := false, scope := .fn, pf := false },
  { off := rXLT_DROP_COUNT, wide := false, scope := .hood, pf := false }]

/-- Registers of block MEM. -/
def regsMem : List RegInfo := [
  { off := rMEM_CAUSE, wide := false, scope := .fn, w1P := 0x1, w1V := 0x1 },
  { off := rMEM_CAUSE_EN, wide := false, scope := .fn, rwP := 0x1, rwV := 0x1, rstP := 0x1, rstV := 0x1 },
  { off := rMEM_CHAN_SEL, wide := false, scope := .fn, rwP := 0xFF, rwV := 0xFF },
  { off := rMEM_CE_COUNT, wide := false, scope := .chan },
  { off := rMEM_UE_COUNT, wide := false, scope := .chan },
  { off := rMEM_UE_CHAN, wide := true, scope := .fn },
  { off := rMEM_KV_NAN, wide := false, scope := .hood },
  { off := rMEM_KV_SAT, wide := false, scope := .hood },
  { off := rMEM_RO_DROP, wide := false, scope := .chan },
  { off := rMEM_LENT_RO_DROP, wide := false, scope := .chan, vf := false }]

/-- Registers of block BIR. -/
def regsBir : List RegInfo := [
  { off := rBIR_CAUSE, wide := false, scope := .fn, vf := false, w1P := 0x1 },
  { off := rBIR_CAUSE_EN, wide := false, scope := .fn, vf := false, rwP := 0x1, rstP := 0x1 },
  { off := rBIR_ERASE_MAP, wide := false, scope := .fn, vf := false, w1P := 0xFF },
  { off := rBIR_STACK_SEL, wide := false, scope := .fn, vf := false, rwP := 0x7 },
  { off := rBIR_ERASE_RATE, wide := false, scope := .stack, vf := false, rwP := 0xFFF, rstP := 0x3E8, rstV := 0x3E8 },
  { off := rBIR_HALVE, wide := false, scope := .stack, vf := false, rwP := 0x3FF, rstP := 0xA, rstV := 0xA },
  { off := rBIR_REFRESH_COUNT, wide := false, scope := .stack, vf := false },
  { off := rBIR_HOT_BASE, wide := true, scope := .hood, vf := false, rwP := 0xFFFFFFFFFFFF8 },
  { off := rBIR_HOT_SIZE, wide := false, scope := .hood, vf := false, rwP := 0x1FFFFF, rstP := 0x1000, rstV := 0x1000 },
  { off := rBIR_HOT_THR, wide := false, scope := .hood, vf := false, rwP := 0x1FF, rstP := 0x80, rstV := 0x80 },
  { off := rBIR_HOT_PI, wide := false, scope := .hood, vf := false },
  { off := rBIR_HOT_CI, wide := false, scope := .hood, vf := false, rwP := 0xFFFFFFFF },
  { off := rBIR_HOT_DROP, wide := false, scope := .hood, vf := false }]

/-- Registers of block STL. -/
def regsStl : List RegInfo := [
  { off := rSTL_CAUSE, wide := false, scope := .fn, w1P := 0xF, w1V := 0x3 },
  { off := rSTL_CAUSE_EN, wide := false, scope := .fn, rwP := 0xF, rwV := 0x3, rstP := 0xF, rstV := 0x3 },
  { off := rSTL_PKG_ID, wide := false, scope := .pkg, vf := false, rwP := 0xFFF },
  { off := rSTL_LINK_SEL, wide := false, scope := .fn, rwP := 0x3F, rwV := 0x3F },
  { off := rSTL_LINK_CMD, wide := false, scope := .link, vf := false },
  { off := rSTL_LINK_STATUS, wide := false, scope := .link },
  { off := rSTL_FEC_CORR, wide := false, scope := .link },
  { off := rSTL_FEC_UNCORR, wide := false, scope := .link },
  { off := rSTL_CRC_DISC, wide := false, scope := .link },
  { off := rSTL_REPLAY, wide := false, scope := .link },
  { off := rSTL_TC_WEIGHT, wide := false, scope := .pkg, vf := false, rwP := 0xFFFF, rstP := 0x4666, rstV := 0x4666 },
  { off := rSTL_MSG_DISC, wide := false, scope := .pkg, vf := false },
  { off := rSTL_ROT_SEL, wide := false, scope := .fn, rwP := 0xF, rwV := 0xF },
  { off := rSTL_ROT_STALL, wide := false, scope := .rot },
  { off := rSTL_LOST_MAP, wide := true, scope := .fn, w1P := 0xFFFFFFFFFF, w1V := 0xFFFFFFFFFF },
  { off := rSTL_UP_MAP, wide := true, scope := .fn, vf := false, w1P := 0xFFFFFFFFFF },
  { off := rSTL_PATH_ID, wide := false, scope := .fn },
  { off := rSTL_PATH_COUNT, wide := false, scope := .fn },
  { off := rSTL_TAG_KEYIDX, wide := false, scope := .fn, vf := false }]

/-- Registers of block HB. -/
def regsHb : List RegInfo := [
  { off := rHB_CAUSE, wide := false, scope := .fn, w1V := 0x1 },
  { off := rHB_CAUSE_EN, wide := false, scope := .fn, rwV := 0x1, rstV := 0x1 },
  { off := rHB_WIN_CFG, wide := false, scope := .hood, rwP := 0x3F, rstP := 0x7, rstV := 0x7 },
  { off := rHB_GUAR, wide := false, scope := .hood, rwP := 0xFFFFFFC0 },
  { off := rHB_CLS_GUAR, wide := false, scope := .hood, n := 4, rwP := 0xFFFFFFC0 },
  { off := rHB_GUAR_EFF, wide := false, scope := .hood },
  { off := rHB_CLS_GUAR_EFF, wide := false, scope := .hood, n := 4 },
  { off := rHB_SCALE, wide := false, scope := .hood, rstP := 0x10000, rstV := 0x10000 },
  { off := rHB_LAT_THR, wide := false, scope := .hood, n := 4, rwP := 0xFFFFFFFF, rwV := 0xFFFFFFFF },
  { off := rHB_LATMAX, wide := false, scope := .hood, n := 4 },
  { off := rHB_LAT_CLR, wide := false, scope := .hood },
  { off := rHB_LAT_MASTER, wide := false, scope := .fn },
  { off := rHB_OVER, wide := true, scope := .hood, n := 4 }]

/-- Registers of block PWR. -/
def regsPwr : List RegInfo := [
  { off := rPWR_CAUSE, wide := false, scope := .fn, w1P := 0x1, w1V := 0x1 },
  { off := rPWR_CAUSE_EN, wide := false, scope := .fn, rwP := 0x1, rwV := 0x1, rstP := 0x1, rstV := 0x1 },
  { off := rPWR_CAP, wide := false, scope := .pkg, rwP := 0x1FFF, rstP := 0x5DC, rstV := 0x5DC },
  { off := rPWR_CAP_EFF, wide := false, scope := .pkg, rstP := 0x5DC, rstV := 0x5DC },
  { off := rPWR_BOARD_MAX, wide := false, scope := .pkg },
  { off := rPWR_PKG_POWER, wide := false, scope := .pkg },
  { off := rPWR_SEL, wide := false, scope := .fn, vf := false, rwP := 0xF },
  { off := rPWR_HOOD_CFG, wide := false, scope := .hoodp, rwP := 0xFF03, rstP := 0x1000, rstV := 0x1000 },
  { off := rPWR_HOOD_STATUS, wide := false, scope := .hoodp },
  { off := rPWR_RPT_LAPSE, wide := false, scope := .hoodp },
  { off := rPWR_FULL_CFG, wide := false, scope := .pkg, rwP := 0xFF, rstP := 0x14, rstV := 0x14 },
  { off := rPWR_GATE_CFG, wide := false, scope := .pkg, rwP := 0x3FF, rstP := 0x32, rstV := 0x32 },
  { off := rPWR_GRP_CFG, wide := false, scope := .pkg, vf := false, rwP := 0x3FFFF },
  { off := rPWR_GRP_OFFSET, wide := false, scope := .pkg, vf := false },
  { off := rPWR_PLANK_SEL, wide := false, scope := .fn, vf := false, rwP := 0x7F },
  { off := rPWR_PLANK_STATE, wide := false, scope := .plank, vf := false },
  { off := rPWR_PLANK_DROOP, wide := false, scope := .plank, vf := false },
  { off := rPWR_PLANK_CYC, wide := true, scope := .plank, vf := false },
  { off := rPWR_GRP_MEMBER, wide := false, scope := .pkg, n := 64, vf := false, rwP := 0xFFF }]

/-- Registers of block THM. -/
def regsThm : List RegInfo := [
  { off := rTHM_CAUSE, wide := false, scope := .fn, w1P := 0x1, w1V := 0x1 },
  { off := rTHM_CAUSE_EN, wide := false, scope := .fn, rwP := 0x1, rwV := 0x1, rstP := 0x1, rstV := 0x1 },
  { off := rTHM_SENSE_SEL, wide := false, scope := .fn, vf := false, rwP := 0x1FF },
  { off := rTHM_TEMP, wide := false, scope := .sensor, vf := false },
  { off := rTHM_MAX, wide := false, scope := .pkg, vf := false },
  { off := rTHM_PLANK, wide := false, scope := .fn }]

/-- Registers of block SEC. -/
def regsSec : List RegInfo := [
  { off := rSEC_CAUSE, wide := false, scope := .fn, w1P := 0x1, w1V := 0x3 },
  { off := rSEC_CAUSE_EN, wide := false, scope := .fn, rwP := 0x1, rwV := 0x3, rstP := 0x1, rstV := 0x3 },
  { off := rSEC_STATUS, wide := false, scope := .pkg },
  { off := rSEC_SINGE_CLASS, wide := false, scope := .fn, w1P := 0x3, w1V := 0x3 },
  { off := rSEC_NONCE_LO, wide := true, scope := .pkg, vf := false },
  { off := rSEC_NONCE_HI, wide := true, scope := .pkg, vf := false },
  { off := rSEC_UPD_SEL, wide := false, scope := .pkg, vf := false, rwP := 0x7 },
  { off := rSEC_UPD_STATUS, wide := false, scope := .pkg, vf := false },
  { off := rSEC_SVN, wide := false, scope := .pkg, vf := false },
  { off := rSEC_REQ_ADDR, wide := true, scope := .pkg, vf := false, rwP := 0xFFFFFFFFFFFFFFFF },
  { off := rSEC_REQ_CMD, wide := false, scope := .pkg, vf := false },
  { off := rSEC_REQ_STATUS, wide := false, scope := .pkg, vf := false }]

/-- Registers of block DBG. DBG_TRACE, of 16-byte records, is taken as an array of 64-bit registers (log entry 103). -/
def regsDbg : List RegInfo := [
  { off := rDBG_CAUSE, wide := false, scope := .fn, vf := false, w1P := 0x1 },
  { off := rDBG_CAUSE_EN, wide := false, scope := .fn, vf := false, rwP := 0x1, rstP := 0x1 },
  { off := rDBG_TOKEN_ADDR, wide := true, scope := .pkg, vf := false, rwP := 0xFFFFFFFFFFFFFFFF },
  { off := rDBG_TOKEN_CMD, wide := false, scope := .pkg, vf := false },
  { off := rDBG_TOKEN_STATUS, wide := false, scope := .pkg, vf := false },
  { off := rDBG_PERF_SEL, wide := false, scope := .pkg, vf := false, rwP := 0x707FF },
  { off := rDBG_PERF_COUNT, wide := true, scope := .pkg, vf := false },
  { off := rDBG_TRACE_CFG, wide := false, scope := .pkg, vf := false, rwP := 0x1 },
  { off := rDBG_TRACE_PI, wide := false, scope := .pkg, vf := false },
  { off := rDBG_TRACE, wide := true, scope := .pkg, n := 4096, vf := false }]

/-- The MSI-X table, one entry as PCI Express lays it out, and the PBA (Table 1 of Register Reference). -/
def regsMsix : List RegInfo := [
  { off := rMSIX_ADDR, wide := false, scope := .fn, rwP := 0xFFFFFFFC, rwV := 0xFFFFFFFC },
  { off := rMSIX_ADDR_HI, wide := false, scope := .fn, rwP := 0xFFFFFFFF, rwV := 0xFFFFFFFF },
  { off := rMSIX_DATA, wide := false, scope := .fn, rwP := 0xFFFFFFFF, rwV := 0xFFFFFFFF },
  { off := rMSIX_CTRL, wide := false, scope := .fn, rwP := 0x1, rwV := 0x1, rstP := 0x1, rstV := 0x1 },
  { off := rMSIX_PBA, wide := true, scope := .fn }]

/-- Every register of Table 2. -/
def regTable : List RegInfo :=
  regsTop ++ regsHost ++ regsInt ++ regsFe ++ regsCtx ++ regsHood ++ regsXlt ++ regsMem ++ regsBir ++ regsStl ++ regsHb ++ regsPwr ++ regsThm ++ regsSec ++ regsDbg ++ regsMsix

/-- The block windows of BAR0 hold the Stader routing tables from here in the PF (R393, R400). -/
def rROUTES : Nat := 0x100000

/-- The register at an offset, if one lies there. -/
def regInfo (off : Nat) : Option RegInfo :=
  regTable.find? (fun r => let w := if r.wide then 8 else 4
    decide (r.off ≤ off) && decide (off < r.off + r.n * w) && (off - r.off) % w == 0)

/-- The 64-bit register whose upper half lies at an offset, if any (R11). -/
def upperOf (off : Nat) : Option RegInfo :=
  if off < 4 then none else (regInfo (off - 4)).filter (fun r => r.wide)

/-- The key of a register copy in the register table. -/
def regKey (off inst : Nat) : Nat := off * 8192 + inst

/-- The reset value of a register copy (R395). -/
def regDefault (key : Nat) : BitVec 64 :=
  match regInfo (key / 8192) with
  | some r => BitVec.ofNat 64 (if r.scope == .fn && key % 8192 == 0 then r.rstP else r.rstV)
  | none => 0

/-- The W1C cause registers in summary bit order, with their summary bit (Table 4 of PCI Express). -/
def causeRegs : List (Nat × Nat) :=
  [(rCTX_CAUSE, 0), (rXLT_CAUSE, 1), (rFE_CAUSE, 2), (rHOOD_CAUSE, 3), (rMEM_CAUSE, 4), (rBIR_CAUSE, 5), (rSTL_CAUSE, 6),
   (rHB_CAUSE, 7), (rPWR_CAUSE, 8), (rTHM_CAUSE, 9), (rSEC_CAUSE, 10), (rHOST_CAUSE, 11), (rDBG_CAUSE, 13)]

end Sys2Proof.Machine
end

