-- ==== Sys2Proof/Machine/Ops.lean ====
section
/-!
DEFINITION. Machine/Ops.lean: the named operations that every family uses: reading and changing one unit of the state,
registers, counts, interrupt causes, the interrupt outputs (R230 to R234), and the shape of a meaning (`run`).
-/
namespace Sys2Proof.Machine

/-! ### Reading and changing one unit -/

/-- Change one entry of a table of units whose unlisted entries hold the type's default. -/
def upd {α : Type} [DecidableEq α] [Inhabited α] (m : Table α) (k : Nat) (f : α → α) : Table α :=
  m.put (fun _ => default) k (f (m.get (fun _ => default) k))

/-- Read one entry of such a table. -/
def at' {α : Type} [Inhabited α] (m : Table α) (k : Nat) : α := m.get (fun _ => default) k

def State.fn (s : State) (n : Nat) : Fn := at' s.fns n
def State.hood (s : State) (h : Nat) : Hood := at' s.hoods h
def State.ctx (s : State) (c : Nat) : Ctx := at' s.ctxs c
def State.ring (s : State) (r : Nat) : Ring := at' s.rings r
def State.pat (s : State) (p : Nat) : Pattern := at' s.pats p
def State.bar (s : State) (u : Nat) : Barrier := at' s.bars u
def State.tile (s : State) (i : Nat) : Tile := at' s.tiles i
def State.site (s : State) (i : Nat) : Site := at' s.sites i
def State.plank (s : State) (p : Nat) : Plank := at' s.planks p
def State.chan (s : State) (c : Nat) : Chan := at' s.chans c
def State.stack (s : State) (n : Nat) : Stack := at' s.memStacks n
def State.link (s : State) (l : Nat) : Link := at' s.links l
def State.rot (s : State) (e : Nat) : Rot := at' s.rots e
def State.modFn (s : State) (n : Nat) (f : Fn → Fn) : State := { s with fns := upd s.fns n f }
def State.modHood (s : State) (h : Nat) (f : Hood → Hood) : State := { s with hoods := upd s.hoods h f }
def State.modCtx (s : State) (c : Nat) (f : Ctx → Ctx) : State := { s with ctxs := upd s.ctxs c f }
def State.modRing (s : State) (r : Nat) (f : Ring → Ring) : State := { s with rings := upd s.rings r f }
def State.modPat (s : State) (p : Nat) (f : Pattern → Pattern) : State := { s with pats := upd s.pats p f }
def State.modBar (s : State) (u : Nat) (f : Barrier → Barrier) : State := { s with bars := upd s.bars u f }
def State.modTile (s : State) (i : Nat) (f : Tile → Tile) : State := { s with tiles := upd s.tiles i f }
def State.modSite (s : State) (i : Nat) (f : Site → Site) : State := { s with sites := upd s.sites i f }
def State.modPlank (s : State) (p : Nat) (f : Plank → Plank) : State := { s with planks := upd s.planks p f }
def State.modChan (s : State) (c : Nat) (f : Chan → Chan) : State := { s with chans := upd s.chans c f }
def State.modStack (s : State) (n : Nat) (f : Stack → Stack) : State := { s with memStacks := upd s.memStacks n f }
def State.modLink (s : State) (l : Nat) (f : Link → Link) : State := { s with links := upd s.links l f }
/-- A rotation engine stops: pieces partly received are discarded (R89). -/
def Rot.stop (k : Rot) : Rot := { k with stopped := true, part := none, stage := [] }

def State.modRot (s : State) (e : Nat) (f : Rot → Rot) : State := { s with rots := upd s.rots e f }

/-- A started descriptor, element or node, if the number names one. -/
def State.work? (s : State) (w : Nat) : Option Work := s.works.find w
def State.modWork (s : State) (w : Nat) (f : Work → Work) : State :=
  match s.works.find w with
  | some x => { s with works := s.works.insert w (f x) }
  | none => s
def State.dropWork (s : State) (w : Nat) : State := { s with works := s.works.erase w }

/-- Apply a change for every number below `n`. -/
def forN (n : Nat) (s : State) (f : State → Nat → State) : State := (List.range n).foldl f s

/-- The package counter (R6) as a number, in ns. -/
def State.now (s : State) : Nat := s.nap.counter.toNat

/-- Draw a free value: its number, and the state with the next one ready (log entry 4). -/
def State.draw (s : State) : Nat × State := (s.free, { s with free := s.free + 1 })

/-! ### Registers -/

/-- A register copy's contents. -/
def State.reg (s : State) (off inst : Nat) : Nat := (s.regs.get regDefault (regKey off inst)).toNat

/-- Replace a register copy's contents. -/
def State.setReg (s : State) (off inst v : Nat) : State :=
  { s with regs := s.regs.put regDefault (regKey off inst) (BitVec.ofNat 64 v) }

/-- Set a register to a value that may be free: the register is listed whatever the value is. -/
def State.setRegFree (s : State) (off inst v : Nat) : State := { s with regs := s.regs.insert (regKey off inst) (BitVec.ofNat 64 v) }

def State.modReg (s : State) (off inst : Nat) (f : Nat → Nat) : State := s.setReg off inst (f (s.reg off inst))

/-- Add to a 32-bit saturating count (R395). -/
def State.countReg (s : State) (off inst n : Nat) : State := s.modReg off inst (fun v => satAdd 32 v n)

/-- HOST_ERR_COUNT of a function (R12, R396). -/
def State.errCount (s : State) (fn : Nat) : State := s.countReg rHOST_ERR_COUNT fn 1

/-- HOOD_REJECT_COUNT of a hood (R19). -/
def State.reject (s : State) (h : Nat) : State := s.countReg rHOOD_REJECT_COUNT h 1

/-- A clamp caused by a register write or a block command (R265). -/
def State.hostClamp (s : State) (fn row : Nat) : State := (s.countReg rHOST_CLAMP fn 1).setReg rHOST_CLAMP_ROW fn row

/-- A clamp caused by a descriptor, a node or a patch applied at launch (R265). -/
def State.ctxClamp (s : State) (c row : Nat) : State := (s.countReg rCTX_CLAMP c 1).setReg rCTX_CLAMP_ROW c row

/-! ### Functions and hoods that exist -/

/-- Hood h exists while VF Enable is set and NumVFs is greater than h (R220); a hood on its disable path does not. -/
def State.hoodExists (s : State) (h : Nat) : Bool := decide (h < 16) && (s.hood h).vf == 1

/-- The PF, and the VF of each hood that exists. -/
def State.fnOn (s : State) (fn : Nat) : Bool := fn == 0 || s.hoodExists (fn - 1)

/-- With ARI disabled at the upstream port, only VFs 1 to 7 are reachable (R218). -/
def State.ariOk (s : State) (fn : Nat) : Bool := decide (fn < 8) || (s.fn 0).ari

/-- The start has reached READY and no package reset stands: the PF accepts commands (R377 step 12). -/
def State.ready (s : State) : Bool := s.reg rTOP_START_STATE 0 == 4 && !s.nap.perst && !s.nap.tripped && !s.nap.spine

/-- The hood number that a register access by a function reaches (R394): a VF's own hood, in the PF the selected one. -/
def State.selHood (s : State) (fn : Nat) : Nat := if fn = 0 then s.reg rHOOD_SEL 0 % 16 else fn - 1

/-! ### Outputs -/

def State.toHost (s : State) (o : HostOut) : State := { s with outs := { s.outs with host := s.outs.host ++ [o] } }
def State.toBoard (s : State) (o : BoardOut) : State := { s with outs := { s.outs with board := s.outs.board ++ [o] } }

/-! ### Interrupt causes and alerts -/

/-- Set a cause bit of a function (R231). A VF that does not exist keeps its tree at reset values (R236). -/
def State.cause (s : State) (off fn b : Nat) : State :=
  if s.fnOn fn then s.modReg off fn (fun v => v ||| (1 <<< b)) else s

/-- Write a detail register that holds a value, then set the cause (R231, R398). -/
def State.causeV (s : State) (off fn b det v : Nat) : State :=
  if s.fnOn fn then (s.setReg det fn v).cause off fn b else s

/-- Set a bit of a detail bitmap, then the cause (R231, R398). -/
def State.causeM (s : State) (off fn b det i : Nat) : State :=
  if s.fnOn fn then (s.modReg det fn (fun v => v ||| (1 <<< i))).cause off fn b else s

/-- Set a bit of TOP_ALERT_SUMMARY (R234). -/
def State.alert (s : State) (b : Nat) : State :=
  { s with nap := { s.nap with alert := s.nap.alert ||| BitVec.ofNat 32 (1 <<< b) } }

/-- INT_FUNC_SUMMARY of a function (Table 4 of PCI Express, R231). -/
def State.summary (s : State) (fn : Nat) : Nat :=
  causeRegs.foldl (fun a c => if s.reg c.1 fn &&& s.reg (c.1 + 4) fn = 0 then a else a ||| (1 <<< c.2))
    (if fn = 0 ∧ s.nap.alert &&& s.nap.alertEn ≠ 0 then 1 <<< 12 else 0)

/-- The IDE stream of a hood: programmed for its VF and started (R226). -/
def State.ideStream (s : State) (h : Nat) : Option Nat :=
  (s.hat.ideKeys.find? (fun e => e.2 == h + 1 && (s.hat.ideGo.find e.1).getD false)).map (fun e => e.1)

/-- Do requests of a hood cross the port: Bus Master Enable is set (R225), its device interface is not in ERROR (R227), and a confidential hood has
its stream (R226)? Those that do not are held. -/
def State.portOpen (s : State) (h : Nat) : Bool :=
  (s.fn (h + 1)).bme && (s.hood h).tdi != 3 && (!((s.hood h).created && (s.hood h).block.conf) || (s.ideStream h).isSome)

/-- May a function send requests toward the host? -/
def State.mayAsk (s : State) (fn : Nat) : Bool := if fn = 0 then (s.fn 0).bme else s.portOpen (fn - 1)

/-- Try to send the MSI-X message of a function (R232, R225, R218, R226, R227): it is dropped with a zero summary, held within
MOD, turned into the PBA bit while masked, and held in D3hot or while requests of the function do not cross the port. -/
def State.trySend (s : State) (fn : Nat) : State :=
  let f := s.fn fn
  if s.summary fn = 0 then s
  else if f.modBusy then s.modFn fn (fun f => { f with held := true })
  else if f.masked || f.fmask then s.modFn fn (fun f => { f with pba := true })
  else if f.d3hot || !s.mayAsk fn then s.modFn fn (fun f => { f with bmeHeld := true })
  else
    (s.modFn fn (fun f => { f with modBusy := bits (s.reg rINT_FUNC_CTL fn) 16 10 != 0 })).toHost (.msix fn)

/-- INT_FUNC_CTL.EN with MODE = MSI-X. -/
def State.msiOn (s : State) (fn : Nat) : Bool := bits (s.reg rINT_FUNC_CTL fn) 0 2 == 1

/-- INTA as R230 states it. -/
def State.intaNow (s : State) (fn : Nat) : Bool :=
  fn == 0 && bits (s.reg rINT_FUNC_CTL fn) 0 2 == 3 && !(s.fn fn).intDis && s.summary fn != 0

/-- Bring one function's interrupt outputs up to date: a summary that has become nonzero sends one message, a summary
that reads zero clears the PBA bit and drops what is held (R232), and INTA follows its conditions (R230). -/
def settleFn (s : State) (fn : Nat) : State :=
  let z := s.summary fn == 0
  let edge := !z && (s.fn fn).wasZero
  let s := if edge && s.msiOn fn then s.trySend fn else s
  let a := s.intaNow fn
  s.modFn fn (fun f => { f with wasZero := z, inta := a, pba := f.pba && !z, held := f.held && !z, bmeHeld := f.bmeHeld && !z })

/-- ALERT_N follows the AND of its two registers (R234). -/
def settleAlert (s : State) : State :=
  { s with nap := { s.nap with alertN := s.nap.alert &&& s.nap.alertEn != 0 } }

/-- Bring every interrupt output of the package up to date. -/
def settle (s : State) : State := forN 17 (settleAlert s) settleFn

/-! ### The shape of a meaning -/

/-- What a command leaves: its effect with the outputs settled, and the queue as it was. -/
def finish (s t : State) : State := { settle t with pending := s.pending }

/-- A meaning: a command whose operands name no unit of the package faults; an unpowered package does nothing (R410);
otherwise the effect happens. -/
def run (ok : Bool) (eff : State → State) (s : State) : Host.Outcome State Fault Refusal :=
  if ok then (if s.nap.pgood then .next (finish s (eff s)) else .next s) else .fault .noSuchUnit

/-! ### Which units a function's hood holds -/

/-- The sites of the hood's tile map. -/
def State.tmap (s : State) (h : Nat) : List Nat := (s.hood h).block.tmap

/-- NTILE of the hood's current block. -/
def State.ntile (s : State) (h : Nat) : Nat := (s.tmap h).length

/-- Hoods that hold a block. -/
def State.liveHoods (s : State) : List Nat := (List.range 16).filter (fun h => (s.hood h).created)

/-- Hoods whose current block names a site. -/
def State.hoodsOfSite (s : State) (i : Nat) : List Nat := s.liveHoods.filter (fun h => (s.tmap h).contains i)

/-- Hoods whose current block names a channel. -/
def State.hoodsOfChan (s : State) (c : Nat) : List Nat :=
  s.liveHoods.filter (fun h => (s.hood h).block.channels.getLsbD c)

/-- The plank of a site (R16). -/
def plankOf (site : Nat) : Nat := site / 13

/-- The sites of a plank (R16). -/
def sitesOf (p : Nat) : List Nat := (List.range 13).map (fun k => 13 * p + k)

/-- The compute die of a plank. -/
def dieOf (p : Nat) : Nat := p / 16

/-- Hoods that own a site of a plank. -/
def State.hoodsOfPlank (s : State) (p : Nat) : List Nat :=
  s.liveHoods.filter (fun h => (s.tmap h).any (fun i => plankOf i == p))

/-- The planks that hold sites of a hood. -/
def State.planksOf (s : State) (h : Nat) : List Nat :=
  (List.range 128).filter (fun p => (s.tmap h).any (fun i => plankOf i == p))

end Sys2Proof.Machine
end

