-- ==== Sys2Proof/Machine/Route.lean ====
section
/-!
DEFINITION. Machine/Route.lean: where a hood address lies (R107, R165), how lines are numbered (R16, R95, R157), and which Stader links lead to a
package (R206).
-/
namespace Sys2Proof.Machine

/-! ### Lines -/

/-- Global byte address of a channel address. Global lines are these divided by 64. -/
def gaOf (c ca : Nat) : Nat := c * 2 ^ 32 + ca

def chanOfLine (line : Nat) : Nat := line / 2 ^ 26

/-- A line of the package's own channels: a channel's bytes run from 0 to 2,999,999,999 (R95). -/
def isLocalLine (line : Nat) : Bool := decide (line < 2 ^ 34) && decide (line % 2 ^ 26 < 46875000)

/-- A line of a lease of another package, as a hood that reads it through a key names it (R145, R157). -/
def farLine (pkg lease key addr : Nat) : Nat := (pkg + 1) * 2 ^ 96 + lease % 2 ^ 32 * 2 ^ 64 + key % 256 * 2 ^ 56 + addr / 64 % 2 ^ 56

def isFarLine (line : Nat) : Bool := decide (2 ^ 96 ≤ line) && decide (line < 4097 * 2 ^ 96)
def lineOk (line : Nat) : Bool := isLocalLine line || isFarLine line

/-- The lender, the lease, the key index and the address of such a line. -/
def farPkg (line : Nat) : Nat := line / 2 ^ 96 - 1
def farLease (line : Nat) : Nat := line / 2 ^ 64 % 2 ^ 32
def farKeyIdx (line : Nat) : Nat := line / 2 ^ 56 % 256
def farAddr (line : Nat) : Nat := line % 2 ^ 56 * 64

/-- Key of a byte of a lease of another package. -/
def farKey (pkg lease addr : Nat) : Nat := pkg * 2 ^ 96 + lease % 2 ^ 32 * 2 ^ 62 + addr

/-! ### Ranges and places -/

def granBytes (g : Nat) : Nat := if g = 0 then 256 else if g = 1 then 4096 else 65536

/-- Members of a channel set, in ascending order (R165). -/
def membersOf (channels : BitVec 256) : List Nat := bitsSet channels.toNat 256

/-- The stripe formula of R165. -/
def stripe (members : List Nat) (gran cbase o : Nat) : Nat :=
  let n := members.length
  let g := o / gran
  gaOf (members.getD (g % n) 0) (cbase + g / n * gran + o % gran)

/-- Where a hood address lies. -/
inductive Place where
  | loc  (ga : Nat)                          -- local, at a global address
  | far  (pkg lease addr carrier : Nat)      -- borrowed: lender, lease, address at the lender, carrier link die
  | lost                                     -- a LOST range (R186)
  | none                                     -- outside the byte space of the block
  deriving DecidableEq, Repr, Inhabited

/-- The range of a block that holds a hood address. -/
def Block.rangeAt (b : Block) (a : Nat) : Option Range :=
  b.ranges.find? (fun r => decide (r.hbase ≤ a) && decide (a < r.hbase + r.len))

/-- The place of an offset into extents of one kind. -/
def placeIn (b : Block) (borrowed : Bool) (cbase lender lease carrier o : Nat) : Place :=
  if borrowed then .far lender lease (cbase + o) carrier
  else .loc (stripe (membersOf b.channels) (granBytes b.gran) cbase o)

def Range.place (b : Block) (r : Range) (a : Nat) : Place :=
  if r.state == 4 then .lost else placeIn b r.borrowed r.cbase r.lender r.leaseId r.carrier (a - r.hbase)

/-- The place of an address in a move target. -/
def Target.place (b : Block) (r : Range) (t : Target) (a : Nat) : Place :=
  placeIn b t.borrowed t.cbase t.lender t.leaseId t.carrier (a - r.hbase)

/-- The place of a hood address in a block (R107). -/
def Block.placeOf (b : Block) (a : Nat) : Place :=
  match b.rangeAt a with
  | some r => r.place b a
  | none => .none

/-- Does every byte of an interval lie in the byte space of a block? -/
def Block.holds (b : Block) (a n : Nat) : Bool :=
  (List.range ((a % 65536 + n + 65535) / 65536)).all (fun i => (b.rangeAt (max a (alignDown a 65536 + 65536 * i))).isSome)

/-- Number of 64-byte lines an interval touches. -/
def linesIn (a n : Nat) : Nat := if n = 0 then 0 else (a + n - 1) / 64 - a / 64 + 1

/-! ### Routes -/

/-- The routing entry of a link die toward a package (R206). -/
def State.route (s : State) (die dst : Nat) : BitVec 64 := (s.stl.routes.find (4096 * die + dst)).getD 0

/-- Links of a routing entry that are usable now: MASK less links taken out of it, and up (R206, R211). -/
def State.routeLinks (s : State) (die dst : Nat) : List Nat :=
  let e := s.route die dst
  (List.range 20).filter (fun i => e.getLsbD i && !s.stl.removed.contains (20 * die + i) && (s.link (20 * die + i)).st == 2
    && !(s.link (20 * die + i)).isol) |>.map (fun i => 20 * die + i)

/-- Does a link die reach a package, by itself or through the other die (OTHER)? -/
def State.dieReaches (s : State) (die dst : Nat) : Bool :=
  !(s.routeLinks die dst).isEmpty || ((s.route die dst).getLsbD 20 && !(s.routeLinks (1 - die) dst).isEmpty)

/-- The links that carry a message from a die toward a package, through the other die if the entry says OTHER (R206). -/
def State.linksTo (s : State) (die dst : Nat) : List Nat :=
  let l := s.routeLinks die dst
  if l.isEmpty && (s.route die dst).getLsbD 20 then s.routeLinks (1 - die) dst else l

/-- Is a flit from a die toward a package discarded: an empty mask, and no OTHER die that has one (R206)? -/
def State.noRoute (s : State) (die dst : Nat) : Bool :=
  (s.route die dst).toNat % 2 ^ 20 == 0 &&
    (!(s.route die dst).getLsbD 20 || ((s.route (1 - die) dst).toNat % 2 ^ 20 == 0 && !(s.route (1 - die) dst).getLsbD 20))

/-- Is the path to a package declared lost (R212)? -/
def State.pathGone (s : State) (pkg : Nat) : Bool := ((s.stl.watch.find pkg).map (fun w => w.lost)).getD false

/-- Is the path to a package alive? -/
def State.pathUp (s : State) (carrier dst : Nat) : Bool := !s.pathGone dst && s.dieReaches carrier dst

/-- This package's ID (R205). -/
def State.selfId (s : State) : Nat := s.reg rSTL_PKG_ID 0 % 4096

/-- The key index under which a hood's memory is encrypted and its cached lines are tagged: its domain's, or its own (R354, R358). -/
def State.keyIdx (s : State) (h keydom : Nat) : Nat :=
  if keydom = 0 then h else (s.hat.domains.find keydom).getD h

/-- The hoods whose block, of the current epoch or of the draining one, names a link: a removed link stays with its hood until the drain ends
(R171, R217). -/
def State.hoodsOfLink (s : State) (l : Nat) : List Nat :=
  s.liveHoods.filter (fun h => (s.hood h).block.links.getLsbD l ||
    ((s.hood h).change.phase == .draining && ((s.hood h).change.old.map (fun b => b.links.getLsbD l)).getD false))

end Sys2Proof.Machine
end

