-- ==== Sys2Proof/Machine/Links.lean ====
section
/-!
DEFINITION. Machine/Links.lean: sending on the Stader links: message and flit bytes (R197, R204, R214), the choice of the link (R208), tags,
virtual channels (R207), credits and the retry buffer (R199, R201), arbitration (R202), MREQ holds (R209) and the watch list (R212).
-/
namespace Sys2Proof.Machine

/-- The traffic class of a message (Table 4 of Stader Links). -/
def tcOf : StlBody → Nat
  | .arrive .. | .shift .. | .revert => 0
  | .ask .. | .grant .. | .deny | .renew .. | .ack .. | .ret .. | .keepalive | .retrain | .spdm .. => 1
  | .rdU .. | .wrU .. | .atom .. | .fence .. => 2
  | .rsp .. => 3
  | .piece .. | .credit .. => 4
  | .coll .. => 5
  | .other .. => 1

/-- Body bytes of a message. Requests name an address and operands; the layouts of KIND bodies are the owning chapters'. -/
def bodyLen : StlBody → Nat
  | .wrU _ _ d _ => 16 + d.length
  | .rsp _ d _ => d.length
  | .piece _ _ _ _ d _ => d.length
  | .coll _ _ _ _ _ d _ => d.length
  | .keepalive | .retrain | .deny | .revert => 0
  | _ => 16

/-! ### Bytes of messages and flits -/

/-- The number of a message's kind, and its fields; KIND codes and the layouts of bodies are not stated (log entry 81). -/
def msgFields : StlBody → Nat × List Nat
  | .rdU a b c => (0, [a, b, c])
  | .wrU a b _ p => (1, [a, b] ++ p)
  | .atom a b c d x y => (2, [a, b, c, d, x.toNat, y.toNat])
  | .fence a b c => (3, [a, b, c])
  | .rsp t _ p => (4, t :: p)
  | .piece a b c d _ p => (5, [a, b, c, d] ++ p)
  | .credit a => (6, [a])
  | .coll a b c d o _ p => (7, [a, b, c, d, o] ++ p)
  | .ask a b c => (8, [a, b.toNat, c])
  | .grant a b c => (9, [a, b, c])
  | .deny => (10, [])
  | .renew a => (11, [a])
  | .ack a => (12, [a])
  | .ret a => (13, [a])
  | .keepalive => (14, [])
  | .retrain => (15, [])
  | .spdm a => (16, [a])
  | .arrive a b c d => (17, [a, b, c, d])
  | .shift a b c => (18, [a, b.natAbs, if b < 0 then 1 else 0, c])
  | .revert => (19, [])
  | .other k => (20, [k])

/-- The bytes of a body before encryption. -/
def bodyBytes (b : StlBody) : List Byte :=
  let f := msgFields b
  let plain := fun (n : Nat) => (List.range n).map (fun i => Config.bodyByte f.1 f.2 i)
  match b with
  | .wrU _ _ d _ => plain 16 ++ d
  | .rsp _ d _ => d
  | .piece _ _ _ _ d _ => d
  | .coll _ _ _ _ _ d _ => d
  | _ => plain (bodyLen b)

/-- The 8-byte header of a message (Table 5 of Stader Links). -/
def msgHeader (m : StlMsg) : BitVec 64 :=
  BitVec.ofNat 64 ((Config.msgKind (msgFields m.body).1).toNat + m.len % 2 ^ 13 * 2 ^ 8 + m.tag % 2 ^ 16 * 2 ^ 21 +
    (m.hood.getD 0) % 16 * 2 ^ 37 + (if m.hood.isSome then 2 ^ 41 else 0) + (if m.enc then 2 ^ 42 else 0) + m.keyidx % 64 * 2 ^ 43 +
    (if m.rsv then 2 ^ 49 else 0))

/-- The tag of a message under a key: the IV is the salt and the message's counter, the additional data its header (R214). -/
def gcmOf (key : Nat) (salt : BitVec 32) (m : StlMsg) : BitVec 128 := Config.gcmTag key salt m.ctr (msgHeader m) (bodyBytes m.body)

/-- The bytes of a message: an encrypted one carries its counter after the header and its tag after the body (R204, R214). -/
def msgBytes (key : Nat) (salt : BitVec 32) (m : StlMsg) : List Byte :=
  let b := bodyBytes m.body
  let h := leBytes 8 (msgHeader m).toNat
  if m.enc then h ++ leBytes 8 m.ctr ++ ((List.range b.length).zip b).map (fun p => p.2 ^^^ Config.gcmStream key salt m.ctr p.1) ++ leBytes 16 m.gcm.toNat
  else h ++ b

/-- Bytes of a message with its envelope: 8 of header, the body, and 24 more when it is encrypted. -/
def msgLen (m : StlMsg) : Nat := 8 + m.len + (if m.enc then 24 else 0)

/-- One step of the bit-reflected CRC-32C (R197). -/
def crcStep (c : Nat) : Nat := if c % 2 = 1 then (c / 2) ^^^ 0x82F63B78 else c / 2

def crcByte (c : Nat) (b : Byte) : Nat := crcStep (crcStep (crcStep (crcStep (crcStep (crcStep (crcStep (crcStep (c ^^^ b.toNat))))))))

/-- CRC-32C: initial value and final XOR all ones (R197). -/
def crc32c (d : List Byte) : BitVec 32 := BitVec.ofNat 32 (d.foldl crcByte 0xFFFFFFFF ^^^ 0xFFFFFFFF)

/-- The 10 bytes of a flit header (Table 2 of Stader Links). -/
def flitHeader (typ fseq ack : Nat) (nak : Bool) (tc vc crtc crvc crcnt dst src rsv : Nat) : List Byte :=
  leBytes 10 (typ % 16 + fseq % 4096 * 2 ^ 4 + ack % 4096 * 2 ^ 16 + (if nak then 2 ^ 28 else 0) + tc % 8 * 2 ^ 29 + vc % 2 * 2 ^ 32 +
    crtc % 8 * 2 ^ 33 + crvc % 2 * 2 ^ 36 + crcnt % 2048 * 2 ^ 37 + dst % 4096 * 2 ^ 48 + src % 4096 * 2 ^ 60 + rsv % 256 * 2 ^ 72)

/-- The CRC a received flit must carry. -/
def flitCrc (f : Flit) : BitVec 32 :=
  crc32c (flitHeader f.typ f.fseq f.ack f.nak f.tc f.vc f.crtc f.crvc f.crcnt f.dst f.src f.rsv ++ slice f.payload 0 242)

/-- The 256 bytes of a flit that is sent, under the keys of this package's associations. -/
def State.flitBytes (s : State) (l : Nat) (f : TxFlit) : List Byte :=
  let bytes := fun (m : StlMsg) => let a := at' s.stl.assocs (64 * (l / 20) + m.keyidx); msgBytes a.key a.salt m
  let pay := if f.part.isEmpty then slice f.transit 0 242 else slice (f.part.flatMap bytes) f.off 242
  let d := flitHeader f.typ f.fseq f.ack f.nak f.tc f.vc f.crtc f.crvc f.crcnt f.dst f.src 0 ++ pay
  d ++ leBytes 4 (crc32c d).toNat

/-! ### Choosing a link -/

/-- Flits that messages take when they are packed without gaps (R204). -/
def flitsFor (ms : List StlMsg) : Nat := (ms.foldl (fun n m => n + msgLen m) 0 + 241) / 242

def flitsOf (m : StlMsg) : Nat := flitsFor [m]

/-- The link die a message without a carrier leaves from: the lower one that reaches the package. -/
def State.dieFor (s : State) (dst : Nat) : Nat := if s.dieReaches 0 dst then 0 else 1

/-- Flits of a class and virtual channel that a link may still send (R201). -/
def State.credit (s : State) (l tc vc : Nat) : Nat := 128 - ((s.link l).cred.find (2 * tc + vc)).getD 0

/-- The virtual channel on a link: one crossing a DATELINE link moves to channel 1 and keeps it within the dimension (R207). -/
def State.vcOn (s : State) (l dst : Nat) (from' : Option Nat) (vc : Nat) : Nat :=
  if (s.route (l / 20) dst).getLsbD (21 + l % 20) then 1
  else if vc == 1 && (match from' with | some i => Config.sameDim i l | none => true) then 1 else 0

/-- Can a link take `n` flits of a class now (R199, R201)? -/
def State.hasRoom (s : State) (l tc vc n : Nat) : Bool := decide (n ≤ s.credit l tc vc) && decide ((s.link l).retry.length + n ≤ 2048)

/-- Can a link take the flits of messages of this package now? -/
def State.linkTakes (s : State) (l dst tc : Nat) (ms : List StlMsg) : Bool := s.hasRoom l tc (s.vcOn l dst none 0) (flitsFor ms)

/-- The link of R208 for MREQ (by a hash of the lender's handle and the line; the hash is not stated: log entry 6), POWER and MGMT (the
lowest-numbered); none: whichever holds credit. -/
def State.fixedLink (s : State) (die dst : Nat) (m : StlMsg) : Option (Option Nat) :=
  let ls := s.linksTo die dst
  let byHash := fun (lease addr : Nat) => some (ls[Config.choice (lease * 2 ^ 64 + addr / 64) % max ls.length 1]?)
  match m.body with
  | .rdU a b _ => byHash a b
  | .wrU a b _ _ => byHash a b
  | .atom a b .. => byHash a b
  | .fence a b _ => byHash a b
  | b => if tcOf b ≤ 1 then some ls.head? else none

/-- The links a message may take: a rotation engine's are those of its LINKS field (R84), which its own messages name. -/
def State.linksFor (s : State) (die dst : Nat) (m : StlMsg) : List Nat :=
  let ls := s.linksTo die dst
  match m.body with
  | .piece e .. =>
    match s.rots.find? (fun r => r.2.hood != 0 && r.2.next == dst && m.hood == some (r.2.hood - 1) && r.1 % 8 == e % 8) with
    | some (_, r) => ls.filter (fun l => r.links.getLsbD l && (s.hood (r.hood - 1)).block.links.getLsbD l)
    | none => ls
  | _ => ls

/-- The link a message takes now. -/
def State.pickLink (s : State) (die dst : Nat) (m : StlMsg) : Option Nat :=
  match s.fixedLink die dst m with
  | some l => l
  | none =>
    let ls := s.linksFor die dst m
    (ls.find? (fun l => s.linkTakes l dst (tcOf m.body) [m])).orElse (fun _ => ls.head?)

/-! ### Flits -/

/-- Fill in what every flit sent on a link carries: ACK, a NAK that is due, and the credits owed to one class and virtual channel, which
are then returned (R197 to R199, R201). -/
def State.stamp (s : State) (l : Nat) (f : TxFlit) : TxFlit × State :=
  let k := s.link l
  let (c, n) := k.owe.headD (0, 0)
  ({ f with ack := (k.rxSeq + 4095) % 4096, nak := k.nak, crtc := c / 2, crvc := c % 2, crcnt := min n 2047 },
    s.modLink l (fun k => { k with nak := false, owe := if n ≤ 2047 then k.owe.drop 1 else k.owe.put (fun _ => 0) c (n - 2047) }))

/-- Send a flit as it stands. -/
def State.putFlit (s : State) (l : Nat) (f : TxFlit) : State :=
  let (f, s) := s.stamp l f
  { s with outs := { s.outs with stl := s.outs.stl ++ [(l, f)] } }

/-- Send a DATA flit: it enters the retry buffer and takes a credit (R199, R201). -/
def State.sendFlit (s : State) (l : Nat) (f : TxFlit) : State :=
  let f := { f with typ := 1, fseq := (s.link l).txSeq }
  let c := 2 * f.tc + f.vc
  let s := s.modLink l (fun k => { k with
    txSeq := (k.txSeq + 1) % 4096, retry := k.retry ++ [f], cred := k.cred.put (fun _ => 0) c ((k.cred.find c).getD 0 + 1) })
  s.putFlit l f

/-- Send an IDLE flit, which repeats the last FSEQ sent (R197, R198). -/
def State.sendIdle (s : State) (l : Nat) : State := s.putFlit l { typ := 0, fseq := ((s.link l).txSeq + 4095) % 4096, src := s.selfId }

/-- Where each message of a packed run ends: (message, offset after its last byte). -/
def msgEnds : Nat → List StlMsg → List (StlMsg × Nat)
  | _, [] => []
  | n, m :: l => (m, n + msgLen m) :: msgEnds (n + msgLen m) l

/-- Send messages of one class toward one package on a link, packed without gaps (R204). -/
def State.putOnLink (s : State) (l dst tc : Nat) (ms : List StlMsg) : State :=
  let ends := msgEnds 0 ms
  let n := flitsFor ms
  let vc := s.vcOn l dst none 0
  let src := s.selfId
  forN n s (fun s i =>
    let here := (ends.filter (fun p => (p.2 - 1) / 242 == i)).map (fun p => p.1)
    s.sendFlit l { tc := tc, vc := vc, dst := dst, src := src, msgs := here, part := ms, off := 242 * i,
                   more := decide (i + 1 < n) && !ends.any (fun p => p.2 == 242 * (i + 1)) })

/-! ### Arbitration (R202) -/

def TxItem.tc : TxItem → Nat
  | .msg _ _ m => tcOf m.body
  | .flit _ _ f => f.tc

def TxItem.dst : TxItem → Nat
  | .msg _ d _ => d
  | .flit _ _ f => f.dst

/-- Items of one key leave in order: those of this package by class and destination, those passing through by the link they came on, class and
virtual channel. -/
def TxItem.key : TxItem → Nat × Nat × Nat
  | .msg _ d m => (0, tcOf m.body, d)
  | .flit none _ f => (0, f.tc, f.dst)
  | .flit (some l) _ f => (l + 1, f.tc, f.vc)

/-- The first item of every key. -/
def heads : List (Nat × Nat × Nat) → List TxItem → List TxItem
  | _, [] => []
  | seen, i :: l => if seen.contains i.key then heads seen l else i :: heads (i.key :: seen) l

/-- The messages that a link can take together, packed: the first and those behind it that take the same link. -/
def State.batch (s : State) (l die dst : Nat) : List StlMsg → List StlMsg → List StlMsg
  | acc, [] => acc
  | acc, m :: r =>
    if s.pickLink die dst m == some l && s.linkTakes l dst (tcOf m.body) (acc ++ [m]) then s.batch l die dst (acc ++ [m]) r else acc

/-- The link a flit takes: the one its message began on, or the one R208 gives its class. -/
def State.flitLink (s : State) (from' : Option Nat) (die : Nat) (f : TxFlit) : Option Nat :=
  let ls := match f.part.head? with | some m => s.linksFor die f.dst m | none => s.linksTo die f.dst
  let fits := fun (l : Nat) => s.hasRoom l f.tc (s.vcOn l f.dst from' f.vc) 1
  match from'.bind (fun i => s.stl.cut.find (16 * i + 2 * f.tc + f.vc)) with
  | some l => if ls.contains l then some l else ls.find? fits
  | none =>
    match (f.msgs ++ f.part).head? with
    | some m => match s.fixedLink die f.dst m with | some l => l | none => ls.find? fits
    | none => if f.tc ≤ 1 then ls.head? else ls.find? fits

/-- What sending an item now would do: its link, the flits it takes, and the state after it; none where it must wait. -/
def State.trySendItem (s : State) (it : TxItem) : Option (Nat × Nat × State) :=
  let drop := fun (s : State) (l : List TxItem) => { s with stl := { s.stl with queue := l.foldl (fun q i => q.erase i) s.stl.queue } }
  match it with
  | .msg die dst m =>
    match s.pickLink die dst m with
    | none => none
    | some l =>
      let same := s.stl.queue.filterMap (fun j => match j with | .msg d x k => if d == die && j.key == it.key then some (d, x, k) else none | _ => none)
      let ms := s.batch l die dst [] (same.map (fun j => j.2.2))
      if ms.isEmpty then none
      else some (l, flitsFor ms, (drop s (ms.map (fun k => .msg die dst k))).putOnLink l dst (tcOf m.body) ms)
  | .flit fr die f =>
    match s.flitLink fr die f with
    | none => none
    | some l =>
      let vc := s.vcOn l f.dst fr f.vc
      if !s.hasRoom l f.tc vc 1 then none
      else
        let t := (drop s [it]).sendFlit l { f with vc := vc }
        match fr with
        | none => some (l, 1, t)
        | some i =>
          let k := 16 * i + 2 * f.tc + f.vc
          let t := { t with stl := { t.stl with cut := if f.more then t.stl.cut.insert k l else t.stl.cut.erase k } }
          let c := 2 * f.tc + f.vc
          some (l, 1, t.modLink i (fun q => { q with owe := q.owe.put (fun _ => 0) c ((q.owe.find c).getD 0 + 1) }))

/-- The weight of a class (STL_TC_WEIGHT). -/
def State.tcWeight (s : State) (tc : Nat) : Nat := bits (s.reg rSTL_TC_WEIGHT 0) (4 * (tc - 2)) 4

/-- The class that a link's round robin serves among those that can send: the current one while its weight lasts, else the next in turn. -/
def rrPick (cur left : Nat) (tcs : List Nat) : Option Nat :=
  if 0 < left ∧ tcs.contains cur then some cur
  else ((List.range 4).map (fun i => 2 + (cur - 1 + i) % 4)).find? (fun t => tcs.contains t)

/-- Send one item, chosen as R202 says: POWER, then MGMT, then the weighted round robin of the link. -/
def State.pumpStep (s : State) : Option State :=
  let cs := (heads [] s.stl.queue).filterMap (fun i => (s.trySendItem i).map (fun r => (i.tc, r)))
  match (cs.find? (fun c => c.1 == 0)).orElse (fun _ => cs.find? (fun c => c.1 == 1)) with
  | some (_, _, _, t) => some t
  | none =>
    match cs with
    | [] => none
    | (_, l, _, _) :: _ =>
      let k := s.link l
      let mine := cs.filter (fun c => c.2.1 == l)
      match (rrPick k.rrTc k.rrLeft (mine.map (fun c => c.1))).bind (fun tc => mine.find? (fun c => c.1 == tc)) with
      | some (tc, _, n, t) =>
        some (t.modLink l (fun q => { q with rrTc := tc, rrLeft := (if k.rrTc = tc ∧ 0 < k.rrLeft then k.rrLeft else s.tcWeight tc) - n }))
      | none => none

def pumpN : Nat → State → State
  | 0, s => s
  | n + 1, s => match s.pumpStep with | some t => pumpN n t | none => s

/-- Send what can go now; the rest waits for an up link (until path loss), for credit or for room in a retry buffer (R199, R201, R211). -/
def State.flush (s : State) : State := pumpN s.stl.queue.length s

/-- Add items behind what waits, and send what can go. -/
def State.enqueue (s : State) (l : List TxItem) : State := State.flush { s with stl := { s.stl with queue := s.stl.queue ++ l } }

/-- Discard a message or flit with the count of STL_MSG_DISC. -/
def State.discard (s : State) : State := s.countReg rSTL_MSG_DISC 0 1

/-- Send a message of this package: an entry that leads nowhere discards it (R206); a new MREQ may be held (R209). -/
def State.emit (s : State) (die dst : Nat) (m : StlMsg) : State :=
  if s.noRoute die dst then s.discard
  else if tcOf m.body == 2 && s.stl.holds.contains (die, dst) then { s with stl := { s.stl with held := s.stl.held ++ [(die, dst, m)] } }
  else s.enqueue [.msg die dst m]

/-! ### Messages -/

/-- The association that protects a hood's traffic with a package. -/
def State.assocOf (s : State) (die dst h : Nat) : Option Nat :=
  ((s.stl.assocs.find? (fun e => e.1 / 64 == die && e.2.live && e.2.peer == dst && e.2.hoods.contains h))).map (fun e => e.1 % 64)

/-- Messages between two hatters that are authenticated under the hatters' association (R215). -/
def hatterMsg : StlBody → Bool
  | .ask .. | .grant .. | .deny | .renew .. | .ack .. | .ret .. | .keepalive => true
  | _ => false

/-- Close a message with the tag of an association, whose counter advances (R214). -/
def State.seal (s : State) (die idx : Nat) (m : StlMsg) : StlMsg × State :=
  let a := at' s.stl.assocs (64 * die + idx)
  let m := { m with enc := true, keyidx := idx, ctr := a.sent }
  ({ m with gcm := gcmOf a.key a.salt m },
    { s with stl := { s.stl with assocs := upd s.stl.assocs (64 * die + idx) (fun a => { a with sent := a.sent + 1 }) } })

/-- The hatters of two packages agree the key of their association when it is first needed; none after a class B singe (R215, R356). -/
def State.authHatter (s : State) (pkg : Nat) : State :=
  if (s.hat.linkAuth.find pkg).isSome || s.nap.classB then s
  else
    let (f, s) := s.draw
    { s with hat := { s.hat with linkAuth := s.hat.linkAuth.insert pkg (f, 0) } }

/-- Authenticate a message to another hatter (R215); without an association with it nothing is sent. -/
def State.sealMgmt (s : State) (dst : Nat) (m : StlMsg) : Option (StlMsg × State) :=
  let s := s.authHatter dst
  (s.hat.linkAuth.find dst).map (fun k =>
    let m := { m with ctr := k.2 }
    ({ m with gcm := gcmOf k.1 0 m }, { s with hat := { s.hat with linkAuth := s.hat.linkAuth.insert dst (k.1, k.2 + 1) } }))

/-- Build and send a message: it takes the next TAG of its class (R208), and the traffic of a confidential hood is encrypted under
the association of that hood, without which nothing is sent (R214, R215). An MREQ is remembered as `q` until it is acknowledged. -/
def State.stlSendAs (s : State) (die dst : Nat) (h : Option Nat) (b : StlBody) (q : Mreq) : State :=
  let tc := tcOf b
  let tagged := tc == 2 || tc ≥ 4
  let tag := if tagged then (s.stl.txTag.find (4096 * die + dst)).getD 0 else 0
  let s := if tagged then { s with stl := { s.stl with txTag := s.stl.txTag.put (fun _ => 0) (4096 * die + dst) ((tag + 1) % 65536) } } else s
  let conf := match h with | some x => decide (2 ≤ tc) && (s.hood x).block.conf | none => false
  let m : StlMsg := { len := bodyLen b, rsv := false, tag := tag, hood := h, enc := false, keyidx := 0, ctr := 0, gcm := 0, body := b }
  let s := if tc == 2 then { s with stl := { s.stl with mreqs := s.stl.mreqs ++ [{ q with die := die, dst := dst, tag := tag, body := b }] } } else s
  if conf then
    match s.assocOf die dst (h.getD 0) with
    | some i => let (m, s) := s.seal die i m; s.emit die dst m
    | none => s
  else if hatterMsg b then
    match s.sealMgmt dst m with
    | some (m, s) => s.emit die dst m
    | none => s
  else s.emit die dst m

def State.stlSend (s : State) (die dst : Nat) (h : Option Nat) (b : StlBody) : State :=
  s.stlSendAs die dst h b { who := { hood := h.getD 16 }, gen := (s.hood (h.getD 16)).gen }

/-- Send an MREQ for an access to a borrowed place (R154, R201); `b` makes its body from the lease. -/
def State.sendMreq (s : State) (w : Who) (ha pkg lease carrier : Nat) (b : Nat → StlBody) : State :=
  s.stlSendAs carrier pkg (some w.hood) (b lease) { who := w, gen := (s.hood w.hood).gen, ha := ha / 64 * 64 }

/-! ### Watched packages (R212) and associations (R214, R215, R356) -/

/-- Is a package a member of the enabled power group, other than this one (R332)? -/
def State.groupPeer (s : State) (pkg : Nat) : Bool :=
  let g := s.reg rPWR_GRP_CFG 0
  g.testBit 6 && !s.power.left && pkg != s.selfId && (List.range (g % 64 + 1)).any (fun i => s.reg (rPWR_GRP_MEMBER + 4 * i) 0 % 4096 == pkg)

/-- Does anything here depend on a package: a lender, a borrower, a ring peer, a member of the power group? -/
def State.depends (s : State) (pkg : Nat) : Bool :=
  (List.range 16).any (fun h =>
    let k := s.hood h
    let uses := fun (b : Block) => b.ranges.any (fun r => (r.borrowed && r.lender == pkg) ||
      (match r.target with | some t => t.borrowed && t.lender == pkg | none => false))
    (k.created && uses k.block) || k.change.lenders.contains pkg || (k.change.phase != .stable && ((k.change.new.map uses).getD false ||
      (k.change.old.map uses).getD false))) ||
  s.lender.leases.any (fun l => l.pkg == pkg) || s.groupPeer pkg ||
  s.rots.any (fun e => e.2.hood != 0 && (e.2.next == pkg || e.2.prev == pkg))

/-- Start or stop watching a package as what depends on it comes and goes; at most 512 are watched. -/
def State.rewatch (s : State) (pkg : Nat) : State :=
  if s.depends pkg then
    if (s.stl.watch.find pkg).isSome || 512 ≤ s.stl.watch.length then s
    else ({ s with stl := { s.stl with watch := s.stl.watch.insert pkg { live := true, last := s.now } } }).authHatter pkg
  else { s with stl := { s.stl with watch := s.stl.watch.erase pkg } }

/-- Give a confidential hood an association with a package on a link die: the hatters agree its key (R214). With none free the
hood's messages are not sent. -/
def State.associate (s : State) (die pkg h : Nat) : State :=
  if !(s.hood h).block.conf then s
  else
    match s.stl.assocs.find? (fun e => e.1 / 64 == die && e.2.live && e.2.peer == pkg) with
    | some (k, _) => { s with stl := { s.stl with assocs := upd s.stl.assocs k (fun a => { a with hoods := if a.hoods.contains h then a.hoods else a.hoods ++ [h] }) } }
    | none =>
      match (List.range 64).find? (fun i => !(at' s.stl.assocs (64 * die + i)).live) with
      | some i =>
        let (f, s) := s.draw
        { s with stl := { s.stl with assocs := s.stl.assocs.insert (64 * die + i) { live := true, peer := pkg, key := f, salt := (Config.drbg f).truncate 32, born := s.now, hoods := [h] } } }
      | none => s

end Sys2Proof.Machine
end

