-- ==== Sys2Proof/Machine/Lines.lean ====
section
/-!
DEFINITION. Machine/Lines.lean: lines of memory at their home: the channel with its encryption (R104, R354) and poison (R99, R369), read-only lines
(R155, R191), access counters (R105) and hatband charges (R312 to R317), the caches (R144), the directories (R145, R146, R150, R151), atomics
(R152, R153) and the coherence messages in flight (R147 to R149). A byte of data travels with its poison mark.
-/
namespace Sys2Proof.Machine

/-- A byte and its poison mark. -/
abbrev PB := Byte × Bool

/-- Data without poison. -/
def clean (d : List Byte) : List PB := d.map (fun b => (b, false))

/-- Is any byte poisoned? -/
def anyPsn (d : List PB) : Bool := d.any (fun b => b.2)

def bytesOf (d : List PB) : List Byte := d.map (fun b => b.1)

/-- The canonical form of a memory (Birier, host, or another package's): addresses strictly rising. A byte is listed exactly while
something has been written there since its erase; what an unlisted byte reads as is open (log entry 2), so no listed value equals it. -/
def Memory.wf (m : Table Byte) : Bool := Table.sorted m

/-! ### The channel -/

/-- The extent over a line, if any (R165). -/
def State.extentOf (s : State) (line : Nat) : Option Extent :=
  let ca := line % 2 ^ 26 * 64
  (s.chan (chanOfLine line)).extents.find? (fun e => decide (e.base ≤ ca) && decide (ca < e.base + e.len))

/-- The generation of a memory key plus one; zero for an absent or erased key (R354, R369). -/
def State.keyGen (s : State) (idx : Nat) : Nat := (s.hat.keys.find idx).getD 0

/-- A channel that serves nothing: isolated itself, or with its stack (R25). -/
def State.chanDown (s : State) (c : Nat) : Bool := (s.chan c).isol || (s.stack (c / 32)).isol

/-- A byte of a local line as the channel controller decrypts it (R104, R354). -/
def State.rawByte (s : State) (ga : Nat) : Byte :=
  match s.mem.find ga with
  | some b => b
  | none =>
    let k := ((s.extentOf (ga / 64)).map (fun e => e.key)).getD 0
    Config.erasedByte k (s.keyGen k) ga

/-- Is a line under a key that has been erased (R369)? -/
def State.keyless (s : State) (line : Nat) : Bool :=
  match s.extentOf line with | some e => s.keyGen e.key == 0 | none => false

/-- Does a line read poisoned from memory? Its mark, its channel's isolation (R158) or an erased key (R369). -/
def State.linePsn (s : State) (line : Nat) : Bool :=
  (s.poison.find line).isSome || s.chanDown (chanOfLine line) || s.keyless line

/-- Put or clear the poison mark of a line (R99). -/
def State.setPsn (s : State) (line : Nat) (v : Bool) : State :=
  { s with poison := if v then s.poison.insert line true else s.poison.erase line }

/-- Store bytes at a global address. -/
def State.putBytes (s : State) (ga : Nat) (d : List Byte) : State :=
  { s with mem := ((List.range d.length).zip d).foldl (fun m p => m.insert (ga + p.1) p.2) s.mem }

/-- A line as its channel holds it. -/
def State.chanLine (s : State) (line : Nat) : List PB :=
  let p := s.linePsn line
  (List.range 64).map (fun i => (s.rawByte (line * 64 + i), p))

/-- Write bytes of a line in its channel (R97, R99): a whole line clears the mark, a part keeps it. A write under an erased key, or to an
isolated channel, is dropped (R158, R369). -/
def State.chanWr (s : State) (line off : Nat) (d : List PB) : State :=
  if s.chanDown (chanOfLine line) || s.keyless line then s
  else
    let old := (s.poison.find line).isSome
    (s.putBytes (line * 64 + off) (bytesOf d)).setPsn line (anyPsn d || (old && decide (d.length < 64)))

/-! ### Other packages' memory (environment, log entry 3) -/

def State.farRd (s : State) (pkg lease addr : Nat) : Byte := (s.farMem.find (farKey pkg lease addr)).getD (Config.farByte pkg addr)

/-- Read bytes of a lease, with the marks this package has written. -/
def State.farBytes (s : State) (pkg lease addr n : Nat) : List PB :=
  (List.range n).map (fun i => (s.farRd pkg lease (addr + i), (s.farPsn.find (farKey pkg lease (addr + i) / 64)).isSome))

/-- Write bytes within one line of a lease: the mark of a poisoned store travels with it (R100), and a whole clean line clears it (R99). -/
def State.farWr (s : State) (pkg lease addr : Nat) (d : List PB) : State :=
  let k := farKey pkg lease addr / 64
  { s with farMem := ((List.range d.length).zip (bytesOf d)).foldl (fun m p => m.insert (farKey pkg lease (addr + p.1)) p.2) s.farMem
           farPsn := if anyPsn d then s.farPsn.insert k true else if d.length = 64 then s.farPsn.erase k else s.farPsn }

/-! ### Counters and charges -/

/-- One line access counts when counting is enabled for the owning hood (R105); a counter that passes the threshold sends an entry. -/
def State.touchLine (s : State) (line : Nat) : State :=
  match s.extentOf line with
  | none => s
  | some e =>
    let h := e.owner
    if e.lent || s.reg rBIR_HOT_THR h / 256 % 2 == 0 then s
    else
      let c := chanOfLine line
      let x := line % 2 ^ 26 / 1024
      let v := min (((s.chan c).counts.find x).getD 0 + 1) 255
      let s := s.modChan c (fun k => { k with counts := k.counts.insert x v })
      if s.reg rBIR_HOT_THR h % 256 ≤ v && ((s.chan c).listed.find x).isNone then
        let s := s.modChan c (fun k => { k with listed := k.listed.insert x true })
        { s with coh := { s.coh with hot := s.coh.hot ++ [(h, c + x * 2 ^ 8 + h * 2 ^ 24 + v * 2 ^ 32)] } }
      else s

/-- Charge a request of class `c` with `n` charges of `u` bytes: level 1 while a counter is below its budget, else level 2,
which HB_OVER counts (R315). Its latency is timing, a free value: the record and LATMAX follow it (R317, log entry 10). -/
def State.charge (s : State) (h c n u : Nat) : State :=
  let band := at' s.bands h
  let cc := (band.cls.find c).getD 0
  let left := fun (eff cur : Nat) => if eff ≤ cur then 0 else (eff - cur + u - 1) / u
  let n1 := min n (max (left (s.reg rHB_GUAR_EFF h) band.hb) (left (s.reg (rHB_CLS_GUAR_EFF + 4 * c) h) cc))
  let s := { s with bands := upd s.bands h (fun k => { hb := k.hb + n * u, cls := k.cls.insert c (cc + n * u) }) }
  let s := s.modReg (rHB_OVER + 8 * c) h (fun v => satAdd 64 v ((n - n1) * u))
  let (f, s) := s.draw
  let lat := min (Config.choice f) (2 ^ 32 - 1)
  let old := s.reg (rHB_LATMAX + 4 * c) h
  let thr := s.reg (rHB_LAT_THR + 4 * c) h
  let s := s.setRegFree (rHB_LATMAX + 4 * c) h (max old lat)
  { s with regs := (if thr ≠ 0 ∧ thr < lat ∧ old < lat then s.causeV rHB_CAUSE (h + 1) 0 rHB_LAT_MASTER c else s).regs }

/-- `n` channel accesses of one request to a line: counted at the channel (R105) and charged 64 bytes each to whom the request is (R312). -/
def State.lineAccess (s : State) (w : Who) (line n : Nat) : State :=
  let s := if isLocalLine line then forN n s (fun s _ => s.touchLine line) else s
  if w.cls < 4 ∧ 0 < n then s.charge w.hood w.cls 1 (64 * n) else s

/-! ### Read-only lines (R155, R191) -/

/-- Does a range take no write now? MARK_RO holds from the end of its drain (R191). -/
def State.roNow (s : State) (h : Nat) (r : Range) : Bool :=
  let c := (s.hood h).change
  r.ro && !(c.phase == .draining && c.cmd == 6 && (c.range.map (fun q => q.hbase)) == some r.hbase)

/-- Is a local line of a hood in a range that takes no write? -/
def State.roLine (s : State) (h line : Nat) : Bool :=
  let b := (s.hood h).block
  let ca := line % 2 ^ 26 * 64
  b.channels.getLsbD (chanOfLine line) && b.ranges.any (fun r =>
    !r.borrowed && s.roNow h r && decide (r.cbase ≤ ca) && decide (ca < r.cbase + r.len / max (membersOf b.channels).length 1))

/-- A write or atomic that completes without effect on memory, with the count that says so. -/
def State.refuses (s : State) (h line : Nat) : Option State :=
  match (s.extentOf line).filter (fun e => e.lent) with
  | some e => if e.ro then some (s.countReg rMEM_LENT_RO_DROP (chanOfLine line) 1) else none
  | none => if s.roLine h line then some (s.countReg rMEM_RO_DROP (chanOfLine line) 1) else none

/-! ### Atomic operations (R152) -/

/-- Widths of an operation: 0 ADD, 1 AND, 2 OR, 3 XOR, 4 SMIN, 5 SMAX, 6 UMIN, 7 UMAX, 8 SWAP, 9 CAS, 10 FADD. -/
def atomWidthOk (op w : Nat) : Bool := if op = 10 then w == 32 else w == 32 || w == 64 || ((op == 8 || op == 9) && w == 128)

/-- What is in memory after an operation. -/
def atomNew (op w old x cmp : Nat) : Nat :=
  let sx := fun (v : Nat) => toSigned w v
  match op with
  | 0 => (old + x) % 2 ^ w
  | 1 => old &&& x
  | 2 => old ||| x
  | 3 => old ^^^ x
  | 4 => if sx x < sx old then x else old
  | 5 => if sx old < sx x then x else old
  | 6 => min old x
  | 7 => max old x
  | 8 => x
  | 9 => if old = cmp then x else old
  | _ => (fadd old x).1

/-- Run an operation on the bytes of a line at an offset: the operand as it becomes, and the old value. -/
def atomLine (op width off : Nat) (opnd cmp : BitVec 128) (d : List Byte) : List Byte × BitVec 128 :=
  let n := width / 8
  let old := leNat ((d.drop off).take n)
  (leBytes n (atomNew op width old (opnd.toNat % 2 ^ width) (cmp.toNat % 2 ^ width)), BitVec.ofNat 128 old)

/-! ### Caches (R144, R157, R358) -/

/-- The compute die that is a local line's home (R145). -/
def homeDie (line : Nat) : Nat := chanOfLine line / 32

def cacheKey (c line : Nat) : Nat := c * 2 ^ 120 + line

/-- The key index a line's tag must name: its extent's, or for a borrowed line the one its number carries. -/
def State.lineKey (s : State) (line : Nat) : Nat :=
  if isFarLine line then farKeyIdx line else ((s.extentOf line).map (fun e => e.key)).getD 0

/-- A cache's copy, if it holds one; a stale tag is no copy (R358). -/
def State.copyOf (s : State) (c line : Nat) : Option CLine :=
  (s.coh.caches.find (cacheKey c line)).filter (fun l => l.st != .I && l.key == s.lineKey line && l.gen == s.keyGen l.key)

def State.dirOf (s : State) (line : Nat) : Dir := (s.coh.dir.find line).getD {}

/-- Set a directory entry; one without a holder is not kept (R146). -/
def State.setDir (s : State) (line : Nat) (d : Dir) : State :=
  if d.sharers.isEmpty && d.owner.isNone then
    { s with coh := { s.coh with dir := s.coh.dir.erase line, lru := s.coh.lru.filter (fun l => l != line) } }
  else { s with coh := { s.coh with dir := s.coh.dir.insert line d, lru := line :: s.coh.lru.filter (fun l => l != line) } }

def State.dropCopy (s : State) (c line : Nat) : State :=
  { s with coh := { s.coh with caches := s.coh.caches.erase (cacheKey c line) } }

/-- A cache leaves a line's holder vector. -/
def State.leaveDir (s : State) (c line : Nat) : State :=
  let e := s.dirOf line
  s.setDir line { sharers := e.sharers.filter (fun x => x != c), owner := e.owner.filter (fun x => x != c) }

/-- Store a whole line with its mark, as a write-back does. -/
def State.writeBack (s : State) (line : Nat) (d : List Byte) (psn : Bool) : State := s.chanWr line 0 ((slice d 0 64).map (fun b => (b, psn)))

/-- A cache gives a line up to make room: modified data goes back, and the home learns of it (R144, log entry 30). -/
def State.spill (s : State) (c line : Nat) : State :=
  let s := match s.coh.caches.find (cacheKey c line) with
    | some l => if l.st == CState.M && l.gen == s.keyGen l.key then s.writeBack line l.data l.psn else s
    | none => s
  (s.dropCopy c line).leaveDir c line

/-- Sets of a cache: 65,536 of 16 ways in a die cache; the spine cache, of 32,768 lines, is taken as 16 ways too (R144, log entry 30). -/
def cacheSets (c : Nat) : Nat := if c = 8 then 2048 else 65536

/-- Room in a cache for a line: with all 16 ways of its set in use, some line of the set goes. -/
def State.makeRoom (s : State) (c line : Nat) : State :=
  let set := fun (l : Nat) => Config.cacheSet c l % cacheSets c
  let l := (s.coh.caches.filter (fun e => e.1 / 2 ^ 120 == c && e.2.st != .I && e.1 % 2 ^ 120 != line)).map (fun e => e.1 % 2 ^ 120)
  if l.length < 16 then s
  else
    let l := l.filter (fun k => set k == set line)
    if l.length < 16 then s
    else
      let (f, s) := s.draw
      s.spill c (l.getD (Config.choice f % l.length) 0)

/-- A cache holds a line in a state, under the tag of its key and that key's generation. -/
def State.setCopy (s : State) (c line : Nat) (st : CState) (d : List Byte) (psn : Bool) : State :=
  let s := s.makeRoom c line
  let k := s.lineKey line
  { s with coh := { s.coh with caches := s.coh.caches.insert (cacheKey c line) { st := st, data := d, psn := psn, key := k, gen := s.keyGen k } } }

/-- The cache that holds a line modified, with its copy (Table 5 of On-Die Networks). -/
def State.ownerData (s : State) (line : Nat) : Option (Nat × CLine) :=
  ((s.coh.dir.find line).bind (fun d => d.owner)).bind (fun o => ((s.copyOf o line).filter (fun l => l.st == .M)).map (fun l => (o, l)))

/-- The newest bytes of a local line: a cache's modified data, else memory (R150). -/
def State.rdLocal (s : State) (line : Nat) : List PB :=
  match s.ownerData line with
  | some (_, l) => (slice l.data 0 64).map (fun b => (b, l.psn))
  | none => s.chanLine line

/-- Take every cached copy of a line, writing modified data back when `wb` (R150, R158). -/
def State.recallLine (s : State) (line : Nat) (wb : Bool) : State :=
  let s := match s.ownerData line with
    | some (_, l) => if wb then s.writeBack line l.data l.psn else s
    | none => s
  let s := { s with coh := { s.coh with caches := s.coh.caches.dropIf (fun k => k % 2 ^ 120 == line) } }
  s.setDir line {}

/-! ### The home (R145 to R151) -/

def State.sendC (s : State) (m : CMsg) : State := { s with coh := { s.coh with msgs := s.coh.msgs ++ [m] } }

/-- A message without what it carries: its kind, line and ends. -/
def CMsg.bare : CMsg → CMsg
  | .data l q _ _ _ => .data l q [] false false
  | .dataX l q _ _ => .dataX l q [] false
  | .wbData l h _ _ => .wbData l h [] false
  | .atomResult l q _ _ => .atomResult l q 0 false
  | m => m

/-- Take a message out of flight: of those of its kind, line and ends, the first sent. -/
def State.takeMsg (s : State) (m : CMsg) : State :=
  { s with coh := { s.coh with msgs := s.coh.msgs.eraseP (fun x => x.bare == m.bare) } }

/-- The line a message is about. -/
def CMsg.line : CMsg → Nat
  | .fwdS l _ _ | .fwdX l _ _ | .fwdRd l _ _ | .inv l _ | .recall l _ | .invAck l _ | .done l _ | .grant l _
  | .atomResult l _ _ _ | .wrAck l _ | .data l _ _ _ _ | .dataX l _ _ _ | .wbData l _ _ _ => l

def CReq.from : CReq → Nat
  | .rdS _ q => q | .rdX _ q => q | .upg _ q => q | .rdU _ q => q | .wrU _ q _ _ => q | .wbM q => q | .evC q => q | .atom _ _ _ _ a => a.req
  | .evict => 0

/-- Whose request it is: what it causes is charged to that master (R149). -/
def CReq.who : CReq → Who
  | .rdS w _ => w | .rdX w _ => w | .upg w _ => w | .rdU w _ => w | .wrU w _ _ _ => w | .atom w _ _ _ _ => w
  | _ => {}

def State.txnOf (s : State) (line : Nat) : Txn := (s.coh.txns.find line).getD {}
def State.setTxn (s : State) (line : Nat) (t : Txn) : State := { s with coh := { s.coh with txns := s.coh.txns.insert line t } }

/-- The range of a hood that names a borrowed line read-only, under the hood's key (R145, R154). -/
def State.farRange (s : State) (h line : Nat) : Option Range :=
  let b := (s.hood h).block
  if s.keyIdx h b.keydom ≠ farKeyIdx line then none
  else b.ranges.find? (fun r => r.borrowed && r.ro && r.state != 4 && r.lender == farPkg line && r.leaseId % 2 ^ 32 == farLease line
    && decide (r.cbase ≤ farAddr line) && decide (farAddr line < r.cbase + r.len))

/-- The carrier link die of a borrowed line, as the entry of a hood that binds it names it. -/
def State.farCarrier (s : State) (line : Nat) : Nat :=
  ((s.liveHoods.findSome? (fun h => s.farRange h line)).map (fun r => r.carrier)).getD 0

/-- The home of a line's directory entry: a compute die, or (8, 9) a link die (R145). -/
def State.dirHome (s : State) (line : Nat) : Nat := if isFarLine line then 8 + s.farCarrier line else homeDie line

/-- The set of its directory: 131,072 sets of 16 ways on a compute die, 32,768 on a link die (R146, log entry 30). -/
def dirSetOf (line : Nat) : Nat := Config.dirSet line % (if isFarLine line then 32768 else 131072)

/-- A line from its home's memory, a channel or over Stader (R154): bytes, and whether it is poisoned. -/
def State.homeLine (s : State) (line : Nat) : List Byte × Bool :=
  let d := if isFarLine line then s.farBytes (farPkg line) (farLease line) (farAddr line) 64 else s.rdLocal line
  (bytesOf d, anyPsn d)

/-- Has a borrowed line no path to its lender any more (R156)? -/
def State.farGone (s : State) (line : Nat) : Bool := isFarLine line && !s.pathUp (s.farCarrier line) (farPkg line)

/-- The home reads the line for a request: at the channel, or by an RdU to the lender (R154, R203). -/
def State.fetchLine (s : State) (w : Who) (line : Nat) : State :=
  let s := s.lineAccess w line 1
  if isFarLine line then s.sendMreq w 0 (farPkg line) (farLease line) (s.farCarrier line) (fun l => .rdU l (farAddr line) 64) else s

/-- The requester has been answered; of it nothing more is awaited when `got`. -/
def State.answered (s : State) (line : Nat) (got : Bool) : State :=
  s.setTxn line { s.txnOf line with sup := true, got := (s.txnOf line).got || got }

/-- Answer DataX. -/
def State.giveX (s : State) (w : Who) (line q : Nat) : State :=
  let (d, p) := s.homeLine line
  (((s.lineAccess w line 1).setDir line { sharers := [], owner := some q }).sendC (.dataX line q d p)).answered line false

/-- The move a local line is under, if any: the place of its copy in the target (R181). -/
def State.moveTwin (s : State) (line : Nat) : Option (Nat × Place) :=
  let ca := line % 2 ^ 26 * 64
  s.liveHoods.findSome? (fun h =>
    let b := (s.hood h).block
    let ms := membersOf b.channels
    match ms.idxOf? (chanOfLine line) with
    | none => none
    | some i =>
      let g := granBytes b.gran
      b.ranges.findSome? (fun r =>
        match r.state, r.target with
        | 2, some t =>
          let o := ca - r.cbase
          if !r.borrowed && decide (r.cbase ≤ ca) && decide (ca < r.cbase + r.len / max ms.length 1) then
            some (h, t.place b r (r.hbase + (o / g * ms.length + i) * g + o % g))
          else none
        | _, _ => none))

/-- Write bytes of a line at a place of a move target (R181). -/
def State.twinWr (s : State) (w : Who) (p : Place) (off : Nat) (d : List PB) : State :=
  match p with
  | .loc ga => (s.recallLine (ga / 64) true).chanWr (ga / 64) off d
  | .far pkg ls x c =>
    if s.pathUp c pkg then
      (s.sendMreq w 0 pkg ls c (fun l => .wrU l (x + off) (bytesOf d) (if anyPsn d then [0] else []))).farWr pkg ls (x + off) d
    else s
  | _ => s

/-- Write bytes of a line at its home, with no cached copy left; during a move the target takes them too (R150, R181). -/
def State.homeWr (s : State) (w : Who) (line off : Nat) (d : List PB) : State :=
  let s := (s.recallLine line true).chanWr line off d
  match s.moveTwin line with
  | some (_, p) => s.twinWr w p off d
  | none => s

/-- Execute an atomic on a local line of which no cache but the requester's home holds a copy (R153): a NEAR page in the base die; else in the
home's unit, whose die cache then holds the result as M. During a move the result is written through, and the whole line goes to the target (R181). -/
def State.atomAt (s : State) (w : Who) (line op addr : Nat) (near : Bool) (a : AtomArgs) : BitVec 128 × Bool × State :=
  let s := s.lineAccess w line 1
  let d := s.rdLocal line
  let p := anyPsn d
  let n := a.width / 8
  let off := alignDown (addr % 64) n
  let (new, old) := atomLine op a.width off a.opnd a.cmp (bytesOf d)
  let s := s.recallLine line true
  match s.refuses w.hood line with
  | some s => (old, p, s)
  | none =>
    let all := splice (bytesOf d) off new
    match s.moveTwin line with
    | some (_, t) => (old, p, (s.chanWr line off (new.map (fun b => (b, p)))).twinWr w t 0 (all.map (fun b => (b, p))))
    | none =>
      if near || s.keyless line || s.chanDown (chanOfLine line) then (old, p, s.chanWr line off (new.map (fun b => (b, p))))
      else
        let c := homeDie line
        (old, p, (s.setCopy c line .M all p).setDir line { sharers := [], owner := some c })

/-- Complete a request for which nothing more must be collected. -/
def State.homeReply (s : State) (line : Nat) (r : CReq) : State :=
  let e := s.dirOf line
  match r with
  | .rdS w q =>
    let (d, p) := s.homeLine line
    let s := s.fetchLine w line
    let sole := e.sharers.isEmpty && e.owner.isNone && isLocalLine line && (s.moveTwin line).isNone
    let s := s.setDir line (if sole then { sharers := [], owner := some q } else { sharers := if e.sharers.contains q then e.sharers else e.sharers ++ [q], owner := none })
    (s.sendC (.data line q d sole p)).answered line false
  | .rdX w q => s.giveX w line q
  | .upg w q =>
    if (e.sharers.contains q || e.owner == some q) && (s.copyOf q line).isSome then
      ((s.setDir line { sharers := [], owner := some q }).sendC (.grant line q)).answered line false
    else s.giveX w line q
  | .rdU w q =>
    let (d, p) := s.homeLine line
    ((s.lineAccess w line 1).sendC (.data line q d false p)).answered line false
  | .wrU w q off d =>
    let s := s.lineAccess w line (if d.length = 64 then 1 else 2)
    let s := match s.refuses w.hood line with
      | some s => s
      | none => s.homeWr w line off (clean d)
    (s.sendC (.wrAck line q)).answered line false
  | .atom w op addr near a =>
    let (old, p, s) := s.atomAt w line op addr near a
    (s.sendC (if a.ret then .atomResult line a.req old p else .wrAck line a.req)).answered line false
  | .wbM q => (s.sendC (.done line q)).answered line false
  | .evC q => (s.sendC (.done line q)).answered line false
  | .evict => (s.setDir line {}).answered line true

/-- Send the messages of FWD that a request needs, and await their answers. -/
def State.collect (s : State) (line : Nat) (r : CReq) (hs : List Nat) (m : Nat → CMsg) : State :=
  if hs.isEmpty then s.homeReply line r
  else hs.foldl (fun s h => s.sendC (m h)) (s.setTxn line { s.txnOf line with acks := hs })

/-- Begin a request on a line that enters B (Table 7). -/
def State.beginReq (s : State) (line : Nat) (r : CReq) : State :=
  let e := s.dirOf line
  let q := r.from
  let s := s.setTxn line { s.txnOf line with req := r, acks := [], sup := false, got := false }
  let fromOwner := fun (m : Nat → CMsg) => match e.owner with
    | some o => if o = q then s.homeReply line r else s.collect line r [o] m
    | none => s.homeReply line r
  let clear := fun (hs : List Nat) => match e.owner with
    | some o => s.collect line r [o] (.recall line)
    | none => s.collect line r hs (.inv line)
  let own := fun (hs : List Nat) => match e.owner with
    | some o => if o = q then s.homeReply line r else s.collect line r [o] (fun o => .fwdX line o q)
    | none => s.collect line r hs (.inv line)
  match r with
  | .rdS _ q => fromOwner (fun o => .fwdS line o q)
  | .rdX _ q => own (e.sharers.filter (fun h => h != q))
  | .upg _ q => own (e.sharers.filter (fun h => h != q))
  | .rdU .. => match e.owner with | some o => s.collect line r [o] (fun o => .fwdRd line o q) | none => s.homeReply line r
  | .wrU .. => clear e.sharers
  | .atom .. => clear e.sharers
  | .evict => clear e.sharers
  | .wbM q =>
    match s.copyOf q line with
    | some l => if e.owner == some q && l.st == .M then (s.setTxn line { s.txnOf line with acks := [q] }).sendC (.wbData line q l.data l.psn) else s.homeReply line r
    | none => s.homeReply line r
  | .evC q =>
    let o := if e.owner == some q && ((s.copyOf q line).map (fun l => l.st == .M)).getD false then e.owner else e.owner.filter (fun o => o != q)
    (s.setDir line { sharers := e.sharers.filter (fun h => h != q), owner := o }).homeReply line r

/-- Does a request make a directory entry? -/
def CReq.makesEntry : CReq → Bool
  | .rdS .. => true
  | .rdX .. => true
  | .upg .. => true
  | .atom _ _ _ near _ => !near
  | _ => false

/-- The entries of a line's set in use: those kept, and those that a line in B is about to make (R146). -/
def State.setInUse (s : State) (line : Nat) : List Nat :=
  let same := fun (l : Nat) => s.dirHome l == s.dirHome line && dirSetOf l == dirSetOf line
  s.coh.lru.filter same ++
    ((s.coh.txns.filter (fun e => (s.coh.dir.find e.1).isNone && e.2.req.makesEntry && same e.1)).map (fun e => e.1))

/-- Whether a request can begin: now, after the eviction of the least recently used entry of its set that is not in B (R151), or later, since a
directory holds 512 transactions (R148) and a set 16 entries. -/
inductive Entry where
  | now | evict (victim : Nat) | later
  deriving DecidableEq, Repr, Inhabited

def State.entryFor (s : State) (line : Nat) (r : CReq) : Entry :=
  if 512 ≤ (s.coh.txns.filter (fun e => s.dirHome e.1 == s.dirHome line)).length then .later
  else if !r.makesEntry || (s.coh.dir.find line).isSome then .now
  else if s.coh.lru.length + s.coh.txns.length < 16 then .now
  else
    let l := s.setInUse line
    if l.length < 16 then .now
    else match (l.filter (fun k => (s.coh.txns.find k).isNone)).getLast? with
      | some v => .evict v
      | none => .later

/-- A REQ reaches its home: it waits in arrival order behind a line in B or behind a request to its line that waits (R140, R146, R148), or for a
directory entry or a transaction (R148, R151). -/
def State.homeReq (s : State) (line : Nat) (r : CReq) : State :=
  let wait := { s with coh := { s.coh with waiting := s.coh.waiting ++ [(line, r)] } }
  match s.coh.txns.find line with
  | some t => s.setTxn line { t with queue := t.queue ++ [r] }
  | none =>
    if s.coh.waiting.any (fun p => p.1 == line) then wait
    else match s.entryFor line r with
      | .now => s.beginReq line r
      | .evict v => wait.beginReq v .evict
      | .later => wait

/-- The requests that waited for an entry or a transaction are tried again, in order. -/
def State.tryWaiting (s : State) : State :=
  s.coh.waiting.foldl (fun s p => s.homeReq p.1 p.2) { s with coh := { s.coh with waiting := [] } }

/-- Lines go to I in every cache without writeback, and what was in flight about them ends. -/
def State.purge (s : State) (p : Nat → Bool) : State :=
  let c := s.coh
  State.tryWaiting { s with coh := { c with
    caches := c.caches.filter (fun e => !p (e.1 % 2 ^ 120)), dir := c.dir.filter (fun e => !p e.1), lru := c.lru.filter (fun l => !p l)
    txns := c.txns.filter (fun e => !p e.1), msgs := c.msgs.filter (fun m => !p m.line), waiting := c.waiting.filter (fun w => !p w.1) } }

/-- End a transaction whose requester has its answer and for which nothing is awaited; the next request begins, and those that waited
for an entry are tried again. -/
def State.endTxn (s : State) (line : Nat) : State :=
  match s.coh.txns.find line with
  | none => s
  | some t =>
    if !t.sup || !t.got || !t.acks.isEmpty then s
    else
      let s := { s with coh := { s.coh with txns := s.coh.txns.erase line } }
      let s := match t.queue with
        | [] => s
        | r :: l => (s.setTxn line { queue := l }).beginReq line r
      s.tryWaiting

/-- An answer of a holder has arrived. `gave`: the holder has supplied the requester, or written back. -/
def State.ackFrom (s : State) (line h : Nat) (gave : Bool) : State :=
  match s.coh.txns.find line with
  | none => s
  | some t =>
    if !t.acks.contains h then s
    else
      let e := s.dirOf line
      let t := { t with acks := t.acks.filter (fun x => x != h), sup := t.sup || gave }
      let gone : Dir := { sharers := e.sharers.filter (fun x => x != h), owner := e.owner.filter (fun x => x != h) }
      let s := s.setTxn line t
      let s := if gave then
          match t.req with
          | .rdS _ q => s.setDir line { sharers := [h, q].eraseDups, owner := none }
          | .rdX _ q => s.setDir line { sharers := [], owner := some q }
          | .upg _ q => s.setDir line { sharers := [], owner := some q }
          | _ => s
        else s.setDir line gone
      let s := if t.acks.isEmpty && !t.sup then s.homeReply line t.req else s
      s.endTxn line

/-- A requester has received its answer. -/
def State.arrived (s : State) (line : Nat) : State :=
  match s.coh.txns.find line with
  | some t => (s.setTxn line { t with got := true }).endTxn line
  | none => s

/-- What an uncached requester has received. -/
def State.receive (s : State) (q line : Nat) (d : List Byte) (p : Bool) : State :=
  { s with coh := { s.coh with got := s.coh.got ++ [(q, line, d, p)] } }

/-! ### Messages arrive (R148) -/

/-- A message arrives: a holder answers a FWD from its current state at once, even while its own request is outstanding; RSP and DAT messages are
always taken. -/
def State.deliver (s : State) (m : CMsg) : State :=
  let s := s.takeMsg m
  match m with
  | .fwdS line h q =>
    match s.copyOf h line with
    | some c =>
      let s := (s.sendC (.data line q c.data false c.psn)).setCopy h line .S c.data c.psn
      if c.st == .M then s.sendC (.wbData line h c.data c.psn) else s.sendC (.done line h)
    | none => s.sendC (.invAck line h)
  | .fwdX line h q =>
    match s.copyOf h line with
    | some c => ((s.sendC (.dataX line q c.data c.psn)).dropCopy h line).sendC (.done line h)
    | none => s.sendC (.invAck line h)
  | .fwdRd line h q =>
    match s.copyOf h line with
    | some c => (s.sendC (.data line q c.data false c.psn)).sendC (.done line h)
    | none => s.sendC (.invAck line h)
  | .inv line h => (s.dropCopy h line).sendC (.invAck line h)
  | .recall line h =>
    let ans : CMsg := match s.copyOf h line with
      | some c => if c.st == .M then .wbData line h c.data c.psn else .invAck line h
      | none => .invAck line h
    (s.dropCopy h line).sendC ans
  | .invAck line h => s.ackFrom line h false
  | .done line src =>
    match (s.txnOf line).req with
    | .wbM q => if q = src then (s.dropCopy src line).arrived line else s.ackFrom line src true
    | .evC q => if q = src then (s.dropCopy src line).arrived line else s.ackFrom line src true
    | _ => s.ackFrom line src true
  | .grant line q =>
    (match s.copyOf q line with | some c => s.setCopy q line .M c.data c.psn | none => s).arrived line
  | .atomResult line q v p => (s.receive q line (leBytes 16 v.toNat) p).arrived line
  | .wrAck line q => (s.receive q line [] false).arrived line
  | .data line q d e p =>
    (match (s.txnOf line).req with
      | .rdS .. => if s.farGone line then s.leaveDir q line else s.setCopy q line (if e then .E else .S) d p
      | _ => s.receive q line d p).arrived line
  | .dataX line q d p => (s.setCopy q line .M d p).arrived line
  | .wbData line src d p =>
    let s := s.writeBack line d p
    match (s.txnOf line).req with
    | .rdS .. => s.ackFrom line src true
    | .wbM q =>
      if q = src then
        ((s.setTxn line { s.txnOf line with acks := [] }).setDir line { s.dirOf line with owner := none }).homeReply line (.wbM q)
      else s.ackFrom line src false
    | _ => s.ackFrom line src false

/-- Deliver the messages about a line until it has left B and no request to it waits: forward progress rests on nothing else (R149). -/
def drainN : Nat → State → Nat → State
  | 0, s, _ => s
  | n + 1, s, line =>
    match s.coh.msgs.find? (fun m => m.line == line) with
    | some m => drainN n (s.deliver m) line
    | none =>
      if s.coh.waiting.any (fun p => p.1 == line) then
        match s.coh.msgs with
        | m :: _ => drainN n (s.deliver m) line
        | [] => s
      else s

/-- An access of an engine waits at the home behind the requests that came before it (R140, R145): it runs once the line has left B. -/
def State.drainLine (s : State) (line : Nat) : State := drainN 4096 s line

/-! ### Accesses to one local line -/

/-- An uncached read of a line (RdU, R150): an owner supplies a copy, else the channel. -/
def State.rdU (s : State) (w : Who) (line : Nat) : List PB × State :=
  let s := s.drainLine line
  (s.rdLocal line, s.lineAccess w line (if (s.ownerData line).isSome then 0 else 1))

/-- An uncached or partial write of a line (WrU, R97, R150, R155, R191). -/
def State.wrU (s : State) (w : Who) (line off : Nat) (d : List PB) : State :=
  let s := (s.drainLine line).lineAccess w line (if d.length = 64 then 1 else 2)
  match s.refuses w.hood line with
  | some s => s
  | none => s.homeWr w line off d

/-- A read of a line through a cache: a hit, or a fill by RdS (R144, R150). A line whose lender is lost is not filled (R156). -/
def State.rdCached (s : State) (w : Who) (c line : Nat) : List PB × State :=
  match s.copyOf c line with
  | some l => ((slice l.data 0 64).map (fun b => (b, l.psn)), s)
  | none =>
    let s := (s.homeReq line (.rdS w c)).drainLine line
    match s.copyOf c line with
    | some l => ((slice l.data 0 64).map (fun b => (b, l.psn)), s)
    | none => (List.replicate 64 (0xFF, true), s)

/-- A write of a line through a cache (R144, R150): a line in E becomes M without a message; otherwise ownership is asked for. A read-only line takes
no write, and the lines of a move are written through (R181). -/
def State.wrCached (s : State) (w : Who) (c line off : Nat) (d : List PB) : State :=
  match s.refuses w.hood line with
  | some s => s
  | none =>
    if (s.moveTwin line).isSome || s.keyless line || s.chanDown (chanOfLine line) then s.wrU w line off d
    else
      let own := fun (s : State) => ((s.copyOf c line).filter (fun l => l.st == .M || l.st == .E))
      let s := if (own s).isSome then s
        else (s.homeReq line (if (s.copyOf c line).isSome then .upg w c else .rdX w c)).drainLine line
      match own s with
      | some l => s.setCopy c line .M (splice l.data off (bytesOf d)) (anyPsn d || (l.psn && decide (d.length < 64)))
      | none => s.wrU w line off d

end Sys2Proof.Machine
end

