-- ==== Sys2Proof/Machine/Memory.lean ====
section
/-!
DEFINITION. Machine/Memory.lean: accesses to the memory of a hood (R107): through the die caches, uncached, or over Stader to a lender (R109, R144,
R154), moves (R181), read-only ranges (R155, R191), host memory, and the hot lists (R105, R106).
-/
namespace Sys2Proof.Machine

/-! ### Lines of a hood -/

/-- What an access changes: memory, caches, links, counters and registers, and nothing of the work or of the blocks. -/
def State.memSide (s t : State) : State :=
  { s with free := t.free, regs := t.regs, chans := t.chans, mem := t.mem, poison := t.poison, farMem := t.farMem, farPsn := t.farPsn,
           bands := t.bands, coh := t.coh, links := t.links, stl := t.stl, hat := { s.hat with linkAuth := t.hat.linkAuth }, outs := t.outs }

/-- Who reads or writes, and the cache that serves it: none for an uncached access (R144). -/
structure Acc where
  who   : Who := {}
  cache : Option Nat := none
  deriving DecidableEq, Repr, Inhabited

/-- Read one aligned line of a hood address in a block. A line that cannot be reached reads poisoned. -/
def State.rdLineB (s : State) (a : Acc) (b : Block) (la : Nat) : List PB × State :=
  match b.rangeAt la with
  | none => (List.replicate 64 (0xFF, true), s)
  | some r =>
    match r.place b la with
    | .loc ga => match a.cache with | some c => s.rdCached a.who c (ga / 64) | none => s.rdU a.who (ga / 64)
    | .far p ls x c =>
      if !s.pathUp c p then (List.replicate 64 (0xFF, true), s)
      else
        match a.cache, r.ro with
        | some k, true => s.rdCached a.who k (farLine p ls (s.keyIdx a.who.hood b.keydom) x)
        | _, _ => (s.farBytes p ls x 64, (s.lineAccess a.who (farLine p ls 0 x) 1).sendMreq a.who la p ls c (fun l => .rdU l x 64))
    | _ => (List.replicate 64 (0xFF, true), s)

/-- Write bytes of a line at a place of a hood's memory: a borrowed range takes them as an MREQ, and the lender drops them where it lent
read-only (R154, R155). -/
def State.wrPlace (s : State) (a : Acc) (ro : Bool) (la off : Nat) (p : Place) (d : List PB) : State :=
  match p with
  | .loc ga => match a.cache with | some c => s.wrCached a.who c (ga / 64) off d | none => s.wrU a.who (ga / 64) off d
  | .far p ls x c =>
    if s.pathUp c p then
      let s := (s.lineAccess a.who (farLine p ls 0 x) (if d.length = 64 then 1 else 2)).sendMreq a.who la p ls c
        (fun l => .wrU l (x + off) (bytesOf d) (if anyPsn d then [0] else []))
      if ro then s else s.farWr p ls (x + off) d
    else s
  | _ => s

/-- Write part or all of one aligned line. A write to a read-only range has no effect (R191); a move in progress writes its target too (R181): a
local source does so at its home, a borrowed one at its carrier. -/
def State.wrLineB (s : State) (a : Acc) (b : Block) (la off : Nat) (d : List PB) : State :=
  match b.rangeAt la with
  | none => s
  | some r =>
    let s := s.wrPlace a (s.roNow a.who.hood r) la off (r.place b la) d
    match r.state, r.target, r.borrowed with
    | 2, some t, true => s.twinWr a.who (t.place b r la) off d
    | _, _, _ => s

/-- Read bytes at a hood address of a block, line by line. -/
def rdLines : Nat → State → Acc → Block → Nat → List PB → List PB × State
  | 0, s, _, _, _, acc => (acc, s)
  | n + 1, s, a, b, la, acc =>
    let (d, s) := s.rdLineB a b la
    rdLines n s a b (la + 64) (acc ++ d)

def State.rdB (s : State) (a : Acc) (b : Block) (x n : Nat) : List PB × State :=
  let (d, t) := rdLines (linesIn x n) s a b (x / 64 * 64) []
  ((d.drop (x % 64)).take n, s.memSide t)

/-- Write bytes at a hood address of a block, line by line. -/
def State.wrB (s : State) (a : Acc) (b : Block) (x : Nat) (d : List PB) : State :=
  s.memSide (forN (linesIn x d.length) s (fun s i =>
    let la := (x / 64 + i) * 64
    let lo := max x la
    let hi := min (x + d.length) (la + 64)
    s.wrLineB a b la (lo - la) ((d.drop (lo - x)).take (hi - lo))))

/-- What a byte interval of a hood holds, as a read of it would show once what is in flight to it has arrived. -/
def State.seen (s : State) (h x n : Nat) : List PB := (s.rdB {} (s.hood h).block x n).1

/-- Does an interval touch a LOST range, or a borrowed one whose path is gone? -/
def State.lostIn (s : State) (h a n : Nat) : Bool :=
  (s.hood h).block.ranges.any (fun r => overlaps a n r.hbase r.len &&
    (r.state == 4 || (r.borrowed && !s.pathUp r.carrier r.lender)))

/-! ### Hot lists (R105, R106) -/

/-- Write one hot-list entry (Table 3 of Birier Memory) at a hood's list, or count the drop (R106). -/
def State.hotWrite (s : State) (h e : Nat) : State :=
  let pi := s.reg rBIR_HOT_PI h
  let size := s.reg rBIR_HOT_SIZE h
  if size ≤ (pi + 2 ^ 32 - s.reg rBIR_HOT_CI h) % 2 ^ 32 then s.countReg rBIR_HOT_DROP h 1
  else
    (s.wrB { who := { hood := h } } (s.hood h).block (s.reg rBIR_HOT_BASE h + 8 * (pi % size)) (clean (leBytes 8 e))).setReg rBIR_HOT_PI h
      ((pi + 1) % 2 ^ 32)

/-- The base dies append the entries that counters have sent. Their writes are line accesses too, and may send more. -/
def hotFlush : Nat → State → State
  | 0, s => s
  | n + 1, s =>
    match s.coh.hot with
    | [] => s
    | (h, e) :: l => hotFlush n (({ s with coh := { s.coh with hot := l } }).hotWrite h e)

/-- The end of an access: hot-list entries reach memory. -/
def State.settled (s : State) : State := s.memSide (hotFlush 4096 s)

/-- Read and write through the current block of a hood. -/
def State.rdHood (s : State) (a : Acc) (x n : Nat) : List PB × State :=
  let (d, s) := s.rdB a (s.hood a.who.hood).block x n
  (d, s.settled)

def State.wrHood (s : State) (a : Acc) (x : Nat) (d : List PB) : State := (s.wrB a (s.hood a.who.hood).block x d).settled

/-! ### Host memory -/

def State.hostRd (s : State) (a n : Nat) : List Byte :=
  (List.range n).map (fun i => (s.hostMem.find (a + i)).getD (Config.hostByte (a + i)))

def State.hostWr (s : State) (a : Nat) (d : List Byte) : State :=
  { s with hostMem := ((List.range d.length).zip d).foldl (fun m p => m.insert (a + p.1) p.2) s.hostMem }

end Sys2Proof.Machine
end

