-- ==== Sys2Proof/Machine/Xlat.lean ====
section
/-!
DEFINITION. Machine/Xlat.lean: page-table walks (R108 to R111), translation caches (R112), host translations (R113, R114) and
the transfers of engines by virtual address, piece by piece, up to the first stop (R115, R119, R127).
-/
namespace Sys2Proof.Machine

/-- An engine at work for a context. -/
structure Eng where
  hood : Nat
  ctx  : Nat
  loc  : Nat                        -- translation cache (Table 6 of Birier Memory)
  cls  : Nat                        -- hatband class; 4 = charged to none
  kind : Nat                        -- ENGINE class of a fault record
  num  : Nat                        -- site index or engine number
  ring : Option Nat := none         -- the ring whose work it runs
  work : Option Nat := none         -- that work
  deriving DecidableEq, Repr, Inhabited

/-- Why a transfer stops. -/
inductive Stop where
  | fault (typ access level : Nat) (entry : BitVec 64) (va rem : Nat)  -- translation fault (R117)
  | ats (pasid page : Nat) (write : Bool)                  -- waits on the host's translation (R113)
  | held                                                   -- held while Bus Master Enable is clear (R225)
  | lost                                                   -- a LOST range or a lost path (R156)
  | order                                                  -- held behind an access of the draining epoch (R172)
  deriving DecidableEq, Repr, Inhabited

/-- A leaf entry with the page it maps. -/
structure Leaf where
  ent  : BitVec 64
  page : Nat
  size : Nat
  deriving DecidableEq, Repr, Inhabited

/-- Shift of the VA bits that index a level (Table 4 of Birier Memory). -/
def lvlShift (l : Nat) : Nat := if l = 0 then 16 else 12 + 9 * l

/-- The VA index into a table of a level. -/
def lvlIndex (l va : Nat) : Nat := bits va (lvlShift l) (if l = 0 then 5 else 9)

/-- The engine's accesses to memory under the current epoch: MT = 0 through the cache that serves it, a die cache for a tile, the spine cache for
the front end and the copy engines, none for a link die (R144). -/
def Eng.acc (s : State) (e : Eng) (mt : Nat) : Acc :=
  { who := { hood := e.hood, cls := e.cls, queue := e.ring, work := e.work, epoch := s.reg rHOOD_EPOCH e.hood }
    cache := if mt = 1 ∨ mt = 2 then none else if e.loc < 128 then some (e.loc / 16) else if e.loc = 128 then some 8 else none }

/-- The address of the table that a table entry at level `l` names, less the bits below its alignment (R108, R109). -/
def tableAddr (l : Nat) (v : BitVec 64) : Nat := bits v.toNat (if l = 1 then 8 else 12) (if l = 1 then 44 else 40) <<< (if l = 1 then 8 else 12)

/-- Is an entry read at a level a leaf (R109)? -/
def isLeaf (l : Nat) (v : BitVec 64) : Bool := l == 0 || (decide (l ≤ 2) && v.getLsbD 1)

/-- Walk from a table at a level (R108, R109); tables are read through the caches. The valid entries read at L3 to L1 come with the answer. -/
def walkAt (a : Acc) (b : Block) (va rem : Nat) : State → Nat → Nat → BitVec 64 → List (Nat × BitVec 64) → Except Stop Leaf × State × List (Nat × BitVec 64)
  | s, l, table, above, seen =>
    let ea := table + 8 * lvlIndex l va
    if (b.rangeAt ea).isNone then (.error (.fault 4 3 l above va rem), s, seen)
    else
      let (e, s) := s.rdB a b ea 8
      if anyPsn e then (.error (.fault 6 3 l 0 va rem), s, seen)
      else
        let v := BitVec.ofNat 64 (leNat (bytesOf e))
        if !v.getLsbD 0 then (.error (.fault 0 9 l v va rem), s, seen)
        else
          let seen := if l = 0 then seen else seen ++ [(l, v)]
          if isLeaf l v then (.ok ⟨v, alignDown va (2 ^ lvlShift l), 2 ^ lvlShift l⟩, s, seen)
          else
            match l with
            | 0 => (.error (.fault 0 9 0 v va rem), s, seen)
            | l' + 1 => walkAt a b va rem s l' (tableAddr (l' + 1) v) v seen

/-- A full walk of a virtual address in a context under the current epoch. -/
def State.walkFull (s : State) (e : Eng) (va rem : Nat) : Except Stop Leaf × State × List (Nat × BitVec 64) :=
  walkAt (e.acc s 0) (s.hood e.hood).block (va % 2 ^ 48) rem s 3 ((s.ctx e.ctx).ptroot) 0 []

/-- Put an entry at the front of a cache of `n` entries; with all in use some entry goes, the rule of replacement being open (R112, log entry 85). -/
def cachePut {α : Type} (n f : Nat) (mine : α → Bool) (x : α) (l : List α) : List α :=
  let k := (l.filter mine).length
  if k < n then x :: l
  else
    let v := Config.choice f % k
    x :: ((l.foldl (fun (q : Nat × List α) y => if mine y then (q.1 + 1, if q.1 = v then q.2 else q.2 ++ [y]) else (q.1, q.2 ++ [y])) (0, [])).2)

/-- A die walker remembers the valid entries it read (R112). -/
def State.walkPut (s : State) (e : Eng) (va : Nat) (l : List (Nat × BitVec 64)) : State :=
  if 128 ≤ e.loc then s
  else l.foldl (fun s p =>
    let w : WalkEnt := { die := e.loc / 16, ctx := e.ctx, hood := e.hood, gen := (s.hood e.hood).gen, level := p.1
                         page := alignDown va (2 ^ lvlShift p.1), ent := p.2 }
    let same := fun (q : WalkEnt) => q.die == w.die && q.ctx == w.ctx && q.hood == w.hood && q.level == w.level && q.page == w.page
    let ws := s.xlt.walks.filter (fun q => !same q)
    if (ws.filter (fun q => q.die == w.die)).length < 2048 then { s with xlt := { s.xlt with walks := w :: ws } }
    else
      let (f, s) := s.draw
      { s with xlt := { s.xlt with walks := cachePut 2048 f (fun q => q.die == w.die) w ws } }) s

/-- The deepest entry of the die's walk cache on the path of an address. -/
def State.walkHit (s : State) (e : Eng) (va : Nat) : Option WalkEnt :=
  let ok := fun (l : Nat) (w : WalkEnt) => w.die == e.loc / 16 && w.ctx == e.ctx && w.hood == e.hood && w.gen == (s.hood e.hood).gen && w.level == l
    && w.page == alignDown va (2 ^ lvlShift l)
  if 128 ≤ e.loc then none
  else ((s.xlt.walks.find? (ok 1)).orElse (fun _ => s.xlt.walks.find? (ok 2))).orElse (fun _ => s.xlt.walks.find? (ok 3))

/-- Go on from a cached entry. -/
def State.walkFrom (s : State) (e : Eng) (w : WalkEnt) (va rem : Nat) : Except Stop Leaf × State × List (Nat × BitVec 64) :=
  if isLeaf w.level w.ent then (.ok ⟨w.ent, alignDown va (2 ^ lvlShift w.level), 2 ^ lvlShift w.level⟩, s, [])
  else walkAt (e.acc s 0) (s.hood e.hood).block va rem s (w.level - 1) (tableAddr w.level w.ent) w.ent []

/-- The walk of a virtual address (R108, R112). Where a cached entry leads elsewhere than the tables do, the walk uses either of the two until the
invalidation of R125 (R111, log entry 6). -/
def State.walk (s : State) (e : Eng) (va rem : Nat) : Except Stop Leaf × State :=
  let va := va % 2 ^ 48
  let fin := fun (r : Except Stop Leaf × State × List (Nat × BitVec 64)) => (r.1, r.2.1.walkPut e va r.2.2)
  match s.walkHit e va with
  | none => fin (s.walkFull e va rem)
  | some w =>
    let near := s.walkFrom e w va rem
    match near.1, (s.walkFull e va rem).1 with
    | .ok l, .ok l' =>
      if l = l' then fin near
      else
        let (f, s) := s.draw
        if Config.choice f % 2 = 1 then fin (s.walkFrom e w va rem) else fin (s.walkFull e va rem)
    | .error x, .error y =>
      if x = y then fin near
      else
        let (f, s) := s.draw
        if Config.choice f % 2 = 1 then fin (s.walkFrom e w va rem) else fin (s.walkFull e va rem)
    | _, _ =>
      let (f, s) := s.draw
      if Config.choice f % 2 = 1 then fin (s.walkFrom e w va rem) else fin (s.walkFull e va rem)

/-- The hood address a leaf entry gives a virtual address (R107, R109). -/
def Leaf.addr (l : Leaf) (va : Nat) : Nat := alignDown (bits l.ent.toNat 16 36 <<< 16) l.size + va % l.size

/-- Check the right of an access kind: 0 read, 1 write, 2 atomic (R110, R113). -/
def Leaf.denied (l : Leaf) (acc : Nat) : Option Nat :=
  if !l.ent.getLsbD (2 + acc) then some (1 + acc)
  else if acc = 2 ∧ l.ent.getLsbD 5 then some 3
  else none

/-- A cached translation that serves an address (R112). -/
def State.tlbHit (s : State) (e : Eng) (va : Nat) : Option Leaf :=
  (s.xlt.tlbs.find? (fun t => t.loc == e.loc && t.ctx == e.ctx && t.hood == e.hood && t.gen == (s.hood e.hood).gen
    && decide (t.page ≤ va) && decide (va < t.page + t.size))).map (fun t => ⟨t.ent, t.page, t.size⟩)

/-- Entries of a translation cache (Table 6 of Birier Memory). -/
def tlbSize (loc : Nat) : Nat := if loc = 128 then 1024 else 256

/-- Keep a translation in a cache; no entry with V = 0 is ever kept (R111). -/
def State.tlbPut (s : State) (e : Eng) (l : Leaf) : State :=
  let t : Tlb := { loc := e.loc, ctx := e.ctx, hood := e.hood, gen := (s.hood e.hood).gen, page := l.page, size := l.size, ent := l.ent }
  let ts := s.xlt.tlbs.filter (fun u => !(u.loc == t.loc && u.ctx == t.ctx && u.hood == t.hood && u.page == t.page && u.size == t.size))
  if (ts.filter (fun u => u.loc == t.loc)).length < tlbSize t.loc then { s with xlt := { s.xlt with tlbs := t :: ts } }
  else
    let (f, s) := s.draw
    { s with xlt := { s.xlt with tlbs := cachePut (tlbSize t.loc) f (fun u => u.loc == t.loc) t ts } }

/-- Walk, and keep what the walk found. -/
def State.walkKeep (s : State) (e : Eng) (va rem : Nat) : Except Stop Leaf × State :=
  match s.walk e va rem with
  | (.ok l, s) => (.ok l, s.tlbPut e l)
  | (.error x, s) => (.error x, s)

/-- Translate for an access of a kind: a cached entry that grants it, or a walk. A cached entry without the right is walked again, so that a right that
was added needs no invalidation; where a cached entry differs from the tables, either serves until the invalidation of R125 (R111, log entry 6). -/
def State.translate (s : State) (e : Eng) (va rem acc : Nat) : Except Stop Leaf × State :=
  match (s.tlbHit e va).filter (fun l => (l.denied acc).isNone) with
  | none => s.walkKeep e va rem
  | some l =>
    match (s.walkFull e va rem).1 with
    | .ok l' =>
      if l = l' then (.ok l, s)
      else
        let (f, s) := s.draw
        if Config.choice f % 2 = 1 then (.ok l, s) else s.walkKeep e va rem
    | .error _ =>
      let (f, s) := s.draw
      if Config.choice f % 2 = 1 then (.ok l, s) else s.walkKeep e va rem

/-- A cached host translation (R112 to R114): the answer that covers a page of a context. -/
def State.atsHit (s : State) (h c pasid page : Nat) : Option Ats :=
  s.xlt.ats.find? (fun a => a.hood == h && a.ctx == c && a.gen == (s.hood h).gen && a.pasid == pasid && decide (a.page ≤ page)
    && decide (page < a.page + a.pages))

/-- The host page of a page that an answer covers. -/
def Ats.hostOf (a : Ats) (page : Nat) : Nat := a.host + (page - a.page)

/-- Where the first byte of a piece goes, how many bytes the piece may take, and the memory type of its page. -/
inductive Dest where
  | dev  (a room mt : Nat)
  | host (a room : Nat)
  | stop (x : Stop)
  deriving DecidableEq, Repr, Inhabited

/-- A page whose PRI response was a failure: the access that waited for it raises HOST_DENIED, once (R114). -/
def State.takeDenied (s : State) (e : Eng) (pasid page : Nat) : Option State :=
  match s.xlt.denied.find? (fun d => d.hood == e.hood && d.pasid == pasid && d.page == page && d.work == e.work && d.ring == e.ring) with
  | some d => some { s with xlt := { s.xlt with denied := s.xlt.denied.erase d } }
  | none => none

/-- Must an access of a queue wait behind one of its accesses to the same line, or behind more than 256 of them, that was routed under the draining
epoch and is not acknowledged (R172)? -/
def State.ordered (s : State) (w : Who) (a n : Nat) : Bool :=
  let old := s.stl.mreqs.filter (fun m => m.who.hood == w.hood && m.who.queue.isSome && m.who.queue == w.queue && m.who.epoch != w.epoch)
  decide (256 < old.length) || old.any (fun m => overlaps a n m.ha 64)

/-- Translate the start of a piece: rights (R110), the block (OUT_OF_BLOCK of R117), host permission (R113, R225). -/
def State.pieceAt (s : State) (e : Eng) (va rem acc : Nat) : Dest × State :=
  let va := va % 2 ^ 48
  match s.translate e va rem acc with
  | (.error (.fault t a l v x r), s) => (.stop (.fault t (if a = 9 then acc else a) l v x r), s)
  | (.error x, s) => (.stop x, s)
  | (.ok l, s) =>
    let lvl := if l.size = 65536 then 0 else if l.size = 2 ^ 21 then 1 else 2
    match l.denied acc with
    | some t => (.stop (.fault t acc lvl l.ent va rem), s)
    | none =>
      if l.ent.getLsbD 5 then
        let c := s.ctx e.ctx
        let pg := l.addr va / 4096
        if !((s.fn (e.hood + 1)).ats && (s.fn 0).pasid && c.pasidv) then (.stop (.fault 5 acc lvl 0 va rem), s)
        else if !s.portOpen e.hood then (.stop .held, s)
        else
          match s.takeDenied e c.pasid pg with
          | some s => (.stop (.fault 5 acc lvl 0 va rem), s)
          | none =>
            match s.atsHit e.hood e.ctx c.pasid pg with
            | some a =>
              if (if acc = 0 then a.r else a.w) then (.host (a.hostOf pg * 4096 + va % 4096) (4096 - va % 4096), s)
              else (.stop (.ats c.pasid pg (acc != 0)), s)
            | none => (.stop (.ats c.pasid pg (acc != 0)), s)
      else
        let a := l.addr va
        let room := 65536 - a % 65536
        let go : Dest := if s.ordered (e.acc s 0).who a (min rem room) then .stop .order else .dev a room (bits l.ent.toNat 6 2)
        match (s.hood e.hood).block.placeOf a with
        | .none => (.stop (.fault 4 acc lvl l.ent va rem), s)
        | .lost => (.stop .lost, s)
        | .far p _ _ c => (if s.pathUp c p then go else .stop .lost, s)
        | .loc _ => (go, s)

/-- Remember that the work of a ring has accessed a lender's memory: its descriptor, or the ring itself (R190). -/
def State.noteLender (s : State) (w r : Option Nat) (p : Nat) : State :=
  match w.bind (fun w => (s.work? w).map (fun x => x.parent.getD w)), r with
  | some t, _ => s.modWork t (fun x => if x.lenders.contains p then x else { x with lenders := x.lenders ++ [p] })
  | none, some r => s.modRing r (fun k => if k.lenders.contains p then k else { k with lenders := k.lenders ++ [p] })
  | none, none => s

def State.noteFar (s : State) (e : Eng) (a : Nat) : State :=
  match (s.hood e.hood).block.placeOf a with
  | .far p _ _ _ => s.noteLender e.work e.ring p
  | _ => s

/-- What a read of host memory brings: after a completion timeout its data counts as poisoned (R228), for that read alone. -/
def State.fromHost (s : State) (e : Eng) (a n : Nat) : List PB × State :=
  let d := s.hostRd a n
  match e.work.bind (fun w => (s.work? w).map (fun x => (w, x.late))) with
  | some (w, true) => (d.map (fun b => (b, true)), s.modWork w (fun x => { x with late := false }))
  | _ => (clean d, s)

/-- Read by virtual address up to the first stop. The fuel bounds the number of pieces. -/
def rdPieces : Nat → State → Eng → Nat → Nat → List PB → List PB × State × Option Stop
  | 0, s, _, _, _, acc => (acc, s, none)
  | k + 1, s, e, va, n, acc =>
    if n = 0 then (acc, s, none)
    else
      match s.pieceAt e va n 0 with
      | (.stop x, s) => (acc, s, some x)
      | (.dev a room mt, s) =>
        let m := min n room
        let (d, s) := (s.noteFar e a).rdHood (e.acc s mt) a m
        rdPieces k s e (va + m) (n - m) (acc ++ d)
      | (.host a room, s) =>
        let m := min n room
        let (d, s) := s.fromHost e a m
        rdPieces k s e (va + m) (n - m) (acc ++ d)

/-- Write by virtual address up to the first stop; the answer is the number of bytes written. -/
def wrPieces : Nat → State → Eng → Nat → List PB → Nat → Nat × State × Option Stop
  | 0, s, _, _, _, k0 => (k0, s, none)
  | k + 1, s, e, va, d, k0 =>
    if d.isEmpty then (k0, s, none)
    else
      match s.pieceAt e va d.length 1 with
      | (.stop x, s) => (k0, s, some x)
      | (.dev a room mt, s) =>
        let p := d.take room
        wrPieces k ((s.noteFar e a).wrHood (e.acc s mt) a p) e (va + p.length) (d.drop room) (k0 + p.length)
      | (.host a room, s) =>
        let p := d.take room
        let s := if anyPsn p then s.toHost (.poisonedWrite e.hood a) else s
        wrPieces k (s.hostWr a (bytesOf p)) e (va + p.length) (d.drop room) (k0 + p.length)

/-- Read `n` bytes at a virtual address. -/
def State.rdVA (s : State) (e : Eng) (va n : Nat) : List PB × State × Option Stop := rdPieces (n / 4096 + 2) s e va n []

/-- Write bytes at a virtual address. -/
def State.wrVA (s : State) (e : Eng) (va : Nat) (d : List PB) : Nat × State × Option Stop :=
  wrPieces (d.length / 4096 + 2) s e va d 0

/-- The front end at the spine's translation unit, charged to no hood (R112, R313). -/
def feEng (h c : Nat) : Eng := { hood := h, ctx := c, loc := 128, cls := 4, kind := 3, num := h }

/-- A copy engine (R112, R312). -/
def copyEng (h c n r : Nat) : Eng := { hood := h, ctx := c, loc := 128, cls := 2, kind := 1, num := n, ring := some r }

/-- A tile's loads and stores (class TILE) and codec transfers (class KV) through its plank port. -/
def tileEng (h c site cls r : Nat) : Eng := { hood := h, ctx := c, loc := plankOf site, cls := cls, kind := 0, num := site, ring := some r }

/-- The engine, at work on a started descriptor, element or node. -/
def Eng.of (e : Eng) (w : Nat) : Eng := { e with work := some w }

/-- Drop the translations of a hood (R112). -/
def State.tlbDropHood (s : State) (h : Nat) : State :=
  { s with xlt := { s.xlt with
    tlbs := s.xlt.tlbs.filter (fun t => t.hood != h), walks := s.xlt.walks.filter (fun w => w.hood != h), ats := s.xlt.ats.filter (fun a => a.hood != h) } }

/-- Drop the translations of a hood that overlap a range of a context, with the walk-cache entries on their paths (R126). -/
def State.tlbDropRange (s : State) (h c va len : Nat) : State :=
  { s with xlt := { s.xlt with
    tlbs := s.xlt.tlbs.filter (fun t => !(t.hood == h && t.ctx == c && overlaps t.page t.size va len))
    walks := s.xlt.walks.filter (fun w => !(w.hood == h && w.ctx == c && overlaps w.page (2 ^ lvlShift w.level) va len)) } }

end Sys2Proof.Machine
end

