-- ==== Sys2Proof/Machine/Work.lean ====
section
/-!
DEFINITION. Machine/Work.lean: the life of a descriptor, chain element or pattern node: claims (R296), charges (R294, R295),
save slots (R301 to R306), starting and scheduling (R248, R297, R298), completion records (R250) and successors (R255, R260).
-/
namespace Sys2Proof.Machine

/-! ### Tiles -/

/-- Empty a tile: every scratchpad line invalid, accumulators and vector registers zero (R299, R323, R357). -/
def State.clearTile (s : State) (i : Nat) : State := { s with tiles := s.tiles.erase i }

/-- A scratchpad byte: zero where its line is invalid (R55). What lies past the end is open (log entry 19). -/
def Tile.rd (t : Tile) (a : Nat) : Byte := if a < 0x100000 then (t.spad.find a).getD 0 else Config.pastEnd a

/-- Is the 512-byte line of an address poisoned? -/
def Tile.psnAt (t : Tile) (a : Nat) : Bool := (t.poison.find (a / 512)).isSome

def Tile.rdN (t : Tile) (a n : Nat) : List PB := (List.range n).map (fun i => (t.rd (a + i), t.psnAt (a + i)))

/-- Write scratchpad bytes. A poisoned byte poisons its 512-byte line; a clean write of all 512 bytes clears it; a partial
write of a poisoned line leaves it poisoned (R55, R100). A written line becomes valid (R358). Bytes past the end are not written. -/
def Tile.wr (t : Tile) (a : Nat) (d : List PB) : Tile :=
  let d := d.take (0x100000 - a)
  let n := d.length
  let lines := if n = 0 then 0 else (a + n - 1) / 512 - a / 512 + 1
  let t := { t with spad := ((List.range n).zip d).foldl (fun m p => if p.2.1 = 0 then m.erase (a + p.1) else m.insert (a + p.1) p.2.1) t.spad }
  (List.range lines).foldl (fun t i =>
    let l := a / 512 + i
    let part := (d.drop (512 * l - a)).take (min (a + n) (512 * l + 512) - max a (512 * l))
    let full := decide (a ≤ 512 * l) && decide (512 * l + 512 ≤ a + n)
    let psn := anyPsn part || (!full && (t.poison.find l).isSome)
    { t with poison := if psn then t.poison.insert l true else t.poison.erase l, valid := t.valid.insert l true }) t

/-- Wake the plank of a site (R323). Whether its current would rise faster than the slope, so that its issue rate ramps (R334), is power that
the model does not hold: a free value (log entry 12). -/
def State.wakePlank (s : State) (p : Nat) : State :=
  if (s.plank p).isol || s.nap.refFault || s.nap.hatFail || s.nap.classB || s.nap.tripped || !(s.plank p).gated then s
  else
    let (f, s) := s.draw
    s.modPlank p (fun k => { k with gated := false, ramp := Config.choice f % 2 })

/-- The site of a logical tile of a hood (R164); 1,664, which is no site, past NTILE. -/
def State.siteOf (s : State) (h lt : Nat) : Nat := (s.tmap h).getD lt 1664

/-- A tile passes to a descriptor of a context: another context's contents are cleared (R299), the plank wakes (R323). -/
def State.giveTile (s : State) (i c : Nat) : State :=
  let s := if (s.site i).lastCtx == some c then s else s.clearTile i
  (s.modSite i (fun k => { k with lastCtx := some c })).wakePlank (plankOf i)

/-! ### Save slots (R301, R305) -/

def slotBytes : Nat := 1122560

/-- P, the number of save slots of a hood. -/
def State.slotCount (s : State) (h : Nat) : Nat := s.reg rHOOD_SAVE_LEN h / slotBytes

def State.slotBase (s : State) (h k : Nat) : Nat := s.reg rHOOD_SAVE_BASE h + slotBytes * k

/-- A save slot that cannot take a state: a poisoned line, an isolated channel, or bytes outside the local ranges of the
current block (R309). -/
def State.slotBad (s : State) (h k : Nat) : Bool :=
  (List.range (slotBytes / 64)).any (fun i => match (s.hood h).block.placeOf (s.slotBase h k + 64 * i) with
    | .loc ga => s.linePsn (ga / 64)
    | _ => true)

/-- The bytes of a tile's state in the layout of Table 1 of Scheduling, less the 256 bytes of controller state. -/
def Tile.bytes (t : Tile) : List PB :=
  t.rdN 0 0x100000 ++
  clean ((List.range 4096).flatMap (fun e => leBytes 16 ((t.acc.find e).getD 0).toNat)) ++
  clean ((List.range 2048).flatMap (fun e => leBytes 4 ((t.vregs.find e).getD 0).toNat))

/-- Rebuild a table of words from saved bytes. -/
def loadWords (w bits n : Nat) (d : List PB) (f : Bool → Nat → Nat) : Table (BitVec bits) :=
  (List.range n).foldl (fun m e =>
    let p := (d.drop (w * e)).take w
    let v := BitVec.ofNat bits (f (anyPsn p) (leNat (bytesOf p)))
    if v = 0 then m else m.insert e v) []

/-- Write a tile's state to its slot (R304). The controller state goes beside it: its 256 bytes have no stated form in memory (log entry 105). -/
def State.saveTile (s : State) (h k i : Nat) : State :=
  let t := s.tile i
  let w : Who := { hood := h, cls := 0, epoch := s.reg rHOOD_EPOCH h }
  let (f, s) := s.draw
  let s := s.wrHood { who := w } (s.slotBase h k) (t.bytes ++ clean ((List.range 256).map (Config.ctlByte f)))
  ({ s with saves := s.saves.put (fun _ => default) (2048 * h + k) { t with spad := [], acc := [], vregs := [] } }).clearTile i

/-- Read a tile's state back from its slot, carrying poison (R306, R309), and free the slot. -/
def State.loadTile (s : State) (h k i : Nat) : State :=
  let w : Who := { hood := h, cls := 0, epoch := s.reg rHOOD_EPOCH h }
  let (d, s) := s.rdHood { who := w } (s.slotBase h k) slotBytes
  let c := at' s.saves (2048 * h + k)
  let t : Tile := { c with
    acc := loadWords 16 128 4096 (d.drop 0x100000) (fun p v => if p then v ||| 2 ^ 127 else v)
    vregs := loadWords 4 32 2048 (d.drop 0x110000) (fun _ v => v) }
  let t := t.wr 0 (d.take 0x100000)
  let t := { t with valid := c.valid }
  let s := { s with tiles := s.tiles.put (fun _ => default) i t, saves := s.saves.erase (2048 * h + k) }
  s.modHood h (fun x => { x with slots := x.slots.filter (fun j => j != k) })

/-- Does a save slot hold poison (R309)? -/
def State.slotPsn (s : State) (h k : Nat) : Bool := anyPsn (s.seen h (s.slotBase h k) slotBytes)

/-- Take the lowest free slots, as many as `n` (R304). -/
def State.takeSlots (s : State) (h n : Nat) : List Nat × State :=
  let l := ((List.range (s.slotCount h)).filter (fun k => !(s.hood h).slots.contains k)).take n
  (l, s.modHood h (fun x => { x with slots := x.slots ++ l }))

def State.freeSlots (s : State) (h : Nat) (ks : List Nat) : State :=
  ks.foldl (fun s k => { s with saves := s.saves.erase (2048 * h + k) })
    (s.modHood h (fun x => { x with slots := x.slots.filter (fun j => !ks.contains j) }))

/-! ### Works -/

def Work.kind (x : Work) : Nat := dKind x.desc
def Work.op (x : Work) : Nat := dOp x.desc

/-- Does a work belong to the current generations of its hood and ring? What does not is discarded (R287, R376). -/
def State.current (s : State) (x : Work) : Bool := x.hgen == (s.hood x.hood).gen && x.rgen == (s.ring x.ring).rgen

/-- The works of a hood, a ring, a parent. -/
def State.worksOf (s : State) (p : Work → Bool) : List (Nat × Work) := s.works.filter (fun e => p e.2)

/-- Tiles of its span that a claim still holds. -/
def Work.heldTiles (x : Work) : List Nat := (List.range x.cnt).filter (fun t => (x.outT.find t).isNone)

/-- Logical tiles of a hood that are claimed, with the claimant. -/
def State.claimedBy (s : State) (h : Nat) : List (Nat × Nat) :=
  (s.worksOf (fun x => x.hood == h && x.holds)).flatMap (fun e => e.2.heldTiles.map (fun t => (e.2.lo + t, e.1)))

/-- Does a logical tile lie on a plank that waits for a plank reset (R28)? -/
def State.inReset (s : State) (h lt : Nat) : Bool := (s.plank (plankOf (s.siteOf h lt))).saveWait

/-- Does a logical tile leave or move under a staged tile map (R175)? -/
def State.inMove (s : State) (h lt : Nat) : Bool :=
  let c := (s.hood h).change
  match c.phase, c.new with
  | .staged, some b => c.cmd == 2 && b.tmap[lt]? != (s.tmap h)[lt]?
  | _, _ => false

/-- Logical tiles to which saved work returns, with that work (R28, R176). -/
def State.pinned (s : State) (h : Nat) : List (Nat × Nat) :=
  (s.worksOf (fun x => x.hood == h && x.parent.isNone && ((x.pin && x.phase == .saved) || !x.outT.isEmpty))).flatMap (fun e =>
    (if e.2.phase == .saved then List.range e.2.cnt else e.2.backT).map (fun t => (e.2.lo + t, e.1)))

/-- Can work `w` take the logical tiles from `lo` on: below NTILE, claimed by none, kept for none, and not about to be reset or moved? -/
def State.spanFree (s : State) (w h lo n : Nat) : Bool :=
  let c := s.claimedBy h
  let k := (s.pinned h).filter (fun p => p.2 != w)
  decide (lo + n ≤ s.ntile h) &&
    (List.range n).all (fun t => !c.any (fun p => p.1 == lo + t) && !k.any (fun p => p.1 == lo + t) && !s.inReset h (lo + t) && !s.inMove h (lo + t))

/-- SAVED of R305: the slots that hold saved states; a slot that a tile is still writing is not one yet. -/
def State.savedCount (s : State) (h : Nat) : Nat :=
  (s.hood h).slots.length -
    ((s.worksOf (fun x => x.hood == h)).map (fun e => (if e.2.phase == .saving then e.2.slots.length else 0) + e.2.moveT.length)).foldl (· + ·) 0

/-- HELD of R305. -/
def State.heldCount (s : State) (h : Nat) : Nat := (s.claimedBy h).length

/-- Charge the time since the last charge (R294, R295): a claim by its tiles, a copy engine as one tile. -/
def State.accrue (s : State) (w : Nat) : State :=
  match s.work? w with
  | none => s
  | some x =>
    let tiles := if x.holds then x.heldTiles.length else if x.engine.isSome then 1 else 0
    let d := (s.now - x.since) * tiles
    let s := s.modWork w (fun x => { x with since := s.now })
    if d = 0 then s
    else
      let s := s.modCtx x.ctx (fun c => { c with usage := satAdd 74 c.usage d, vt := satAdd 64 c.vt (d * 65536 / (max c.share 1)) })
      s.modHood x.hood (fun k => { k with usageNs := satAdd 74 k.usageNs d })

def State.accrueHood (s : State) (h : Nat) : State :=
  (s.worksOf (fun x => x.hood == h)).foldl (fun s e => s.accrue e.1) s

/-! ### Claims (R296) -/

/-- Tiles LT0 to LT0 + n - 1 cut to NTILE. -/
def clipSpan (nt lo n : Nat) : Nat := min n (nt - lo)

/-- The interval from the lowest to the highest logical tile of a list of kernel descriptors. -/
def kernelSpan (ds : List (List Byte)) : Nat × Nat :=
  let ks := ds.filter (fun d => dKind d == 1)
  match ks with
  | [] => (0, 0)
  | k :: r =>
    let lo := r.foldl (fun a d => min a (kLt0 d)) (kLt0 k)
    let hi := r.foldl (fun a d => max a (kLt0 d + kNlt d)) (kLt0 k + kNlt k)
    (lo, hi - lo)

/-- The claim of a top-level descriptor before it is cut: first tile and length; length 0 for one that claims nothing. -/
def State.claimOf (s : State) (x : Work) : Nat × Nat :=
  match x.kind with
  | 1 => (kLt0 x.desc, kNlt x.desc)
  | 2 => let p := s.pat (lPid x.desc); if p.cnt = 0 then (0, 0) else (lBase x.desc + p.lo, p.cnt)
  | 7 => kernelSpan (x.elems.map (fun e => e.1))
  | _ => (0, 0)

/-! ### Completion (R247, R250, R272) -/

/-- Order of STATUS for launches and chains (R250). -/
def statusRank : Nat → Nat
  | 3 => 4 | 4 => 3 | 2 => 2 | 1 => 1 | _ => 0

/-- The 32 bytes of Table 8 of Contexts. -/
def Work.record (x : Work) (tend : Nat) : List Byte :=
  leBytes 1 (x.status + (if x.clamped then 8 else 0) + (if x.psnw then 16 else 0)) ++ leBytes 1 x.aflags.toNat ++
  leBytes 2 x.vstat.toNat ++ leBytes 4 (dUser x.desc) ++ leBytes 4 x.stkcnt ++ leBytes 4 x.empty.toNat ++
  leBytes 8 x.tstart ++ leBytes 8 tend

/-- Count a descriptor, element or node that completes INVALID (R249). -/
def State.setInvalid (s : State) (w : Nat) : State :=
  match s.work? w with
  | none => s
  | some x => (s.countReg rCTX_INVALID x.ctx 1).modWork w (fun x => { x with status := 1, ran := true, phase := .finished })

/-- Is a hood's fault queue full (R116)? -/
def State.faultFull (s : State) (h : Nat) : Bool :=
  decide (2 ^ s.reg rXLT_FQ_CFG h ≤ (s.reg rXLT_FQ_PI h + 2 ^ 32 - s.reg rXLT_FQ_CI h) % 2 ^ 32)

/-- Raise a translation fault (R115, R117) for a work or a ring, under the epoch in force, in which the access was issued. `str`: bytes of the
access before VA completed. -/
def State.raiseFault (s : State) (e : Eng) (x : Stop) (sw str : Bool) (w r : Option Nat) (tile : Nat) (due : Option Nat) (atom : Option (Nat × AtomArgs)) : State :=
  match x with
  | .fault typ acc lvl ent va rem =>
    let k := s.hood e.hood
    let f : XFault := {
      seq := k.seq, va := va, ctx := e.ctx, gen := k.gen, typ := typ, access := acc, switch := sw, straddle := str && !sw
      epoch := s.reg rHOOD_EPOCH e.hood, remain := rem, cls := e.kind, eng := e.num, level := lvl, time := s.now, entry := ent
      work := w, ring := r, tile := tile, due := due, atom := atom }
    s.modHood e.hood (fun k => { k with faults := k.faults ++ [f], seq := (k.seq + 1) % 2 ^ 32 })
  | _ => s

/-- A page of the host that an access waits on: ask for its translation (R113); where the cached answer denies the access, the page waits
for a PRI Page Request (R114). -/
def State.askAts (s : State) (e : Eng) (x : Stop) (tile : Option Nat) : State :=
  match x with
  | .ats pasid page _ =>
    let h := e.hood
    let q : PageWait := { hood := h, pasid := pasid, page := page, work := e.work, ring := e.ring, tile := tile }
    let s := if s.xlt.waiters.contains q then s else { s with xlt := { s.xlt with waiters := s.xlt.waiters ++ [q] } }
    if s.xlt.atsReq.contains (h, pasid, page) || s.xlt.priWait.contains (h, pasid, page) || s.xlt.pri.contains (h, pasid, page) then s
    else if (s.atsHit h e.ctx pasid page).isSome then { s with xlt := { s.xlt with priWait := s.xlt.priWait ++ [(h, pasid, page)] } }
    else ({ s with xlt := { s.xlt with atsReq := s.xlt.atsReq ++ [(h, pasid, page)] } }).toHost (.atsReq h pasid page)
  | _ => s

/-- The front end stops a ring on a fault of its own reads and writes (R121), or waits on a host translation. -/
def State.ringStop (s : State) (r : Nat) (x : Stop) : State :=
  let k := s.ring r
  match x with
  | .fault .. =>
    let s := s.raiseFault (feEng k.hood k.ctx) x false false none (some r) 0 none none
    (s.modRing r (fun k => { k with xstop := true })).causeV rFE_CAUSE (k.hood + 1) 0 rFE_RING_STOP r
  | _ => s.askAts { feEng k.hood k.ctx with ring := some r } x none

/-- Write a completion record if the descriptor names one; `none` where the write does not complete now. -/
def State.writeRecord (s : State) (w : Nat) (x : Work) : Option State × State :=
  let c := dCpl x.desc
  if c = 0 then (some s, s)
  else
    let e := (feEng x.hood x.ctx).of w
    match s.wrVA e c (clean (x.record s.now)) with
    | (_, s, none) => (some s, s)
    | (n, s, some x') =>
      match x' with
      | .fault .. =>
        (none, (s.raiseFault e x' false (decide (0 < n)) (some w) none 0 none none).modWork w (fun y => { y with phase := .stalled }))
      | .lost => (some s, s)
      | _ => (none, s.askAts e x' none)

/-- Release what a top-level work holds: its claim and its copy engine. -/
def State.releaseWork (s : State) (w : Nat) : State :=
  let s := s.accrue w
  match s.work? w with
  | none => s
  | some x =>
    let s := match x.engine with
      | some n => { s with front := { s.front with engines := s.front.engines.erase n } }
      | none => s
    s.modWork w (fun x => { x with holds := false, engine := none })

/-! ### Starting elements and nodes (R255, R260) -/

/-- Assign a copy engine if one is free and the hood's allowance permits (R298). -/
def State.takeEngine (s : State) (w h : Nat) : Option State :=
  let used := s.front.engines.filter (fun e => match s.work? (e.2 - 1) with | some x => x.hood == h | none => false)
  if used.length ≤ bits (s.reg rHOOD_SCHED_CFG h) 10 5 then
    ((List.range 32).find? (fun n => (s.front.engines.find n).isNone)).map (fun n =>
      ({ s with front := { s.front with engines := s.front.engines.insert n (w + 1) } }).modWork w (fun x =>
        { x with engine := some n, since := s.now }))
  else none

/-- Record each kernel dispatch of a site that is not confidential in the trace (Table 11 of Register Reference). -/
def State.trace (s : State) (h site kind user : Nat) : State :=
  if s.reg rDBG_TRACE_CFG 0 % 2 = 0 || (s.hood h).block.conf then s
  else
    let pi := s.reg rDBG_TRACE_PI 0
    ((s.setReg (rDBG_TRACE + 16 * pi) 0 s.now).setReg (rDBG_TRACE + 16 * pi + 8) 0 (site + kind * 2 ^ 12 + user * 2 ^ 32)).setReg
      rDBG_TRACE_PI 0 ((pi + 1) % 2048)

/-- Does a kernel that starts on a span of logical tiles meet, on one of its planks or channels, what ends the guarantee of repeatable mode
(R330)? -/
def State.lapses (s : State) (h lo k : Nat) : Bool :=
  (List.range k).any (fun t =>
      let q := s.plank (plankOf (s.siteOf h (lo + t)))
      q.droop || q.throt || q.ramp != 0) ||
    (List.range 8).any (fun n => (s.stack n).fast && (List.range 32).any (fun c => (s.hood h).block.channels.getLsbD (32 * n + c)))

/-- Dispatch a work: it is started now, under the current epoch, with its span cut to NTILE and a cut counted (Table 14 of
Contexts, R265). `lo` and `n` are the uncut span of a kernel. -/
def State.dispatch (s : State) (w lo n : Nat) : State :=
  match s.work? w with
  | none => s
  | some x =>
    let k := if x.kind = 1 then clipSpan (s.ntile x.hood) lo n else n
    let cut := x.kind == 1 && decide (k < n)
    let s := if cut then s.ctxClamp x.ctx 1 else s
    let s := s.modWork w (fun x => { x with
      phase := .started, lo := lo, cnt := k, clamped := x.clamped || cut, tstart := s.now
      since := s.now, seqNo := s.front.nextS, epoch := s.reg rHOOD_EPOCH x.hood, hgen := (s.hood x.hood).gen })
    let s := { s with front := { s.front with nextS := s.front.nextS + 1 } }
    if x.kind = 1 then
      let s := if s.reg rPWR_HOOD_STATUS x.hood % 4 == 2 && s.lapses x.hood lo k then s.countReg rPWR_RPT_LAPSE x.hood 1 else s
      (List.range k).foldl (fun s t => s.trace x.hood (s.siteOf x.hood (lo + t)) 1 (dUser x.desc)) s
    else s

/-- Create and start an element or node under its parent; a COPY waits for an engine. -/
def State.spawn (s : State) (p : Nat) (idx : Nat) (d a : List Byte) (shift : Int) : State :=
  match s.work? p with
  | none => s
  | some x =>
    let w := s.front.nextW
    let c : Work := {
      ring := x.ring, ctx := x.ctx, hood := x.hood, hgen := x.hgen, rgen := x.rgen, desc := d, args := a
      parent := some p, idx := idx }
    let s := { s with works := s.works.insert w c, front := { s.front with nextW := w + 1 } }
    let s := s.modWork p (fun x => { x with runN := x.runN ++ [idx] })
    let lo := ((kLt0 d : Int) + shift).toNat
    if dKind d = 6 then
      match s.takeEngine w x.hood with
      | some s => s.dispatch w 0 0
      | none => s
    else s.dispatch w lo (if dKind d = 1 then kNlt d else 0)

/-- Predecessors of a node. -/
def Pattern.preds (p : Pattern) (n : Nat) : List Nat := (p.edges.filter (fun e => e.2 == n)).map (fun e => e.1)

/-- Nodes from which a node is reachable, itself included, by at most `fuel` edges (R272, R283). -/
def Pattern.before (p : Pattern) : Nat → List Nat → List Nat
  | 0, l => l
  | k + 1, l => p.before k (l ++ ((l.flatMap p.preds).filter (fun x => !l.contains x)).eraseDups)

/-- Put a value into a bit field of a record (R259, R260). -/
def putField (bs : List Byte) (off lsb w v : Nat) : List Byte :=
  let n := leNat bs
  let sh := 8 * off + lsb
  let m := (2 ^ w - 1) <<< sh
  leBytes bs.length (n - (n &&& m) + ((v % 2 ^ w) <<< sh))

/-- A node's descriptor and argument record with the launch's slot values written in (R260). -/
def Pattern.node (p : Pattern) (vals : Table (BitVec 64)) (n : Nat) : List Byte × List Byte :=
  let d := p.nodes.getD n []
  let a := if dKind d = 1 then slice p.args (kArgs d) (argBytes (dOp d)) else []
  p.slots.foldl (fun r e =>
    if e.node = n then
      let v := ((vals.find e.slot).getD 0).toNat
      if e.inArgs then (r.1, putField r.2 e.off e.lsb e.width v) else (putField r.1 e.off e.lsb e.width v, r.2)
    else r) (d, a)

/-- Do two spans meet? -/
def spanMeets (a b : Work) : Bool := a.cnt != 0 && b.cnt != 0 && overlaps a.lo a.cnt b.lo b.cnt

/-- Start the successors that a started chain or launch now allows: the next element (R255), or every node whose
predecessors are complete and whose logical tiles run no node of the launch, in ascending order (R260, R310). -/
def State.advance (s : State) (p : Nat) : State :=
  match s.work? p with
  | none => s
  | some x =>
    if x.phase != .started || !x.ran || 2 ≤ statusRank x.status then s
    else
      let shift := (x.lo : Int) - x.lo0
      if x.kind = 7 then
        if !x.runN.isEmpty then s
        else if x.doneN.length < x.elems.length then
          let e := x.elems.getD x.doneN.length ([], [])
          s.spawn p x.doneN.length e.1 e.2 shift
        else s
      else if x.kind = 2 then
        let pt := s.pat x.pid
        (List.range pt.nodes.length).foldl (fun s n =>
          match s.work? p with
          | none => s
          | some x =>
            if 2 ≤ statusRank x.status || x.doneN.contains n || x.runN.contains n || !(pt.preds n).all x.doneN.contains then s
            else
              let (d, a) := pt.node x.vals n
              let lo := ((kLt0 d : Int) + lBase x.desc + shift).toNat
              let probe : Work := { lo := lo, cnt := if dKind d = 1 then kNlt d else 0 }
              if (s.worksOf (fun y => y.parent == some p)).any (fun e => spanMeets e.2 probe) then s
              else s.spawn p n d a ((lBase x.desc : Int) + shift)) s
      else s

/-- Fold a child's result into its parent (R250, R272). -/
def State.foldChild (s : State) (p : Nat) (c : Work) : State :=
  s.modWork p (fun x => { x with
    status := if statusRank x.status < statusRank c.status then c.status else x.status
    clamped := x.clamped || c.clamped, psnw := x.psnw || c.psnw, aflags := x.aflags ||| c.aflags, vstat := x.vstat ||| c.vstat
    stkcnt := satAdd 32 x.stkcnt c.stkcnt, empty := x.empty ||| c.empty
    doneN := x.doneN ++ [c.idx], runN := x.runN.filter (fun i => i != c.idx)
    psn := x.psn || c.psnw, psnN := if c.psnw then x.psnN ++ [c.idx] else x.psnN })

/-- Has a chain or launch completed all its elements or nodes? One that fails ends it once those that run have completed (R250 names
only INVALID as not stopping the successors; log entry 18). -/
def State.allDone (s : State) (x : Work) : Bool :=
  (x.kind == 7 && x.doneN.length == x.elems.length) || (x.kind == 2 && x.doneN.length == (s.pat x.pid).nodes.length) ||
    ((x.kind == 7 || x.kind == 2) && decide (2 ≤ statusRank x.status) && x.runN.isEmpty)

/-- Free an UNREGISTERed pattern once no launch of it is left (R262). -/
def State.reapPattern (s : State) (pid : Nat) : State :=
  let p := s.pat pid
  if p.dying && (s.worksOf (fun x => x.kind == 2 && x.phase != .queued && x.hood == p.hood && lPid x.desc == pid && decide (x.seqNo < p.dieSeq))).isEmpty then
    let s := s.setReg rFE_PAT_STATUS p.hood (2 + pid * 2 ^ 16)
    { s with pats := s.pats.erase pid }
  else s

/-- End a top-level work: its record, then its ring, its claim and its engine. -/
def State.endTop (s : State) (w : Nat) : State :=
  match s.work? w with
  | none => s
  | some x =>
    match s.writeRecord w x with
    | (none, s) => s
    | (some s, _) =>
      let s := s.modRing x.ring (fun k => { k with
        started := k.started.filter (fun i => i != w), psn := k.psn || x.psnw, lenders := if x.kind = 4 then k.lenders else (k.lenders ++ x.lenders).eraseDups })
      let s := ((s.releaseWork w).freeSlots x.hood (x.slots.map (fun e => e.2) ++ x.outT.map (fun e => e.2) ++ x.moveT.map (fun e => e.2))).dropWork w
      if x.kind = 2 then s.reapPattern (lPid x.desc) else s

/-- Complete a work whose parts are done: write its record, hand its result to its chain or launch, start what follows it. -/
def State.completeWork (s : State) (w : Nat) : State :=
  match s.work? w with
  | none => s
  | some x =>
    match x.parent with
    | none => s.endTop w
    | some p =>
      match s.writeRecord w x with
      | (none, s) => s
      | (some s, _) =>
        let s := ((s.releaseWork w).dropWork w).foldChild p x
        match s.work? p with
        | none => s
        | some y =>
          if s.allDone y then (if y.phase == .started then s.endTop p else s) else s.advance p

/-! ### Scheduling (R248, R297, R298, R300, R305, R306) -/

/-- May the head of a ring start, by the ring's own order (R248, R261)? -/
def State.headReady (s : State) (r : Nat) : Option Nat :=
  let k := s.ring r
  match k.queue with
  | [] => none
  | w :: _ =>
    match s.work? w with
    | none => none
    | some x =>
      let st := k.started.filterMap s.work?
      if !k.live || k.state ≥ 2 || k.xstop || 64 ≤ k.started.length then none
      else if (dOrd x.desc || x.kind == 4) && !k.started.isEmpty then none
      else if st.any (fun y => y.kind == 5) then none
      else if x.kind == 2 && (st.any (fun y => y.kind == 3) ||
          256 ≤ (s.worksOf (fun y => y.kind == 2 && y.phase != .queued)).length ||
          64 ≤ (s.worksOf (fun y => y.kind == 2 && y.phase != .queued && y.hood == x.hood)).length) then none
      else some w

/-- Rings of a context in round robin after the one served last. -/
def State.ringsOf (s : State) (c : Nat) : List Nat :=
  let l := (s.rings.filter (fun e => e.2.live && e.2.ctx == c)).map (fun e => e.1)
  l.filter (fun r => decide ((s.ctx c).last < r)) ++ l.filter (fun r => decide (r ≤ (s.ctx c).last))

/-- The quantum of a hood, ns (R300). -/
def State.quantum (s : State) (h : Nat) : Nat := (bits (s.reg rHOOD_SCHED_CFG h) 0 10 + 1) * 100000

/-- Tiles that a descriptor of another context has reserved (R297). -/
def State.reservedFor (s : State) (h c : Nat) : List Nat :=
  (s.worksOf (fun x => x.hood == h && x.ctx != c && x.phase == .queued && x.parent.isNone)).flatMap (fun e =>
    match e.2.waited with
    | some t => if s.quantum h ≤ s.now - t then let (lo, n) := s.claimOf e.2; (List.range (clipSpan (s.ntile h) lo n)).map (fun i => lo + i) else []
    | none => [])

/-- Start one top-level descriptor if its claim and engine are free (R296, R298, R305). -/
def State.tryStart (s : State) (w : Nat) : Option State :=
  match s.work? w with
  | none => none
  | some x =>
    let h := x.hood
    let (lo, n) := s.claimOf x
    let k := clipSpan (s.ntile h) lo n
    let begin_ := fun (s : State) =>
      (s.modRing x.ring (fun r => { r with queue := r.queue.filter (fun i => i != w), started := r.started ++ [w] })).modCtx x.ctx
        (fun c => { c with last := x.ring })
    if x.kind = 6 then (s.takeEngine w h).map (fun s => begin_ (s.dispatch w 0 0))
    else if k = 0 then some (begin_ (s.dispatch w lo n))
    else if !s.spanFree w h lo k || (s.reservedFor h x.ctx).any (fun t => decide (lo ≤ t) && decide (t < lo + k)) ||
        decide (s.slotCount h < s.savedCount h + s.heldCount h + k) then none
    else
      let s := ((List.range k).foldl (fun (s : State) t => s.giveTile (s.siteOf h (lo + t)) x.ctx) s).dispatch w lo n
      some (begin_ (s.modWork w (fun x => { x with lo := lo, cnt := k, lo0 := lo, holds := true, claimed := s.now, waited := none })))

/-- Restore the tiles of a saved descriptor on the span from `lo` and let it run again (R306). -/
def State.resumeAt (s : State) (w lo : Nat) : State :=
  match s.work? w with
  | none => s
  | some x =>
    let h := x.hood
    let bad := x.slots.any (fun e => s.slotPsn h e.2)
    let s := if bad then s.modWork w (fun x => { x with psnw := true }) else s
    let s := x.slots.foldl (fun s e =>
      let i := s.siteOf h (lo + e.1)
      ((s.modSite i (fun k => { k with lastCtx := some x.ctx })).wakePlank (plankOf i)).loadTile h e.2 i) s
    let d : Int := (lo : Int) - x.lo
    let s := (s.worksOf (fun y => y.parent == some w)).foldl (fun s e =>
      s.modWork e.1 (fun y => { y with lo := ((y.lo : Int) + d).toNat })) s
    let stuck := (s.hood h).faults.any (fun f => f.work == some w && !f.switch)
    let s := s.modWork w (fun x => { x with phase := if stuck then .stalled else if x.ran && x.parent.isNone && x.kind == 1 then .finished else .started, lo := lo, slots := [], holds := true, since := s.now, claimed := s.now })
    let s := s.advance w
    match s.work? w with
    | some x => if x.ran && s.allDone x then s.endTop w else s
    | none => s

/-- Resume a saved descriptor where there is room: a copy needs an engine, a claim a free span (R306), the one it had where a reshape or a
plank reset saved it (R28, R176). -/
def State.tryResume (s : State) (w : Nat) : Option State :=
  match s.work? w with
  | none => none
  | some x =>
    if x.kind = 6 then (s.takeEngine w x.hood).map (fun s => s.modWork w (fun x => { x with phase := .started }))
    else
      let at_ := if x.pin && decide (x.lo + x.cnt ≤ s.ntile x.hood) then [x.lo] else List.range (s.ntile x.hood + 1 - x.cnt)
      (at_.find? (fun lo => s.spanFree w x.hood lo x.cnt)).map (fun lo => (s.resumeAt w lo).modWork w (fun x => { x with pin := false }))

/-- A switched-out tile whose fault has been answered rejoins its claim as soon as its logical tile is free (R305). -/
def State.tryBack (s : State) (w : Nat) : Option State :=
  match s.work? w with
  | none => none
  | some x =>
    if x.phase == .saved || x.phase == .saving then none
    else
      (x.backT.find? (fun t => decide (x.lo + t < s.ntile x.hood) && !(s.claimedBy x.hood).any (fun p => p.1 == x.lo + t) && !s.inReset x.hood (x.lo + t) && !s.inMove x.hood (x.lo + t))).bind (fun t =>
        (x.outT.find t).map (fun k =>
          let i := s.siteOf x.hood (x.lo + t)
          let bad := s.slotPsn x.hood k
          let s := (((s.accrue w).modSite i (fun q => { q with lastCtx := some x.ctx })).wakePlank (plankOf i)).loadTile x.hood k i
          s.modWork w (fun x => { x with
            psnw := x.psnw || bad
            outT := x.outT.erase t, backT := x.backT.filter (fun u => u != t)
            phase := if (s.hood x.hood).faults.any (fun f => f.work == some w && !f.switch) then x.phase else .started })))

/-- Insert a context into a list sorted by vt, then number. -/
def State.orderCtx (s : State) (c : Nat) : List Nat → List Nat
  | [] => [c]
  | d :: l => if (s.ctx c).vt < (s.ctx d).vt || ((s.ctx c).vt == (s.ctx d).vt && decide (c < d)) then c :: d :: l else d :: s.orderCtx c l

/-- Has a context work ready, or a claim or engine? -/
def State.ctxBusy (s : State) (c : Nat) : Bool :=
  (s.ringsOf c).any (fun r => (s.headReady r).isSome) ||
    s.works.any (fun e => e.2.ctx == c && (e.2.holds || e.2.engine.isSome || e.2.phase == .saved))

/-- The ACTIVE contexts of a hood in ascending vt. -/
def State.ctxOrder (s : State) (h : Nat) : List Nat :=
  ((s.ctxs.filter (fun e => e.2.hood == h && e.2.state == 1)).map (fun e => e.1)).foldl (fun l c => s.orderCtx c l) []

/-- A context that gains work after it had none is raised to the least vt of the others (R295). -/
def State.raiseVt (s : State) (h : Nat) : State :=
  (s.ctxOrder h).foldl (fun s c =>
    let b := s.ctxBusy c
    let s := if b && !(s.ctx c).busy then
        let others := (s.ctxOrder h).filter (fun d => d != c && s.ctxBusy d)
        match others with
        | [] => s
        | d :: l => let m := l.foldl (fun a e => min a (s.ctx e).vt) (s.ctx d).vt
                    s.modCtx c (fun k => { k with vt := max k.vt m })
      else s
    s.modCtx c (fun k => { k with busy := b })) s

/-- One scheduling decision of a hood: the first context in ascending vt that can resume or start something (R297). -/
def State.pick (s : State) (h : Nat) : Option State :=
  let children := fun (p : Nat → Bool) =>
    (s.worksOf (fun x => x.hood == h && p x.ctx && x.phase == .queued && x.parent.isSome && x.kind == 6 && s.current x)).map (fun e => e.1)
  let engine := fun (w : Nat) => (s.takeEngine w h).map (fun (s : State) => s.dispatch w 0 0)
  let back := (s.worksOf (fun x => x.hood == h && !x.backT.isEmpty && s.current x)).map (fun e => e.1)
  match back.findSome? s.tryBack with
  | some t => some t
  | none =>
    match (children (fun c => !(s.ctxOrder h).contains c)).findSome? engine with
    | some t => some t
    | none =>
      (s.ctxOrder h).findSome? (fun c =>
        let saved := (s.worksOf (fun x => x.ctx == c && x.phase == .saved && x.parent.isNone && x.cnt ≤ s.ntile h && s.current x)).map (fun e => e.1)
        match (children (fun d => d == c)).findSome? engine, saved with
        | some t, _ => some t
        | none, w :: _ => s.tryResume w
        | none, [] => (s.ringsOf c).findSome? (fun r => (s.headReady r).bind s.tryStart))

/-- Does a ready descriptor wait on busy tiles (R297)? -/
def State.tilesBusy (s : State) (w : Nat) : Bool :=
  match s.work? w with
  | none => false
  | some x =>
    let (lo, n) := s.claimOf x
    let k := clipSpan (s.ntile x.hood) lo n
    x.kind != 6 && k != 0 && !s.spanFree w x.hood lo k

/-- Mark the ready descriptors that wait on busy tiles (R297, R300). One that has waited a quantum keeps its reservation until it starts. -/
def State.markWaits (s : State) (h : Nat) : State :=
  (s.ctxOrder h).foldl (fun s c => (s.ringsOf c).foldl (fun s r =>
    match s.headReady r with
    | some w =>
      let busy := s.tilesBusy w
      s.modWork w (fun x =>
        let since := match x.waited with
          | none => if busy then some s.now else none
          | some t => if busy || decide (s.quantum h ≤ s.now - t) then some t else none
        { x with waited := since })
    | none => s) s) s

/-- May the hood start anything? -/
def State.mayRun (s : State) (h : Nat) : Bool :=
  let k := s.hood h
  k.created && !k.failed && !k.held && !k.frozen && k.tdi != 3

def schedLoop : Nat → State → Nat → State
  | 0, s, _ => s
  | n + 1, s, h => match s.pick h with
    | some s' => schedLoop n s' h
    | none => s

/-- Start everything that can start in a hood (R297). The fuel is the number of works it holds. -/
def State.schedule (s : State) (h : Nat) : State :=
  if s.mayRun h then
    let s := (s.accrueHood h).raiseVt h
    let s := schedLoop (2 * s.works.length + 1) s h
    s.markWaits h
  else s

/-- Schedule every hood, starting with the one after `h` (R298). -/
def State.scheduleAll (s : State) (h : Nat) : State := forN 16 s (fun s i => s.schedule ((h + 1 + i) % 16))

/-- Complete a work and decide what starts next. -/
def State.complete (s : State) (w : Nat) : State :=
  match s.work? w with
  | none => s
  | some x => (s.completeWork w).scheduleAll x.hood

/-- Completions of a hood that waited on a write of their record are tried again: every finished work but kernels and copies, which have
completion commands of their own, and every chain or launch with nothing left to do. -/
def State.retryDone (s : State) (h : Nat) : State :=
  let l := (s.worksOf (fun x => x.hood == h && s.current x && x.kind != 1 && x.kind != 6 &&
    (x.phase == .finished || (x.phase == .started && x.ran && s.allDone x)))).map (fun e => e.1)
  l.foldl (fun s w => s.completeWork w) s

/-- Complete a work with a status that is not its own. -/
def State.completeAs (s : State) (w st : Nat) : State :=
  (s.modWork w (fun x => { x with status := st, ran := true, phase := .finished })).complete w

/-! ### Preemption (R304, R308) -/

/-- Preempt a started top-level descriptor that holds tiles: slots are taken for its tiles. -/
def State.preempt (s : State) (w : Nat) : State :=
  match s.work? w with
  | none => s
  | some x =>
    if !x.holds || x.phase == .saving then s
    else
      let (ks, s) := s.takeSlots x.hood x.heldTiles.length
      s.modWork w (fun x => { x with phase := .saving, slots := x.heldTiles.zip ks })

/-- Preempt some tiles of a claim, which a RESHAPE moves; the others keep running (R175). -/
def State.preemptTiles (s : State) (w : Nat) (ts : List Nat) : State :=
  match s.work? w with
  | none => s
  | some x =>
    let (ks, s) := s.takeSlots x.hood ts.length
    s.modWork w (fun x => { x with moveT := (ts.zip ks).foldl (fun (m : Table Nat) p => m.insert p.1 p.2) x.moveT })

/-- Tiles that a RESHAPE has moved, or would have, rejoin their claims (R176). -/
def State.rejoin (s : State) (h : Nat) : State :=
  (s.worksOf (fun x => x.hood == h && (!x.outT.isEmpty || !x.moveT.isEmpty))).foldl (fun s e =>
    let s := (s.freeSlots h (e.2.moveT.map (fun o => o.2))).modWork e.1 (fun x => { x with moveT := [] })
    let out := e.2.outT.map (fun o => o.1)
    let ready := out.filter (fun t => !e.2.backT.contains t && !(s.hood h).faults.any (fun f => f.work == some e.1 && f.switch && f.tile == t))
    s.modWork e.1 (fun x => { x with backT := x.backT ++ ready })) s

/-- Every tile state is in its slot: the claim is free (R304), or the tiles that move are out of it (R175). -/
def State.saveDone (s : State) (w : Nat) : State :=
  match s.work? w with
  | none => s
  | some x =>
    if x.phase != .saving then
      let s := s.accrue w
      let s := x.moveT.foldl (fun s e => s.saveTile x.hood e.2 (s.siteOf x.hood (x.lo + e.1))) s
      s.modWork w (fun x => { x with outT := x.moveT.foldl (fun (m : Table Nat) e => m.insert e.1 e.2) x.outT, moveT := [] })
    else
      let s := s.accrue w
      let s := x.slots.foldl (fun s e => s.saveTile x.hood e.2 (s.siteOf x.hood (x.lo + e.1))) s
      s.modWork w (fun x => { x with phase := .saved, holds := false })

/-- Stop a top-level copy at the end of its piece: it frees its engine and keeps its position (R308). -/
def State.stopCopy (s : State) (w : Nat) : State :=
  match s.work? w with
  | none => s
  | some x => if x.engine.isNone || x.parent.isSome then s else (s.releaseWork w).modWork w (fun x => { x with phase := .saved })

/-- The works of a hood that a hold preempts. -/
def State.holders (s : State) (h : Nat) : List Nat := (s.worksOf (fun x => x.hood == h && x.holds)).map (fun e => e.1)
def State.copies (s : State) (h : Nat) : List Nat :=
  (s.worksOf (fun x => x.hood == h && x.engine.isSome && x.parent.isNone)).map (fun e => e.1)

end Sys2Proof.Machine
end

