-- ==== Sys2Proof/Machine/Stops.lean ====
section
/-!
DEFINITION. Machine/Stops.lean: how the access of an engine stops (R115, R116, R119, R120, R124): stall, switch-out, waits for the host's translation
(R113, R114) and held requests (R225).
-/
namespace Sys2Proof.Machine

/-- Is every write and atomic of a work acknowledged by its home (R141)? Those to local channels and to the host are when they are made. -/
def State.allAcked (s : State) (w : Nat) : Bool :=
  !s.stl.mreqs.any (fun m => m.who.work == some w && (match m.body with | .wrU .. => true | .atom .. => true | _ => false))

/-- Has nothing of a descriptor or of its elements and nodes a request to a borrowed range in flight? -/
def State.noneFlying (s : State) (w : Nat) : Bool :=
  !s.stl.mreqs.any (fun m => match m.who.work with
    | some v => v == w || ((s.work? v).map (fun x => x.parent == some w)).getD false
    | none => false)

/-- The work waits on held host requests (R225); its timeout is DEFTO from the first (R274). -/
def State.holdWork (s : State) (w : Nat) (x : Work) : State :=
  if s.waits.any (fun q => q.work == w) then s
  else
    let wt : Wait := {
      work := w, ctx := x.ctx, ring := x.ring, hood := x.hood, loc := noLoc, kind := 3, start := s.now, timeout := (s.ctx x.ctx).defto }
    { s with waits := s.waits ++ [wt] }

/-- The work no longer waits on held requests. -/
def State.unholdWork (s : State) (w : Nat) : State :=
  { s with waits := s.waits.filter (fun q => !(q.work == w && q.kind == 3)) }

/-- Does a fault of a tile switch it out: has the hood's block, in the epoch under which the access is issued, 193 tiles or more (R115)? An access is
issued when it is made, so its epoch is the current one. -/
def State.switches (s : State) (h : Nat) (tile : Option Nat) : Bool := tile.isSome && decide (193 ≤ s.ntile h)

/-- The tile of a claim that a tile of a step's span is. -/
def State.claimTile (s : State) (w : Nat) (x : Work) (t : Nat) : Nat :=
  x.lo + t - ((s.work? (x.parent.getD w)).map (fun p => p.lo)).getD x.lo

/-- Switch a tile of a claim out (Table 9 of Birier Memory): its state is saved with the step `w` marked not started there, so the step runs from its
beginning when the tile is back (R120, R124). The step of an ATTN kernel is the expansion of one batt: the batts before it are in the row states. -/
def State.switchOut (s : State) (w lt : Nat) : State :=
  match s.work? w with
  | none => s
  | some x =>
    let top := x.parent.getD w
    let lo := ((s.work? top).map (fun p => p.lo)).getD x.lo
    let s := s.accrue top
    let (ks, s) := s.takeSlots x.hood 1
    let k := ks.headD 0
    let s := (s.saveTile x.hood k (s.siteOf x.hood (lo + lt))).modWork top (fun p => { p with outT := p.outT.insert lt k })
    s.modWork w (fun z => if z.op = 8 then z else { z with prog := z.prog.erase (lo + lt - z.lo) })

/-- Is a tile of a claim switched out? -/
def State.tileSaved (s : State) (top lt : Nat) : Bool := ((s.work? top).map (fun x => (x.outT.find lt).isSome)).getD false

/-- Stop a step at a fault: switch-out of the tile (after the record is written where the fault queue is full, R116), or stall. -/
def State.faultWork (s : State) (w : Nat) (x : Work) (e : Eng) (y : Stop) (tile : Option Nat) (str : Bool) (atom : Option (Nat × AtomArgs)) : State :=
  let t := tile.getD 0
  if s.switches x.hood tile then
    let lt := s.claimTile w x t
    let top := some (x.parent.getD w)
    if s.faultFull x.hood then
      (s.modWork w (fun z => { z with phase := .stalled })).raiseFault e y true false top none lt (some w) atom
    else (s.switchOut w lt).raiseFault e y true false top none lt none atom
  else (s.modWork w (fun z => { z with phase := .stalled })).raiseFault e y false str (some w) none t none atom

/-- A page that the host denies is awaited under the mode of R115, without a record (R114). -/
def State.pageWait (s : State) (w : Nat) (x : Work) (e : Eng) (y : Stop) (tile : Option Nat) : State :=
  let s := s.askAts e y tile
  match y with
  | .ats pasid page _ =>
    if s.switches x.hood tile && (s.atsHit e.hood e.ctx pasid page).isSome then s.switchOut w (s.claimTile w x (tile.getD 0)) else s
  | _ => s

/-- Does a stop abandon the step of a tile (R115, R124): a fault, or a page that the host denies, in a hood that switches tiles out? -/
def State.abandons (s : State) (e : Eng) (y : Stop) (tile : Option Nat) : Bool :=
  s.switches e.hood tile && (match y with
    | .fault .. => true
    | .ats pasid page _ => (s.atsHit e.hood e.ctx pasid page).isSome
    | _ => false)

/-- A transfer of a work stops. `tile`: the tile of its span; `str`: bytes of the access before the place of the stop have completed. Held requests, and
a path that is not yet lost, make the work wait. -/
def State.stopWork (s : State) (w : Nat) (x : Work) (e : Eng) (y : Stop) (tile : Option Nat) (str : Bool) : State :=
  match y with
  | .fault .. => s.faultWork w x e y tile str none
  | .held => s.holdWork w x
  | .lost => s
  | .order => s
  | .ats .. => s.pageWait w x e y tile

end Sys2Proof.Machine
end

