-- ==== Sys2Proof/Machine/Atomics.lean ====
section
/-!
DEFINITION. Machine/Atomics.lean: atomic accesses (R102, R110, R113, R152, R153, R191): the address is translated for the engine that issues the access,
the right AT and the memory type of its page are those of the leaf entry, and the operation runs at the home of the line, in the base die, or on the
lending package.
-/
namespace Sys2Proof.Machine

/-- The work that the engine of an access runs, if any. -/
def State.atomWork (s : State) (a : AtomArgs) : Option (Nat × Work) :=
  match a.kind with
  | 0 => (s.worksOf (fun x => x.kind == 1 && x.hood == a.hood && x.ctx == a.ctx && x.phase == .started && !x.ran && s.current x &&
      (List.range x.cnt).any (fun t => s.siteOf x.hood (x.lo + t) == a.num))).head?
  | 1 => (s.front.engines.find a.num).bind (fun n => (s.work? (n - 1)).map (fun x => (n - 1, x)))
  | _ => none

/-- The engine of an access, at its translation cache and in its class (Table 6 of Birier Memory, R312). -/
def State.atomEng (s : State) (a : AtomArgs) : Eng :=
  let x := s.atomWork a
  let loc := match a.kind with | 0 => plankOf a.num | 2 => 129 + a.num / 8 | _ => 128
  let cls := match a.kind with | 0 => 0 | 1 => 2 | 2 => 1 | _ => 4
  { hood := a.hood, ctx := a.ctx, loc := loc, cls := cls, kind := a.kind, num := a.num, ring := x.map (fun x => x.2.ring), work := x.map (fun x => x.1) }

/-- The tile of its work's span that an access comes from. -/
def State.atomTile (s : State) (a : AtomArgs) (x : Work) : Option Nat :=
  if a.kind = 0 then (List.range x.cnt).find? (fun t => s.siteOf x.hood (x.lo + t) == a.num) else none

/-- An atomic on a borrowed place: it runs at the home on the lending package (R153, log entry 3). A read-only range takes no effect and answers with the
operand's current value (R155, R191); during a move the result reaches the target too (R181). -/
def State.farAtom (s : State) (w : Who) (op : Nat) (a : AtomArgs) (b : Block) (r : Range) (x pkg ls y c : Nat) : State :=
  let line := farLine pkg ls 0 y
  let s := (s.lineAccess w line 1).sendMreq w x pkg ls c (fun l => .atom l y a.width op a.opnd a.cmp)
  let d := s.farBytes pkg ls (alignDown y 64) 64
  let p := anyPsn d
  let (new, old) := atomLine op a.width (y % 64) a.opnd a.cmp (bytesOf d)
  let s := if r.ro then s
    else
      let s := s.farWr pkg ls y (new.map (fun b => (b, p)))
      match r.state, r.target with
      | 2, some t => s.twinWr w (t.place b r (alignDown x 64)) 0 ((splice (bytesOf d) (y % 64) new).map (fun b => (b, p)))
      | _, _ => s
  s.sendC (if a.ret then .atomResult line a.req old p else .wrAck line a.req)

/-- Run an atomic at a hood address of a block. -/
def State.atomPlace (s : State) (w : Who) (op : Nat) (a : AtomArgs) (x : Nat) (near : Bool) : State :=
  let b := (s.hood a.hood).block
  match b.rangeAt x with
  | none => s
  | some r =>
    match r.place b x with
    | .loc ga => (s.homeReq (ga / 64) (.atom w op x near a)).settled
    | .far p ls y c => s.farAtom w op a b r x p ls y c
    | _ => s

/-- An access that stops: at a fault its engine stops as any access does and the access is replayed after the answer (R115, R121); behind an access of the
draining epoch it waits (R172). -/
def State.atomStop (s : State) (op : Nat) (a : AtomArgs) (e : Eng) (y : Stop) : State :=
  match y with
  | .fault .. =>
    match s.atomWork a with
    | some (w, x) => s.faultWork w x e y (s.atomTile a x) false (some (op, a))
    | none =>
      let s := s.raiseFault e y false false none none 0 none (some (op, a))
      if a.kind = 2 then s.countReg rSTL_ROT_STALL a.num 1 else s
  | .order => { s with coh := { s.coh with atoms := s.coh.atoms ++ [(op, a)] } }
  | _ => s

/-- An atomic access of an engine. -/
def atomEff (op : Nat) (a : AtomArgs) (s : State) : State :=
  if !(s.hood a.hood).created then s
  else
    let e := s.atomEng a
    let n := a.width / 8
    match s.pieceAt e (alignDown a.va n) n 2 with
    | (.stop y, s) => s.atomStop op a e y
    | (.host .., s) => s
    | (.dev x _ mt, s) => (s.noteFar e x).atomPlace (e.acc s mt).who op a x (mt == 2)

/-- Atomics that waited behind accesses of the draining epoch are tried again (R172). -/
def State.retryAtoms (s : State) : State :=
  s.coh.atoms.foldl (fun s p => atomEff p.1 p.2 s) { s with coh := { s.coh with atoms := [] } }

/-- Engines that exist (R16, R85). -/
def atomOk (op : Nat) (a : AtomArgs) : Bool :=
  atomWidthOk op a.width && decide (a.hood < 16) && decide (a.ctx < 4096) && decide (a.kind ≤ 3) &&
    decide (a.num < (match a.kind with | 0 => 1664 | 1 => 32 | _ => 16))

def execAtomicAdd (a : AtomArgs) (s : State) : Host.Outcome State Fault Refusal := run (atomOk 0 a) (atomEff 0 a) s
def execAtomicAnd (a : AtomArgs) (s : State) : Host.Outcome State Fault Refusal := run (atomOk 1 a) (atomEff 1 a) s
def execAtomicOr (a : AtomArgs) (s : State) : Host.Outcome State Fault Refusal := run (atomOk 2 a) (atomEff 2 a) s
def execAtomicXor (a : AtomArgs) (s : State) : Host.Outcome State Fault Refusal := run (atomOk 3 a) (atomEff 3 a) s
def execAtomicSmin (a : AtomArgs) (s : State) : Host.Outcome State Fault Refusal := run (atomOk 4 a) (atomEff 4 a) s
def execAtomicSmax (a : AtomArgs) (s : State) : Host.Outcome State Fault Refusal := run (atomOk 5 a) (atomEff 5 a) s
def execAtomicUmin (a : AtomArgs) (s : State) : Host.Outcome State Fault Refusal := run (atomOk 6 a) (atomEff 6 a) s
def execAtomicUmax (a : AtomArgs) (s : State) : Host.Outcome State Fault Refusal := run (atomOk 7 a) (atomEff 7 a) s
def execAtomicSwap (a : AtomArgs) (s : State) : Host.Outcome State Fault Refusal := run (atomOk 8 a) (atomEff 8 a) s
def execAtomicCas (a : AtomArgs) (s : State) : Host.Outcome State Fault Refusal := run (atomOk 9 a) (atomEff 9 a) s
def execAtomicFadd (a : AtomArgs) (s : State) : Host.Outcome State Fault Refusal := run (atomOk 10 a) (atomEff 10 a) s

end Sys2Proof.Machine
end

