-- ==== Sys2Proof/Machine/Patterns.lean ====
section
/-!
DEFINITION. Machine/Patterns.lean: the pattern image (R258), its slots (R259) and the clamp of a slot value (R260).
-/
namespace Sys2Proof.Machine

/-! ### Values of a slot -/

/-- An FP32 NaN. -/
def nan32 (v : Nat) : Bool := bits v 23 8 == 255 && bits v 0 23 != 0

/-- The order of FP32 values that are not NaN; both zeros are equal. -/
def key32 (v : Nat) : Int := if bit v 31 then -(bits v 0 31 : Int) else bits v 0 31

/-- Does `a` not exceed `b` under a TYPE (R259)? -/
def slotLe (typ a b : Nat) : Bool :=
  match typ with
  | 0 => decide (a ≤ b)
  | 1 => decide (toSigned 64 a ≤ toSigned 64 b)
  | _ => !nan32 a && !nan32 b && decide (key32 a ≤ key32 b)

/-- Is a bound representable in WIDTH bits under a TYPE (R259)? -/
def slotFits (typ width v : Nat) : Bool :=
  match typ with
  | 0 => decide (v < 2 ^ width)
  | 1 => let x := toSigned 64 v; decide (-(2 ^ (width - 1) : Int) ≤ x) && decide (x < 2 ^ (width - 1))
  | _ => decide (v < 2 ^ min width 32)

/-- Clamp a slot value (R260): the value to use, and whether it was changed. An FP32 NaN is taken as MIN. -/
def clampSlot (typ lo hi v : Nat) : Nat × Bool :=
  let v := if typ = 2 then v % 2 ^ 32 else v
  if typ = 2 ∧ nan32 v then (lo, true)
  else if !slotLe typ lo v then (lo, true)
  else if !slotLe typ v hi then (hi, true)
  else (v, false)

/-- Bytes of parameter block a pattern can use: 8 × (highest SLOT + 1) (Table 14 of Contexts). -/
def Pattern.plenMax (p : Pattern) : Nat := (p.slots.map (fun e => 8 * (e.slot + 1))).foldl max 0

/-- The slot values of a launch (R260): bytes below PLEN come from the parameter block, the rest from the resident block, and each is
clamped. The second part counts the values changed. -/
def Pattern.launchVals (p : Pattern) (param : List Byte) : Table (BitVec 64) × Nat :=
  (p.slots.map (fun e => e.slot)).eraseDups.foldl (fun r n =>
    match p.slots.find? (fun e => e.slot == n) with
    | some e =>
      let raw := leBytes 8 ((p.res.find n).getD 0).toNat
      let bytes := (List.range 8).map (fun i => if 8 * n + i < param.length then param.getD (8 * n + i) 0 else raw.getD i 0)
      let (v, c) := clampSlot e.typ e.min.toNat e.max.toNat (leNat bytes)
      (r.1.insert n (BitVec.ofNat 64 v), r.2 + if c then 1 else 0)
    | none => r) ([], 0)

/-! ### The image -/

def pNode (b : List Byte) : Nat := fld b 0 0 16 + 1
def pEdge (b : List Byte) : Nat := fld b 4 0 32
def pSlot (b : List Byte) : Nat := fld b 8 0 16
def pArgs (b : List Byte) : Nat := fld b 0xC 0 32

/-- The header's fields in range and its other bits zero (R258). -/
def patHeaderOk (b : List Byte) : Bool :=
  rsvZero (slice b 0 64) [(0, 0, 16), (4, 0, 32), (8, 0, 16), (0xC, 0, 32)] && decide (pEdge b ≤ 1048576) &&
    decide (pSlot b ≤ 8192) && pArgs b % 64 == 0

/-- Where the argument area starts. -/
def patArgsAt (b : List Byte) : Nat := alignUp (64 + 64 * pNode b + 4 * pEdge b) 64

/-- Bytes of the image a header describes. -/
def patBytes (b : List Byte) : Nat := patArgsAt b + pArgs b + 32 * pSlot b

/-- A node: NOP, KERNEL, COPY, FENCE_SIGNAL or FENCE_WAIT, its argument record inside the area (R258). -/
def nodeOk (argLen : Nat) (d : List Byte) : Bool :=
  let k := dKind d
  (k == 0 || k == 1 || k == 4 || k == 5 || k == 6) &&
    (k != 1 || (fld d 0x18 0 48 % 64 == 0 && decide (kArgs d + argBytes (dOp d) ≤ argLen)))

/-- Take away the nodes that no remaining edge enters; an edge list that empties has no cycle. -/
def acyclic : Nat → List (Nat × Nat) → Bool
  | 0, es => es.isEmpty
  | k + 1, es => es.isEmpty || (let es' := es.filter (fun e => es.any (fun f => f.2 == e.1)); es'.length < es.length && acyclic k es')

/-- One slot entry (Table 13 of Contexts). -/
def slotOf (e : List Byte) : SlotEnt :=
  { slot := fld e 0 0 9, node := fld e 2 0 16, inArgs := fldB e 4 0, typ := fld e 4 1 2, off := fld e 5 0 8, lsb := fld e 6 0 6
    width := fld e 7 0 7, min := BitVec.ofNat 64 (fld e 8 0 64), max := BitVec.ofNat 64 (fld e 0x10 0 64) }

/-- The rules of R259 for one entry. -/
def slotOk (nodes : List (List Byte)) (e : List Byte) : Bool :=
  let x := slotOf e
  let d := nodes.getD x.node []
  let lo := 8 * x.off + x.lsb
  let hi := lo + x.width
  rsvZero e [(0, 0, 9), (2, 0, 16), (4, 0, 3), (5, 0, 8), (6, 0, 6), (7, 0, 7), (8, 0, 64), (0x10, 0, 64)] &&
    decide (x.node < nodes.length) && decide (x.typ < 3) && decide (1 ≤ x.width) && decide (x.width ≤ 64) &&
    (if x.inArgs then dKind d == 1 && decide (hi ≤ 8 * argBytes (dOp d))
     else decide (hi ≤ 512) && decide (16 ≤ lo) && !(dKind d == 1 && overlaps lo x.width (8 * 0x18) 64)) &&
    slotLe x.typ x.min.toNat x.max.toNat && slotFits x.typ x.width x.min.toNat && slotFits x.typ x.width x.max.toNat

/-- Entries of one SLOT agree (R259). -/
def slotsAgree : List SlotEnt → Bool
  | [] => true
  | x :: l => l.all (fun y => y.slot != x.slot || (y.typ == x.typ && y.min == x.min && y.max == x.max)) && slotsAgree l

/-- Read a pattern image; none where it breaks R258 or R259. A duplicate edge is ignored, and every slot starts at its MIN (R260). -/
def parsePattern (b : List Byte) : Option Pattern :=
  if !patHeaderOk b then none
  else
    let nodes := (List.range (pNode b)).map (fun i => slice b (64 + 64 * i) 64)
    let edges := ((List.range (pEdge b)).map (fun i =>
      (fld b (64 + 64 * pNode b + 4 * i) 0 16, fld b (66 + 64 * pNode b + 4 * i) 0 16))).eraseDups
    let args := slice b (patArgsAt b) (pArgs b)
    let es := (List.range (pSlot b)).map (fun i => slice b (patArgsAt b + pArgs b + 32 * i) 32)
    let ok := nodes.all (nodeOk (pArgs b)) &&
      edges.all (fun e => decide (e.1 < nodes.length) && decide (e.2 < nodes.length)) && acyclic nodes.length edges &&
      es.all (slotOk nodes) && slotsAgree (es.map slotOf)
    let (lo, cnt) := kernelSpan nodes
    if ok then
      some {
        live := true, bytes := patBytes b + 4096, image := b, nodes := nodes, edges := edges, args := args, slots := es.map slotOf
        res := (es.map slotOf).foldl (fun (m : Table (BitVec 64)) e => m.put (fun _ => 0) e.slot e.min) [], lo := lo, cnt := cnt }
    else none

end Sys2Proof.Machine
end

