-- ==== Sys2Proof/Machine/Fence.lean ====
section
/-!
DEFINITION. Machine/Fence.lean: fence records (R267 to R269), signals (R270), error attachments and pending signal sets (R281,
R282), waits and what their release does (R273 to R275), event rings (R276 to R279) and doorbell records (R242).
-/
namespace Sys2Proof.Machine

/-! ### Doorbell records -/

/-- Write CI, WGEN and STATE of a ring's doorbell record as one write (R242). A ring whose record cannot be written stops
on the fault (R121); the write is made when the fault is answered, the host's translation is there, or requests are no longer held (R225). -/
def State.dbWrite (s : State) (r : Nat) : State :=
  let k := s.ring r
  match s.wrVA (feEng k.hood k.ctx) (k.dbrec + 4) (clean (leBytes 4 k.ci ++ leBytes 4 k.wgen ++ leBytes 4 k.state)) with
  | (_, s, none) => s.modRing r (fun k => { k with dbDue := false })
  | (_, s, some x) => (s.modRing r (fun k => { k with dbDue := true })).ringStop r x

/-- The doorbell records of a hood that wait to be written are tried again. -/
def State.dbRetry (s : State) (h : Nat) : State :=
  ((s.rings.filter (fun e => e.2.live && e.2.hood == h && e.2.dbDue && !e.2.xstop)).map (fun e => e.1)).foldl (fun s r => s.dbWrite r) s

/-! ### Fence records -/

def fcValue (f : List Byte) : Nat := fld f 0x00 0 64
def fcArm (f : List Byte) : Nat := fld f 0x08 0 64
def fcCookie (f : List Byte) : Nat := fld f 0x10 0 64
def fcErr (f : List Byte) : Nat := fld f 0x18 0 8
def fcOwnCtx (f : List Byte) : Nat := fld f 0x1A 0 12
def fcOwnGen (f : List Byte) : Nat := fld f 0x1C 0 16
def fcOwnPkg (f : List Byte) : Nat := fld f 0x1E 0 12
def fcIgn (f : List Byte) : Nat := fld f 0x28 0 32

/-- What the translation of a fence address gives (R268). -/
inductive FRes where
  | at (l : FLoc) (ro : Bool)
  | bad                              -- a HOST or NEAR page
  | stop (x : Stop)
  deriving DecidableEq, Repr

/-- Find a fence for a signal (access 1) or a wait (access 0). -/
def State.fenceAt (s : State) (h c va acc : Nat) : FRes × State :=
  match s.translate (feEng h c) va 64 acc with
  | (.error (.fault t a l v x r), s) => (.stop (.fault t (if a = 9 then acc else a) l v x r), s)
  | (.error x, s) => (.stop x, s)
  | (.ok l, s) =>
    if l.ent.getLsbD 5 || bits l.ent.toNat 6 2 == 2 then (.bad, s)
    else
      let lvl := if l.size = 65536 then 0 else if l.size = 2 ^ 21 then 1 else 2
      match l.denied acc with
      | some t => (.stop (.fault t acc lvl l.ent va 64), s)
      | none =>
        let a := l.addr va
        let b := (s.hood h).block
        let ro := ((b.rangeAt a).map (fun r => r.ro)).getD false
        match b.placeOf a with
        | .none => (.stop (.fault 4 acc lvl l.ent va 64), s)
        | .lost => (.stop .lost, s)
        | .loc ga => (.at (0, ga) ro, s)
        | .far p ls x _ => (.at (farTag p ls, x) ro, s)

/-- The fence line, as its home shows it once what came before has arrived (R140). -/
def State.fenceRd (s : State) (l : FLoc) : List PB :=
  if l.1 = 0 then (s.drainLine (l.2 / 64)).rdLocal (l.2 / 64) else s.farBytes (tagPkg l.1) (tagLease l.1) l.2 64

/-- Write part of a fence line as one update at its home (R268); a read-only range takes no write and counts it (R191). -/
def State.fenceWr (s : State) (l : FLoc) (ro : Bool) (off : Nat) (d : List Byte) : State :=
  if l.1 = 0 then
    let line := l.2 / 64
    if ro then s.countReg (if ((s.extentOf line).map (fun e => e.lent)).getD false then rMEM_LENT_RO_DROP else rMEM_RO_DROP) (chanOfLine line) 1
    else s.memSide ((s.wrU {} line off (clean d)).settled)
  else if ro then s else s.farWr (tagPkg l.1) (tagLease l.1) (l.2 + off) (clean d)

/-- The hood that holds a fence's memory. -/
def State.fenceHood (s : State) (l : FLoc) : Option Nat :=
  if l.1 = 0 then ((s.extentOf (l.2 / 64)).filter (fun e => !e.lent)).map (fun e => e.owner) else none

/-- Does OWNPKG name this package, or the package a restored hood came from (R269, R390)? -/
def State.ownFence (s : State) (l : FLoc) (f : List Byte) : Bool :=
  fcOwnPkg f == s.reg rSTL_PKG_ID 0 ||
    (match s.fenceHood l with | some h => (s.hood h).migAlias == some (fcOwnPkg f) | none => false)

/-- A fence whose owner's generation has passed (R269). -/
def State.orphan (s : State) (l : FLoc) (f : List Byte) : Bool :=
  s.ownFence l f && fcOwnGen f != (s.ctx (fcOwnCtx f)).gen

/-- FENCEERR of the hood that holds a fence's memory, with its page and count (R281). -/
def State.fenceErr (s : State) (l : FLoc) (va : Nat) : State :=
  match s.fenceHood l with
  | none => s
  | some h =>
    if !s.fnOn (h + 1) then s
    else
      let p := s.reg rCTX_FERR_PAGE (h + 1)
      let s := if p % 2 = 0 then s.setReg rCTX_FERR_PAGE (h + 1) (alignDown (va % 2 ^ 48) 4096 + 1) else s
      (s.countReg rCTX_FERR_COUNT (h + 1) 1).cause rCTX_CAUSE (h + 1) 1

/-! ### Event rings (R276 to R279) -/

/-- Write one event entry of a context, or drop it if the ring is full or cannot be written (R279). An entry whose page waits on the host is kept
until the translation is there (R113, R229). -/
def State.evPut (s : State) (c : Nat) (entry : List Byte) : State :=
  let k := s.ctx c
  let n := 2 ^ k.evlog2
  let e := feEng k.hood c
  let drop := fun (s : State) =>
    let d := satAdd 32 (s.ctx c).evdrop 1
    let s := s.modCtx c (fun k => { k with evdrop := d })
    let (_, s, _) := s.wrVA e (k.evbase + 8) (clean (leBytes 4 d))
    s.causeM rCTX_CAUSE (k.hood + 1) 0 (rCTX_EVR_PEND + 4 * (c / 32)) (c % 32)
  let wait := fun (s : State) (x : Stop) => match x with
    | .fault .. => drop s
    | .lost => drop s
    | _ => (s.modCtx c (fun k => { k with evheld := k.evheld ++ [entry] })).askAts e x none
  match s.rdVA e k.evbase 4 with
  | (ci, s, none) =>
    if (k.evpi + 2 ^ 32 - leNat (bytesOf ci)) % 2 ^ 32 = n then drop s
    else
      let phase := if k.evpi / n % 2 = 0 then 1 else 0
      let entry := putField entry 0x10 63 1 phase
      match s.wrVA e (k.evbase + 64 + 32 * (k.evpi % n)) (clean entry) with
      | (_, s, none) =>
        let pi := (k.evpi + 1) % 2 ^ 32
        let s := s.modCtx c (fun k => { k with evpi := pi })
        let (_, s, _) := s.wrVA e (k.evbase + 4) (clean (leBytes 4 pi))
        s.causeM rCTX_CAUSE (k.hood + 1) 0 (rCTX_EVR_PEND + 4 * (c / 32)) (c % 32)
      | (_, s, some x) => wait s x
  | (_, s, some x) => wait s x

/-- Form an event entry (Table 3 of Fences): it is held while Bus Master Enable is clear (R225), and not written for a
context that is absent or being destroyed (R290). -/
def State.event (s : State) (c cookie value va ring kind err : Nat) : State :=
  let k := s.ctx c
  if k.state = 0 ∨ k.state = 3 then s
  else
    let entry := leBytes 8 cookie ++ leBytes 8 value ++
      leBytes 8 (va % 2 ^ 48 + ring % 2 ^ 13 * 2 ^ 48 + kind * 2 ^ 61) ++ leBytes 8 err
    if s.portOpen k.hood && k.evheld.isEmpty then s.evPut c entry else s.modCtx c (fun k => { k with evheld := k.evheld ++ [entry] })

/-- The event entries of a hood that wait for the host are written, in order; behind one that still waits the others do too. -/
def State.evRetry (s : State) (h : Nat) : State :=
  ((s.ctxs.filter (fun e => e.2.hood == h && !e.2.evheld.isEmpty)).map (fun e => e.1)).foldl (fun s c =>
    (s.ctx c).evheld.foldl (fun s e =>
      if s.portOpen h && (s.ctx c).evheld.isEmpty then s.evPut c e else s.modCtx c (fun k => { k with evheld := k.evheld ++ [e] }))
      (s.modCtx c (fun k => { k with evheld := [] }))) s

/-! ### Waits (R273, R275) -/

/-- Release a wait with a code. With no code its work completes OK; with one it completes FAILED, a WAITERR entry is written,
and unless the wait was broken out of a cycle its ring stops, to be coded next (R275, R277). A fence that reads poisoned yields no entry
and sets FENCEERR (R268). -/
def State.releaseWait (s : State) (wt : Wait) (code : Nat) : State × List (Nat × Nat) :=
  let s := { s with waits := s.waits.filter (fun x => x.work != wt.work) }
  if code = 0 then (s.completeAs wt.work 0, [])
  else
    let d := if wt.kind = 0 then s.fenceRd wt.loc else []
    let f := bytesOf d
    let s := if anyPsn d then s.fenceErr wt.loc wt.va else s.event wt.ctx (fcCookie f) (fcValue f) wt.va wt.ring 2 code
    if code = 3 then (s.completeAs wt.work 3, [])
    else
      let live := (s.ring wt.ring).state < 2
      let s := if live then (s.modRing wt.ring (fun k => { k with state := 2 })).dbWrite wt.ring else s
      (s.completeAs wt.work 3, if live then [(wt.ring, code)] else [])

/-- Release several waits with one code. -/
def State.releaseAll (s : State) (l : List Wait) (code : Nat) : State × List (Nat × Nat) :=
  l.foldl (fun p w => let (s, q) := p.1.releaseWait w code; (s, p.2 ++ q)) (s, [])

/-! ### Attaching codes (R281, R282) -/

/-- Attach a code to a fence: kept only if the fence carries none; every wait on it is released with the code. -/
def State.attach (s : State) (l : FLoc) (ro : Bool) (va code : Nat) : State × List (Nat × Nat) :=
  let d := s.fenceRd l
  let f := bytesOf d
  if anyPsn d || fcErr f ≠ 0 then (s, [])
  else
    let s := (s.fenceWr l ro 0x18 (leBytes 1 code)).fenceWr l ro 0x20 (leBytes 8 s.now)
    let armed := fcArm f != 0 && s.ownFence l f && !s.orphan l f
    let s := if armed then (s.fenceWr l ro 8 (leBytes 8 0)).event (fcOwnCtx f) (fcCookie f) (fcValue f) va 0 1 code else s
    let s := s.fenceErr l va
    s.releaseAll (s.waits.filter (fun w => w.loc == l)) code

/-- The fences of a chain's remaining elements. -/
def chainFences (x : Work) : List Nat :=
  ((x.elems.drop x.doneN.length).filter (fun e => dKind e.1 == 4)).map (fun e => fVa e.1)

/-- The fences of an unfinished launch's remaining nodes. -/
def State.launchFences (s : State) (x : Work) : List Nat :=
  let p := s.pat (lPid x.desc)
  let vals := if x.ran then x.vals else (p.launchVals (x.args.take p.plenMax)).1
  if p.hood != x.hood || (p.dying && (x.phase == .queued || decide (p.dieSeq ≤ x.seqNo))) then []
  else ((List.range p.nodes.length).filter (fun n => !x.doneN.contains n)).filterMap (fun n =>
    let d := (p.node vals n).1
    if dKind d = 4 then some (fVa d) else none)

/-- Descriptors read without a record of any fault; those that cannot be read are skipped (R282). -/
def State.peek (s : State) (h c va n : Nat) : Option (List Byte) :=
  match s.rdVA (feEng h c) va n with
  | (d, _, none) => some (bytesOf d)
  | _ => none

/-- The FENCE_SIGNAL descriptors that an unfetched descriptor holds (R282): itself, the elements of a CHAIN, and the nodes of a PATTERN_LAUNCH
under its parameter block. -/
def State.signalsIn (s : State) (h c : Nat) (d : List Byte) : List (List Byte) :=
  match dKind d with
  | 4 => [d]
  | 7 => (List.range (chCount d)).filterMap (fun i => (s.peek h c (chCb d + 64 * i) 64).filter (fun e => dKind e == 4))
  | 2 =>
    let p := s.pat (lPid d)
    if !p.live || p.hood != h || p.dying then []
    else match s.peek h c (lParam d) (min (lPlen d) p.plenMax) with
      | none => []
      | some a =>
        let vals := (p.launchVals a).1
        ((List.range p.nodes.length).map (fun n => (p.node vals n).1)).filter (fun e => dKind e == 4)
  | _ => []

/-- The fences of the pending signal set of a ring (R282), each with the lenders whose memory its signalling work has accessed: the work since the
signal before it (R190, log entry 86). -/
def State.pendingSet (s : State) (r : Nat) : List (Nat × List Nat) :=
  let k := s.ring r
  let tops := s.worksOf (fun x => x.ring == r && x.parent.isNone)
  let step := fun (p : List (Nat × List Nat) × List Nat) (e : Nat × Work) =>
    let x := e.2
    let l := (p.2 ++ x.lenders).eraseDups
    match x.kind with
    | 4 => (p.1 ++ [(fVa x.desc, l)], [])
    | 7 => (p.1 ++ (chainFences x).map (fun v => (v, x.lenders)), l)
    | 2 => (p.1 ++ (s.launchFences x).map (fun v => (v, x.lenders)), l)
    | _ => (p.1, l)
  let (have_, left) := tops.foldl step ([], k.lenders)
  let n := (k.pi + 2 ^ 32 - k.ci) % 2 ^ 32
  let unf := (List.range (min n (2 ^ k.log2n))).filterMap (fun i =>
    s.peek k.hood k.ctx (k.dbase + 64 * ((k.ci + i) % 2 ^ k.log2n)) 64)
  let later := unf.flatMap (fun d => (s.signalsIn k.hood k.ctx d).map (fun e => (dKind d == 4, fVa e)))
  have_ ++ (later.foldl (fun (p : List (Nat × List Nat) × List Nat) v =>
    if v.1 then (p.1 ++ [(v.2, p.2)], []) else (p.1 ++ [(v.2, [])], p.2)) ([], left)).1

/-- Attach codes to the fences at virtual addresses of a context. -/
def State.attachVas (s : State) (h c : Nat) (vas : List (Nat × Nat)) : State × List (Nat × Nat) :=
  vas.foldl (fun p v =>
    match p.1.fenceAt h c v.1 1 with
    | (.at l ro, s) => let (s, q) := s.attach l ro v.1 v.2; (s, p.2 ++ q)
    | (_, s) => (s, p.2)) (s, [])

/-- Attach a code to every fence of a ring's pending signal set. -/
def State.attachSet (s : State) (r code : Nat) : State × List (Nat × Nat) :=
  let k := s.ring r
  s.attachVas k.hood k.ctx ((s.pendingSet r).map (fun v => (v.1, code)))

/-- Code the pending sets of rings, and of every ring that stops because of it, in turn. Each ring stops once, so the
number of rings bounds the work. -/
def attachLoop : Nat → State → List (Nat × Nat) → State
  | 0, s, _ => s
  | _, s, [] => s
  | n + 1, s, (r, c) :: q => let (s, q') := s.attachSet r c; attachLoop n s (q ++ q')

def State.attachSets (s : State) (q : List (Nat × Nat)) : State := attachLoop (q.length + s.rings.length + 1) s q

/-- A ring's pending signal set, taken while its work still stands, with the code to attach to each fence. -/
structure SetSnap where
  hood : Nat
  ctx  : Nat
  vas  : List (Nat × Nat)
  deriving DecidableEq, Repr

/-- The set with a code; a fence whose signalling work has accessed a range of the lender `lost` takes LENDER_LOST instead (R190). -/
def State.snapSet (s : State) (r code : Nat) (lost : Option Nat) : SetSnap :=
  let k := s.ring r
  { hood := k.hood, ctx := k.ctx
    vas := (s.pendingSet r).map (fun v => (v.1, match lost with | some p => if v.2.contains p then 5 else code | none => code)) }

/-- Attach to sets taken before, with everything that follows. -/
def State.attachSnaps (s : State) (l : List SetSnap) : State :=
  let (s, q) := l.foldl (fun p n => let (s, q) := p.1.attachVas n.hood n.ctx n.vas; (s, p.2 ++ q)) (s, [])
  s.attachSets q

/-- Attach a code to one fence, with everything that follows. -/
def State.attachFence (s : State) (l : FLoc) (ro : Bool) (va code : Nat) : State :=
  let (s, q) := s.attach l ro va code
  s.attachSets q

/-! ### Signals (R270 to R272) -/

/-- A started FENCE_SIGNAL completes when its signal has been applied, and clears the poison mark (R247, R272). -/
def State.signalDone (s : State) (g : Sig) : State :=
  match g.work with
  | none => s
  | some w =>
    match s.work? w with
    | none => s
    | some x =>
      let s := match x.parent with
        | none => s.modRing x.ring (fun k => { k with psn := false, lenders := [] })
        | some p => s.modWork p (fun y => { y with psn := false, psnN := [] })
      s.completeAs w 0

/-- Apply a signal event to its fence (R270). -/
def State.applySignal (s : State) (g : Sig) : State :=
  let l := g.loc
  let d := s.fenceRd l
  let f := bytesOf d
  if g.hgen ≠ (s.hood g.hood).gen then s
  else if anyPsn d then (s.fenceErr l g.va).signalDone g
  else if fcErr f = 0 && s.orphan l f then (s.attachFence l g.ro g.va 2).signalDone g
  else if g.psn then (s.attachFence l g.ro g.va 10).signalDone g
  else if fcErr f = 0 && decide (fcValue f < g.value) then
    let s := s.fenceWr l g.ro 0 (leBytes 8 g.value)
    let armed := fcArm f != 0 && decide (fcArm f ≤ g.value) && s.ownFence l f
    let s := if armed && !g.ro then (s.fenceWr l g.ro 8 (leBytes 8 0)).event (fcOwnCtx f) (fcCookie f) g.value g.va 0 0 0 else s
    let (s, q) := s.releaseAll (if g.ro then [] else s.waits.filter (fun w => w.loc == l && decide (w.thr ≤ g.value))) 0
    (s.attachSets q).signalDone g
  else (s.fenceWr l g.ro 0x28 (leBytes 4 (satAdd 32 (fcIgn f) 1))).signalDone g

/-- Send a signal event to the fence unit (R139). -/
def State.sendSignal (s : State) (g : Sig) : State := { s with front := { s.front with sigs := s.front.sigs ++ [g] } }

/-- A request of the front end to a fence in a borrowed range, through its carrier (R285). -/
def State.fenceMreq (s : State) (h : Nat) (l : FLoc) (b : Nat → StlBody) : State :=
  let r := (s.hood h).block.ranges.find? (fun r => r.borrowed && r.lender == tagPkg l.1 && r.leaseId == tagLease l.1)
  match r with
  | some r => s.sendMreq { hood := h, epoch := s.reg rHOOD_EPOCH h } (r.hbase + (l.2 - r.cbase)) (tagPkg l.1) (tagLease l.1) r.carrier b
  | none => s

/-- Signal a fence by address for the front end itself (destroy and invalidation fences): a fence that cannot be reached is
not signalled. -/
def State.signalAt (s : State) (h c va v : Nat) : State :=
  match s.fenceAt h c va 1 with
  | (.at l ro, s) =>
    let v := min v (2 ^ 64 - 2)
    let s := if l.1 = 0 then s else s.fenceMreq h l (fun id => .fence id l.2 v)
    s.sendSignal { loc := l, va := va, ctx := c, hood := h, hgen := (s.hood h).gen, value := v, ro := ro }
  | (_, s) => s

/-- Signal a destroy fence, unless its address is zero (R286). -/
def State.signalVa (s : State) (h c va v : Nat) : State := if va = 0 then s else s.signalAt h c va v

end Sys2Proof.Machine
end

