-- ==== Sys2Proof/Machine/Hood.lean ====
section
/-!
DEFINITION. Machine/Hood.lean: what the hood manager and the hatter do to a hood as a whole: memory keys (R354, R358), extents
and erases (R104, R165), owners of sites (R21, R22), epochs (R169), ends of block changes (R160, R194), the guarantee check (R316),
hood failure (R27, R374), hood reset (R374 to R376) and unbinding (R423).
-/
namespace Sys2Proof.Machine

/-! ### Memory keys -/

/-- Set every cached line with a key index to I without writeback (R358). -/
def State.sweepKey (s : State) (idx : Nat) : State :=
  let dead := (s.coh.caches.filter (fun e => e.2.key == idx)).map (fun e => e.1 % 2 ^ 120)
  s.purge (fun l => dead.contains l)

/-- Generate the key at an index: its generation advances, with the sweep of R358 before it wraps. -/
def State.newKey (s : State) (idx : Nat) : State :=
  let g := ((s.hat.keyGens.find idx).getD 0 + 1) % 1024
  let s := if g = 0 then s.sweepKey idx else s
  { s with hat := { s.hat with keys := s.hat.keys.insert idx (g + 1), keyGens := s.hat.keyGens.put (fun _ => 0) idx g } }

/-- Erase the key at an index (R354, R369). -/
def State.killKey (s : State) (idx : Nat) : State := { s with hat := { s.hat with keys := s.hat.keys.erase idx } }

/-! ### Extents -/

/-- Set the lines that `p` names to I in every cache, after what is in flight about them; modified data goes back when `wb`. -/
def State.dropWhere (s : State) (p : Nat → Bool) (wb : Bool) : State :=
  let held := (((s.coh.dir.filter (fun e => p e.1)).map (fun e => e.1)) ++ ((s.coh.txns.filter (fun e => p e.1)).map (fun e => e.1)) ++
    ((s.coh.waiting.filter (fun e => p e.1)).map (fun e => e.1))).eraseDups
  let s := held.foldl (fun s l => (s.drainLine l).recallLine l wb) s
  s.purge p

/-- Set the lines of a channel interval to I in every cache. -/
def State.dropLines (s : State) (c base len : Nat) (wb : Bool) : State :=
  let lo := gaOf c base / 64
  s.dropWhere (fun l => decide (lo ≤ l) && decide (l < lo + len / 64)) wb

/-- Is a channel interval free for binding: erased, bound nowhere and in service (R104, R179)? -/
def State.freeAt (s : State) (c base len : Nat) : Bool :=
  let k := s.chan c
  decide (base + len ≤ 2999975936) && !k.isol && !k.retired && !(s.stack (c / 32)).isol &&
    k.extents.all (fun e => !overlaps e.base e.len base len) && k.dead.all (fun d => !overlaps d.1 d.2 base len) &&
    (s.stack (c / 32)).erases.all (fun e => e.chan != c || !overlaps e.base e.len base len)

/-- Channel addresses at which the lowest free fit can start: zero and the ends of what is taken, rounded up (R179). -/
def State.fitStarts (s : State) (c : Nat) : List Nat :=
  let k := s.chan c
  (0 :: k.extents.map (fun e => alignUp (e.base + e.len) 65536) ++ k.dead.map (fun d => alignUp (d.1 + d.2) 65536) ++
    ((s.stack (c / 32)).erases.filter (fun e => e.chan == c)).map (fun e => alignUp (e.base + e.len) 65536))

/-- The place for PLEN bytes in every member: the named address, or the lowest free fit (R165, R179). Each member needs a free
extent entry of its 64. -/
def State.placeFor (s : State) (members : List Nat) (plen : Nat) (cbase : Option Nat) : Option Nat :=
  let ok := fun b => members.all (fun c => s.freeAt c b plen)
  if !members.all (fun c => decide ((s.chan c).extents.length < 64)) then none
  else match cbase with
    | some b => if ok b then some b else none
    | none => ((members.flatMap s.fitStarts).filter ok).foldl (fun m b => match m with | none => some b | some x => some (min x b)) none

/-- Load the members' extent entries. -/
def State.bindExt (s : State) (members : List Nat) (base plen owner key : Nat) (lent ro : Bool) : State :=
  members.foldl (fun s c => s.modChan c (fun k => { k with
    extents := k.extents ++ [{ base := base, len := plen, owner := owner, lent := lent, ro := ro, key := key }] })) s

/-- Free the members' extent entries at a base, and have the pouncers erase what they held; a part on an isolated channel stays
out of service until the next cold start (R104). -/
def State.freeExt (s : State) (members : List Nat) (base plen : Nat) : State :=
  members.foldl (fun s c =>
    let s := s.dropLines c base plen false
    let s := s.modChan c (fun k => { k with extents := k.extents.filter (fun e => e.base != base) })
    if s.chanDown c then s.modChan c (fun k => { k with dead := k.dead ++ [(base, plen)] })
    else s.modStack (c / 32) (fun k => { k with erases := k.erases ++ [{ chan := c, base := base, len := plen }] })) s

/-- Does a block bind the extents at a base of a channel set (R192), or a lease (R193)? -/
def Block.binds (c : Block) (b : Block) (r : Range) : Bool :=
  c.ranges.any (fun q =>
    if r.borrowed then q.borrowed && q.state != 1 && q.lender == r.lender && q.leaseId == r.leaseId
    else !q.borrowed && q.cbase == r.cbase && c.channels == b.channels)

/-- Hoods other than h that hold a range's extents or lease: in the current block, in one that drains (R171), or in one that is staged. -/
def State.sharers (s : State) (h : Nat) (b : Block) (r : Range) : List Nat :=
  (List.range 16).filter (fun g =>
    let k := s.hood g
    g != h && ((k.created && k.block.binds b r) || (k.change.phase == .draining && (k.change.old.map (fun c => c.binds b r)).getD false) ||
      (k.change.phase == .staged && (k.change.new.map (fun c => c.binds b r)).getD false)))

/-- Every line of a range goes to I in every cache (R158, R180). -/
def State.dropRange (s : State) (b : Block) (r : Range) (wb : Bool) : State :=
  let m := membersOf b.channels
  if r.borrowed then s.dropWhere (fun l => isFarLine l && farPkg l == r.lender && farLease l == r.leaseId % 2 ^ 32) false
  else m.foldl (fun s c => s.dropLines c r.cbase (r.len / max m.length 1) wb) s

/-- Release what backs a range of a block (R180, R192, R193): its lines go to I; the last block that holds it erases it, or returns its lease. -/
def State.releaseBacking (s : State) (h : Nat) (b : Block) (r : Range) : State :=
  let s := s.dropRange b r false
  match s.sharers h b r with
  | g :: _ =>
    if r.borrowed then s
    else (membersOf b.channels).foldl (fun s c => s.modChan c (fun k => { k with
      extents := k.extents.map (fun e => if e.base == r.cbase && !e.lent then { e with owner := g } else e) })) s
  | [] =>
    if r.borrowed then
      if r.state == 4 then s else (s.stlSend r.carrier r.lender none (.ret r.leaseId)).rewatch r.lender
    else
      let m := membersOf b.channels
      s.freeExt m r.cbase (r.len / max m.length 1)

/-! ### Owners of sites -/

/-- Name a hood as a site's owner; the write empties the tile (R21, R357). -/
def State.ownSite (s : State) (i h : Nat) : State :=
  if (s.site i).owner == some h then s else (s.modSite i (fun k => { k with owner := some h, lastCtx := none })).clearTile i

/-- Set a site to no-owner (R22). -/
def State.disown (s : State) (i : Nat) : State := (s.modSite i (fun k => { k with owner := none, lastCtx := none })).clearTile i

/-- Gate a plank: the contents of its sites are lost (R299, R323). -/
def State.gatePlank (s : State) (p : Nat) : State :=
  (sitesOf p).foldl (fun s i => s.clearTile i) (s.modPlank p (fun k => { k with gated := true }))

/-- Gate every plank whose sites all have no owner (R21). -/
def State.gateFree (s : State) : State :=
  forN 128 s (fun s p => if (sitesOf p).all (fun i => (s.site i).owner.isNone) && !(s.plank p).gated then s.gatePlank p else s)

/-! ### The guarantee check (R316) -/

/-- Add two fractions. -/
def addFrac (a b : Nat × Nat) : Nat × Nat := (a.1 * b.2 + b.1 * a.2, a.2 * b.2)

/-- The hatter's check of the guarantees against the channels: every budget is scaled by 122 GB/s over the largest channel load;
what it sets takes effect at each hood's next window. It counts a clamp when the scaling begins or deepens. -/
def State.bandCheck (s : State) : State :=
  let hs := s.liveHoods.filter (fun h => (s.hood h).block.channels != 0)
  let load := fun h =>
    let q := max (s.reg rHB_GUAR h) (((List.range 4).map (fun c => s.reg (rHB_CLS_GUAR + 4 * c) h)).foldl (· + ·) 0)
    (q, (s.reg rHB_WIN_CFG h % 64 + 1) * (membersOf (s.hood h).block.channels).length)
  let sum := fun c => (hs.filter (fun h => (s.hood h).block.channels.getLsbD c)).foldl (fun a h => addFrac a (load h)) (0, 1)
  let top := ((List.range 256).map sum).foldl (fun a b => if a.1 * b.2 < b.1 * a.2 then b else a) (0, 1)
  let f : Nat × Nat := if 122000 * top.2 < top.1 then (122000 * top.2, top.1) else (1, 1)
  let deeper := decide (f.1 * s.front.bandDen < s.front.bandNum * f.2)
  let s := if deeper then s.hostClamp 0 5 else s
  let s := { s with front := { s.front with bandNum := f.1, bandDen := f.2 } }
  forN 16 s (fun s h =>
    let eff := fun v => alignDown (v * f.1 / f.2) 64
    s.modHood h (fun k => { k with effNext := some (
      eff (s.reg rHB_GUAR h) :: (List.range 4).map (fun c => eff (s.reg (rHB_CLS_GUAR + 4 * c) h)) ++ [65536 * f.1 / f.2]) }))

/-! ### Ends of block commands -/

/-- A block command reaches a final status of Table 2 (R160): the PF's BLKEND, and BLKCHG at DONE. INVALID is counted (R161). -/
def State.blkEnd (s : State) (h code st : Nat) : State :=
  let s := (s.setReg rHOOD_BLK_STATUS h (st + code * 16)).modHood h (fun k => { k with change := {} })
  let s := if st = 3 then s.reject h else s
  let s := s.causeM rHOOD_CAUSE 0 1 rHOOD_END_MAP h
  if st = 2 then s.cause rHOOD_CAUSE (h + 1) 0 else s

/-- The epoch after another: modulo 2^32, skipping 0 (R169). -/
def nextEpoch (e : Nat) : Nat := if (e + 1) % 2 ^ 32 = 0 then 1 else (e + 1) % 2 ^ 32

/-- Commit a new block under a new epoch; the old one drains (R169, R170, R174). -/
def State.commitBlock (s : State) (h : Nat) (b : Block) : State :=
  let old := (s.hood h).block
  (s.modReg rHOOD_EPOCH h nextEpoch).modHood h (fun k => { k with
    block := b, change := { k.change with phase := .draining, old := some old, new := none } })

/-- Replace the range that starts at a hood address. -/
def Block.setRange (b : Block) (hbase : Nat) (f : Range → Range) : Block :=
  { b with ranges := b.ranges.map (fun r => if r.hbase == hbase then f r else r) }

/-- A move returns to its source (R183): E + 2 is committed with the source alone; the target is freed at the drain. -/
def State.moveBack (s : State) (h : Nat) : State :=
  match (s.hood h).change.range with
  | none => s
  | some r =>
    let b := (s.hood h).block
    let t := (b.ranges.find? (fun q => q.hbase == r.hbase)).bind (fun q => q.target)
    let s := s.commitBlock h (b.setRange r.hbase (fun q => { q with state := 0, target := none }))
    s.modHood h (fun k => { k with change := { k.change with
      second := true, aborted := true
      range := t.map (fun t => { r with borrowed := t.borrowed, cbase := t.cbase, lender := t.lender, carrier := t.carrier, leaseId := t.leaseId }) } })

/-- A move is to end on its source (R183): at once while it copies, or when the draining epoch has drained, since only two epochs are live (R169). -/
def State.endMove (s : State) (h : Nat) : State :=
  let c := (s.hood h).change
  match c.phase with
  | .copying => s.moveBack h
  | .draining => if c.second then s else s.modHood h (fun k => { k with change := { k.change with aborted := true } })
  | _ => s

/-- The drain of a change is over: what left the block is released (R171, R175, R180, R181). -/
def State.drained (s : State) (h : Nat) : State :=
  let k := s.hood h
  let c := k.change
  if c.phase != .draining then s
  else match c.cmd with
    | 2 => ((c.leaving.foldl (fun s i => s.disown i) s).gateFree).blkEnd h 2 2
    | 4 => ((match c.range with | some r => s.releaseBacking h k.block r | none => s)).blkEnd h 4 2
    | 5 =>
      if c.second then
        ((match c.range with | some r => s.releaseBacking h k.block r | none => s)).blkEnd h 5 (if c.aborted then 6 else 2)
      else if c.aborted then s.moveBack h
      else s.modHood h (fun k => { k with change := { k.change with phase := .copying } })
    | n => s.blkEnd h n 2

/-- Take out the last entry that satisfies `p`. -/
def dropLast {α : Type} (p : α → Bool) (l : List α) : List α :=
  (l.reverse.eraseP p).reverse

/-- Give back what a change has been granted and not bound (R187, R194). -/
def State.returnGrants (s : State) (h : Nat) : State :=
  let k := s.hood h
  match k.change.new with
  | some b =>
    let gs := (b.ranges.filter (fun r => r.borrowed && !r.shared)).map (fun r => (r.carrier, r.lender, r.leaseId)) ++
      b.ranges.filterMap (fun r => r.target.bind (fun t => if t.borrowed then some (t.carrier, t.lender, t.leaseId) else none))
    (gs.filter (fun g => k.change.grants.contains g.2)).foldl (fun s g => s.stlSend g.1 g.2.1 none (.ret g.2.2)) s
  | none => s

/-- Free the local extents, and the key domain, that a change took before its commit; a shared range whose other holders have gone meanwhile is
released. -/
def State.unstage (s : State) (h : Nat) : State :=
  match (s.hood h).change.new with
  | some b =>
    let bases := (b.ranges.filter (fun r => !r.borrowed && !r.shared)).map (fun r => r.cbase) ++
      b.ranges.filterMap (fun r => r.target.bind (fun t => if t.borrowed then none else some t.cbase))
    let kept := fun c => (s.hood h).block.ranges.any (fun q => q.cbase == c && !q.borrowed) &&
      (s.hood h).block.channels == b.channels && (s.hood h).change.cmd != 8
    let s := (bases.filter (fun c => !kept c)).foldl (fun s c0 => (membersOf b.channels).foldl (fun s c => s.modChan c (fun k => { k with
      extents := dropLast (fun (e : Extent) => e.base == c0 && !e.lent) k.extents })) s) s
    let s := (b.ranges.filter (fun r => r.shared && !((s.hood h).created && (s.hood h).block.binds b r))).foldl (fun s r =>
      if (s.sharers h b r).isEmpty then s.releaseBacking h b r else s) s
    if b.keydom != 0 && !s.liveHoods.any (fun g => (s.hood g).block.keydom == b.keydom) then
      { s with hat := { s.hat with domains := s.hat.domains.erase b.keydom, domNonce := s.hat.domNonce.erase b.keydom } }
    else s
  | none => s

/-- End a change before its commit (R174): what it took is given back, tiles it stopped go on, planks it woke for nothing are gated (R21). -/
def State.abortStaged (s : State) (h st : Nat) : State :=
  let c := (s.hood h).change
  ((((s.returnGrants h).unstage h).blkEnd h c.cmd st).rejoin h).gateFree

/-- What is in flight of a hood under its draining epoch is discarded (R171, R194). -/
def State.discardReqs (s : State) (h : Nat) : State :=
  { s with stl := { s.stl with mreqs := s.stl.mreqs.filter (fun m => m.who.hood != h) } }

/-- A block change meets the failure or the reset of its hood (R174, R194): before the commit it ends ABORTED, as does a command that waits for its
record; after it the drain completes by discard, and a move not past its second commit ends on its source. -/
def State.cutChange (s : State) (h : Nat) : State :=
  let c := (s.hood h).change
  let s := match s.front.heldBlk.find? (fun e => e.2.1 == h) with
    | some e => ({ s with front := { s.front with heldBlk := s.front.heldBlk.filter (fun e => e.2.1 != h) } }).blkEnd h e.1 6
    | none => s
  match c.phase with
  | .stable => s
  | .staged => s.abortStaged h 6
  | .draining =>
    let s := s.discardReqs h
    if c.cmd == 5 && !c.second then ((s.moveBack h)).drained h else s.drained h
  | .copying => ((s.moveBack h)).drained h

/-! ### Ending work -/

/-- End works without completing them: records with a status when `rec` (R287 step 4, R266), tiles discarded, engines, slots and
waits freed, outstanding faults dropped. -/
def State.cancel (s : State) (p : Work → Bool) (st : Nat) (rec : Bool) : State :=
  let ws := s.worksOf p
  let s := ws.foldl (fun s e => s.accrue e.1) s
  let s := if rec then ws.foldl (fun s e => if e.2.phase == .queued then s else (s.writeRecord e.1 (if e.2.phase == .finished then e.2 else { e.2 with status := st })).2) s else s
  let s := ws.foldl (fun s e =>
    let x := e.2
    let s := if x.holds then x.heldTiles.foldl (fun s t => s.clearTile (s.siteOf x.hood (x.lo + t))) s else s
    let s := match x.engine with
      | some n => { s with front := { s.front with engines := s.front.engines.erase n } }
      | none => s
    s.freeSlots x.hood (x.slots.map (fun q => q.2) ++ x.outT.map (fun q => q.2) ++ x.moveT.map (fun q => q.2))) s
  let ids := ws.map (fun e => e.1)
  let rs := (ws.map (fun e => e.2.ring)).eraseDups
  let s := rs.foldl (fun s r => s.modRing r (fun k => { k with
    queue := k.queue.filter (fun i => !ids.contains i), started := k.started.filter (fun i => !ids.contains i) })) s
  let hs := (ws.map (fun e => e.2.hood)).eraseDups
  let s := hs.foldl (fun s h => s.modHood h (fun k => { k with
    faults := k.faults.filter (fun f => !(match f.work with | some w => ids.contains w | none => false)) })) s
  { s with works := s.works.filter (fun e => !ids.contains e.1), waits := s.waits.filter (fun w => !ids.contains w.work) }

/-- The live rings of a hood. -/
def State.hoodRings (s : State) (h : Nat) : List Nat := (s.rings.filter (fun e => e.2.live && e.2.hood == h)).map (fun e => e.1)

/-- The contexts of a hood. -/
def State.hoodCtxs (s : State) (h : Nat) : List Nat := (s.ctxs.filter (fun e => e.2.state != 0 && e.2.hood == h)).map (fun e => e.1)

/-- Release a rotation engine (R85). -/
def State.freeRot (s : State) (e : Nat) : State :=
  let k := s.rot e
  (({ s with rots := s.rots.erase e }).rewatch k.next).rewatch k.prev

/-- Release the rotation engines of a hood. -/
def State.freeRots (s : State) (h : Nat) : State :=
  ((s.rots.filter (fun e => e.2.hood == h + 1)).map (fun e => e.1)).foldl (fun s e => s.freeRot e) s

/-- The destroy fences of a failing hood signal if they lie in another hood's memory, or else receive the code (R293). -/
def State.failTeardowns (s : State) (h code : Nat) : State :=
  (s.hood h).teardown.foldl (fun s t =>
    if t.dva = 0 then s
    else
      let s := s.modHood h (fun k => { k with teardown := k.teardown.map (fun u => if u == t then { u with dva := 0 } else u) })
      match s.fenceAt h t.dctx t.dva 1 with
      | (.at l ro, s) =>
        if s.fenceHood l == some h then s.attachFence l ro t.dva code
        else s.sendSignal { loc := l, va := t.dva, ctx := t.dctx, hood := h, hgen := (s.hood h).gen, value := min t.dval (2 ^ 64 - 2), ro := ro }
      | (_, s) => s) s

/-- Fail a hood (R27, R374): its work ends FAILED, its fences carry the code (LENDER_LOST where the signalling work accessed the lost lender's
range, R190), its causes are set, and a block change ends as R194 says. Work with nothing left to run stays out. -/
def State.failHood (s : State) (h code : Nat) (lost : Option Nat) : State :=
  let k := s.hood h
  if !k.created || k.failed then s
  else
    let snaps := (s.hoodRings h).map (fun r => s.snapSet r code lost)
    let s := s.modHood h (fun k => { k with failed := true })
    let s := s.cancel (fun x => x.hood == h) 3 true
    let s := s.attachSnaps snaps
    let s := s.failTeardowns h code
    let s := (s.cause rHOOD_CAUSE (h + 1) 2).causeM rHOOD_CAUSE 0 2 rHOOD_FAIL_MAP h
    (s.cutChange h).scheduleAll h

/-- Move a device interface to ERROR: TDIERR, and its hood is failed (R227). -/
def State.tdiError (s : State) (h code : Nat) : State :=
  let s := s.modHood h (fun k => { k with tdi := 3 })
  (s.cause rHOST_CAUSE (h + 1) 0).failHood h code none

/-! ### Hood reset (Table 2 of Reset) -/

/-- Empty the fault queue of a hood (R116). -/
def State.emptyFaults (s : State) (h : Nat) : State :=
  (s.modHood h (fun k => { k with faults := [] })).setReg rXLT_FQ_CI h (s.reg rXLT_FQ_PI h)

/-- Signal the outstanding invalidation fences of a hood, in order (R128, R129). -/
def State.flushInvals (s : State) (h : Nat) : State :=
  let l := (s.hood h).invals
  let s := s.modHood h (fun k => { k with invals := [] })
  l.foldl (fun s v =>
    match s.fenceAt h v.ctx v.fva 1 with
    | (.at l ro, s) => s.applySignal { loc := l, va := v.fva, ctx := v.ctx, hood := h, hgen := (s.hood h).gen, value := min v.val (2 ^ 64 - 2), ro := ro }
    | (_, s) => s) s

/-- Destroy a context: its generation advances (R269). -/
def State.dropCtx (s : State) (c : Nat) : State :=
  s.modCtx c (fun k => { gen := (k.gen + 1) % 65536 : Ctx })

/-- The lines of a hood's channels and ranges, borrowed ones too, go to I; those held M are written back first (R158). -/
def State.flushLines (s : State) (h : Nat) : State :=
  let b := (s.hood h).block
  let n := max (membersOf b.channels).length 1
  (b.ranges.filter (fun r => !r.borrowed)).foldl (fun s r =>
    (membersOf b.channels).foldl (fun s c => s.dropLines c r.cbase (r.len / n) true) s)
      (s.dropWhere (fun l => isFarLine l && (s.farRange h l).isSome) false)

/-- Is a FREEZE or a RESTORE in progress (HOOD_MIG_STATUS 1 to 3, 5)? -/
def State.migBusy (s : State) (h : Nat) : Bool := [1, 2, 3, 5].contains (s.reg rHOOD_MIG_STATUS h)

/-- An update of R387, a freeze of R388 or a restore of R390 that waits ends ABORTED (R387, R392). -/
def State.cutService (s : State) (h : Nat) : State :=
  let s := if (s.hood h).ucNext.isEmpty then s else s.setReg rHOOD_UCODE_STATUS h 5
  let hold := s.reg rHOOD_PREEMPT h % 2 == 1
  let s := s.modHood h (fun k => { k with
    ucNext := [], ucPend := [none, none, none], ucOld := none, frozen := k.frozen && s.reg rHOOD_MIG_STATUS h == 4
    held := hold || (k.frozen && s.reg rHOOD_MIG_STATUS h == 4) })
  if s.migBusy h then
    { s.setReg rHOOD_MIG_STATUS h 10 with hat := { s.hat with migKeys := s.hat.migKeys.erase h } }
  else s

/-- Does a hood's tile map name a retired site? Such a hood stays FAILED until a RESTART whose map does not (R385). -/
def State.namesRetired (s : State) (h : Nat) : Bool := (s.tmap h).any (fun i => (s.site i).retired)

/-- Run a hood reset (R374 to R376): work cancelled, HOOD_FAILED attached, caches and translations dropped, contexts, rings and
patterns destroyed, GEN advanced, FAILED cleared. The block, keys, range contents, seal, device interface, interrupt tree and
HOLD stand. -/
def State.resetHood (s : State) (h : Nat) : State :=
  if !(s.hood h).created then s.cutChange h
  else
    let snaps := (s.hoodRings h).map (fun r => s.snapSet r 1 none)
    let s := s.cutService h
    let s := s.cancel (fun x => x.hood == h) 2 false
    let s := (s.tmap h).foldl (fun s i => (s.clearTile i).modSite i (fun k => { k with lastCtx := none })) s
    let s := s.cutChange h
    let s := s.attachSnaps snaps
    let s := (s.flushLines h).tlbDropHood h
    let s := s.flushInvals h
    let rs := s.hoodRings h
    let s := rs.foldl (fun s r => s.modRing r (fun k => { rgen := k.rgen + 1 : Ring })) s
    let s := (s.hoodCtxs h).foldl (fun s c => s.dropCtx c) s
    let s := { s with
      pats := s.pats.filter (fun e => e.2.hood != h), front := { s.front with wakeQ := s.front.wakeQ.filter (fun r => !rs.contains r) }
      bars := s.bars.map (fun (e : Nat × Barrier) => if e.1 / 64 == h then (e.1, { owner := e.2.owner }) else e)
      xlt := { s.xlt with
        atsReq := s.xlt.atsReq.filter (fun t => t.1 != h), priWait := s.xlt.priWait.filter (fun t => t.1 != h)
        waiters := s.xlt.waiters.filter (fun q => q.hood != h), denied := s.xlt.denied.filter (fun q => q.hood != h) }
      coh := { s.coh with atoms := s.coh.atoms.filter (fun a => a.2.hood != h) }
      stl := { s.stl with mreqs := s.stl.mreqs.filter (fun t => t.who.hood != h) } }
    let s := (s.emptyFaults h).freeRots h
    let s := s.modHood h (fun k => { k with
      gen := (k.gen + 1) % 65536, failed := s.namesRetired h, teardown := [], weights := [], slots := [] })
    (s.cause rSEC_CAUSE (h + 1) 1).scheduleAll h

/-! ### Unbinding (R423) -/

/-- Unbind the block of a hood that has been reset: sites to no-owner, extents to the pouncers, leases returned, keys erased. -/
def State.unbindHood (s : State) (h : Nat) : State :=
  let k := s.hood h
  let b := k.block
  let s := b.tmap.foldl (fun s i => s.disown i) s
  let s := s.modHood h (fun k => { k with created := false })
  let s := b.ranges.foldl (fun s r => s.releaseBacking h b r) s
  let s := { s with hat := { s.hat with migKeys := s.hat.migKeys.erase h } }.killKey h
  let dead := b.keydom != 0 && !s.liveHoods.any (fun g => (s.hood g).block.keydom == b.keydom)
  let s := if dead then
      let s := match s.hat.domains.find b.keydom with | some i => s.killKey i | none => s
      { s with hat := { s.hat with domains := s.hat.domains.erase b.keydom, domNonce := s.hat.domNonce.erase b.keydom } }
    else s
  let s := { s with stl := { s.stl with assocs := s.stl.assocs.map (fun (e : Nat × Assoc) => (e.1, { e.2 with hoods := e.2.hoods.filter (fun g => g != h) })) } }
  let hold := s.reg rHOOD_PREEMPT h % 2 == 1
  let s := s.modHood h (fun k => { vf := k.vf, gen := k.gen, tdi := k.tdi, seq := k.seq, held := hold : Hood })
  let s := ((s.setReg rHOOD_EPOCH h 0).setReg rPWR_HOOD_CFG h 0x1000).setReg rPWR_HOOD_STATUS h 0
  let s := { s with bars := s.bars.filter (fun e => e.1 / 64 != h), power := { s.power with staged := s.power.staged.filter (fun g => g != h) } }
  (s.gateFree).bandCheck

end Sys2Proof.Machine
end

