-- ==== Sys2Proof/Machine/Power.lean ====
section
/-!
DEFINITION. Machine/Power.lean: operating points (R321, R322), the effective cap and its division (R324, R326, R327), staged changes
(R337), modes (R328, R329), lapses (R330), plank weights (R331) and the return of a group offset (R333). Power is in units of 0.1 mW.
-/
namespace Sys2Proof.Machine

/-- The points of Table 1 of Clocks: (n, worst-case power of a plank). -/
def table1 : List (Nat × Nat) :=
  [(0, 45000), (8, 70000), (16, 106000), (24, 151000), (32, 208000), (34, 224000), (36, 241000), (38, 260000), (40, 280000),
   (42, 304000), (44, 330000), (46, 353000), (48, 376000), (50, 400000)]

/-- Linear between the listed points. -/
def powerBetween (n : Nat) : List (Nat × Nat) → Nat
  | (a, p) :: (b, q) :: r => if n < b then p + (q - p) * (n - a) / (b - a) else powerBetween n ((b, q) :: r)
  | [(_, p)] => p
  | [] => 0

/-- Worst-case power of a plank at point n. -/
def powerAt (n : Nat) : Nat := powerBetween n table1

/-- Estimated power of a plank at a point: its latest estimate scaled along Table 1, or the worst case before any estimate
(log entry 12). -/
def State.estAt (s : State) (p n : Nat) : Nat :=
  match s.power.est.find p with
  | some (w, m) => w * 10000 * powerAt n / powerAt m
  | none => powerAt n

/-- The highest point whose estimated power fits a budget; never below 0.8 GHz (R327). -/
def State.fitPoint (s : State) (p budget : Nat) : Nat :=
  ((List.range 51).filter (fun n => decide (s.estAt p n ≤ budget))).foldl max 0

/-! ### The effective cap (R324) -/

/-- Is the power group enabled and not left? -/
def State.groupOn (s : State) : Bool := s.reg rPWR_GRP_CFG 0 / 64 % 2 == 1 && !s.power.left

/-- The lowest of the four values and its source, with the group offset given. -/
def State.effCap (s : State) (off : Int) : Nat × Nat :=
  let cap := s.reg rPWR_CAP 0
  let l := [(cap, 0), (s.nap.sideCap, 1), (s.power.board, 2)] ++
    (if s.groupOn || off != 0 then [(((cap : Int) + off).toNat, 3)] else [])
  l.foldl (fun a b => if b.1 < a.1 then b else a) (cap, 0)

/-- The mode in force of a hood. -/
def State.modeOf (s : State) (h : Nat) : Nat := s.reg rPWR_HOOD_STATUS h % 4

/-- Active sites of a hood on a plank. -/
def State.sitesOn (s : State) (h p : Nat) : Nat := ((s.tmap h).filter (fun i => plankOf i == p)).length

/-- Planks holding a site of a hood in a mode. -/
def State.modePlanks (s : State) (m : Nat) : List Nat :=
  (List.range 128).filter (fun p => s.liveHoods.any (fun h => s.modeOf h == m && s.sitesOn h p != 0))

/-- The sum of R329 in W × 10: 880 W, 28.0 W for each plank that would be locked, 4.5 W for each other plank. -/
def lockedSum (locked : Nat) : Nat := 8800 + 280 * locked + 45 * (128 - locked)

/-- The weight of a plank in its hood (R331). -/
def State.weightOf (s : State) (h p : Nat) : Nat × Nat := ((s.hood h).weights.find p).getD (1, 1)

/-! ### The division (R326, R327) -/

/-- The point R327 gives each plank that holds an owned site and is awake, under a cap in W. -/
def State.division (s : State) (cap : Nat) : List (Nat × Nat × Bool) :=
  let awake := (List.range 128).filter (fun p => !(s.plank p).gated && s.liveHoods.any (fun h => s.sitesOn h p != 0))
  let lock := awake.filter (fun p => (s.modePlanks 2).contains p)
  let rest := awake.filter (fun p => !lock.contains p)
  let spr := rest.filter (fun p => (s.modePlanks 1).contains p)
  let nrm := rest.filter (fun p => !spr.contains p)
  let r2 := cap * 10000 - 8800000 - 280000 * lock.length
  let share := if spr.isEmpty then 0 else min 400000 (max 45000 ((r2 - 45000 * nrm.length) / spr.length))
  let sp := spr.map (fun p => (p, s.fitPoint p share))
  let r3 := r2 - (sp.map (fun e => s.estAt e.1 e.2)).foldl (· + ·) 0
  let hs := s.liveHoods.filter (fun h => s.modeOf h == 0)
  let wsum := (hs.map (fun h => (s.reg rPWR_HOOD_CFG h / 256 % 256) * (s.tmap h).length)).foldl (· + ·) 0
  let fixed := lock.map (fun p => (p, 40)) ++ sp
  let budget := fun h =>
    r3 * ((s.reg rPWR_HOOD_CFG h / 256 % 256) * (s.tmap h).length) / max wsum 1 -
      (fixed.map (fun e => s.estAt e.1 e.2 * s.sitesOn h e.1 / 12)).foldl (· + ·) 0
  let wt := fun h p => let w := s.weightOf h p; w.1 * 65536 / w.2 * s.sitesOn h p
  let fit := nrm.map (fun p =>
    (p, s.fitPoint p ((hs.map (fun h => budget h * wt h p / max ((nrm.map (wt h)).foldl (· + ·) 0) 1)).foldl (· + ·) 0)))
  lock.map (fun p => (p, 40, true)) ++ (sp ++ fit).map (fun e => (e.1, e.2, false))

/-- Send a plank toward a point, less what droop has lowered and throttling holds (R322, R336, R339). A gated plank takes it at its
wake; a throttled one is not locked again before its reading has fallen (R343). -/
def State.aim (s : State) (p n : Nat) (lock : Bool) : State :=
  s.modPlank p (fun k =>
    let t := n - k.lowered
    let t := if k.hot then 0 else if k.throt then min t k.n else t
    let lock := lock && (!k.throt || k.locked)
    if k.gated then { k with n := t, target := t, locked := lock, stepping := false, susp := false }
    else
      let go := t != k.n
      let block := k.droop || k.holdoff
      { k with target := t, locked := lock, stepping := go && !block, susp := go && block })

/-- Give the planks that satisfy `q` their points. -/
def State.redivide (s : State) (cap : Nat) (q : Nat → Bool) : State :=
  ((s.division cap).filter (fun e => q e.1)).foldl (fun s e => s.aim e.1 e.2.1 e.2.2) s

/-- The cap that planks follow now: the new one once it is given out, for planks of hoods no longer staged. -/
def State.capNow (s : State) : Nat := if s.power.capWait then s.power.newCap else s.reg rPWR_CAP_EFF 0 % 8192

/-- Does a plank hold a site of a hood whose change is still staged? -/
def State.stagedPlank (s : State) (p : Nat) : Bool := s.power.staged.any (fun h => s.sitesOn h p != 0)

/-- A staged change has taken effect at the package (R337): PWR_CAP_EFF reads the new value, the offset is in force, CAPSET is set. -/
def State.capDone (s : State) : State :=
  if !s.power.capWait || !s.power.staged.isEmpty then s
  else
    let off := s.power.fall.getD s.power.off
    let s := s.setReg rPWR_CAP_EFF 0 (s.power.newCap + s.power.newSrc * 8192)
    let s := s.setReg rPWR_GRP_OFFSET 0 ((off + 65536).toNat % 65536)
    ({ s with power := { s.power with capWait := false, off := off, fall := none, capTime := s.now } }).cause rPWR_CAUSE 0 0

/-- Stage a change for hoods: their planks follow at a barrier release or after 10 ms (R337). -/
def State.stage (s : State) (hs : List Nat) : State :=
  { s with power := { s.power with staged := s.power.staged ++ hs.filter (fun h => !s.power.staged.contains h) } }

/-- The effective cap may have changed: stage it (R337). Hoods hold barrier units from CREATE on, so each has a collective. -/
def State.changeCap (s : State) : State :=
  let (w, src) := s.effCap (s.power.fall.getD s.power.off)
  let cur := s.reg rPWR_CAP_EFF 0
  if !s.power.capWait && cur == w + src * 8192 && s.power.fall.isNone then s
  else
    let s := { s with power := { s.power with capWait := true, oldCap := cur % 8192, newCap := w, newSrc := src } }
    let s := (s.stage s.liveHoods).redivide w (fun p => s.liveHoods.all (fun h => s.sitesOn h p == 0))
    s.capDone

/-- A hood's staged change takes effect (R328, R329, R337). -/
def State.applyStage (s : State) (h : Nat) : State :=
  if !s.power.staged.contains h then s
  else
    let s := { s with power := { s.power with staged := s.power.staged.filter (fun g => g != h) } }
    let req := s.reg rPWR_HOOD_CFG h % 4
    let pending := s.reg rPWR_HOOD_STATUS h / 4 % 4 == 1
    let s := if pending && s.modeOf h != req then s.stage (s.liveHoods.filter (fun g => g != h)) else s
    let s := if pending then
        (if req = 2 ∧ s.modeOf h ≠ 2 then s.setReg rPWR_RPT_LAPSE h 0 else s).setReg rPWR_HOOD_STATUS h req
      else s
    let s := if s.modeOf h == 2 && decide (s.capNow * 10 < lockedSum (s.modePlanks 2).length) then
        (s.setReg rPWR_HOOD_STATUS h (3 * 4)).modReg rPWR_HOOD_CFG h (fun v => v / 4 * 4)
      else s
    let s := if s.power.capWait then s.cause rPWR_CAUSE (h + 1) 0 else s
    let s := s.redivide s.capNow (fun p => s.sitesOn h p != 0 && !s.stagedPlank p)
    s.capDone

/-- Divide again outside any staged change. -/
def State.repower (s : State) : State := s.redivide s.capNow (fun p => !s.stagedPlank p)

/-- Stage the demotion of repeatable hoods whose reservation no longer fits (R329). -/
def State.demote (s : State) : State :=
  if s.capNow * 10 < lockedSum (s.modePlanks 2).length then s.stage (s.liveHoods.filter (fun h => s.modeOf h == 2)) else s

/-! ### Lapses (R330) -/

/-- Count a lapse for each running kernel of a repeatable hood that `q` names by hood and plank. -/
def State.lapse (s : State) (q : Nat → Nat → Bool) : State :=
  (s.worksOf (fun x => x.kind == 1 && x.phase != .queued && !x.ran && s.modeOf x.hood == 2)).foldl (fun s e =>
    if (List.range e.2.cnt).any (fun t => q e.2.hood (plankOf (s.siteOf e.2.hood (e.2.lo + t)))) then s.countReg rPWR_RPT_LAPSE e.2.hood 1
    else s) s

def State.lapsePlank (s : State) (p : Nat) : State := s.lapse (fun _ q => q == p)

/-- The issue ramp of awake planks after a release or an emergency, where their current would rise faster than the slope (R334): a free value
(log entry 12). It lapses a repeatable kernel (R330). -/
def State.startRamp (s : State) (ps : List Nat) : State :=
  let (f, s) := s.draw
  if Config.choice f % 2 = 0 then s
  else ps.foldl (fun s p => if (s.plank p).gated then s else (s.modPlank p (fun k => { k with ramp := 1 })).lapsePlank p) s

/-! ### Weights (R331) -/

/-- Bound a weight to [1/2, 2]. -/
def boundWeight (w : Nat × Nat) : Nat × Nat :=
  if 2 * w.2 < w.1 then (2, 1) else if 2 * w.1 < w.2 then (1, 2) else w

/-- Move a normal hood's plank weights by the slacks of a release. -/
def State.reweigh (s : State) (h : Nat) (times : List (Nat × Nat)) : State :=
  if s.modeOf h != 0 then s
  else
    let rel := (times.map (fun t => t.2)).foldl max 0
    let at_ := times.map (fun t => (plankOf (s.siteOf h t.1), t.2))
    let ps := (at_.map (fun e => e.1)).eraseDups
    let sl := ps.map (fun p => (p, rel - ((at_.filter (fun e => e.1 == p)).map (fun e => e.2)).foldl max 0))
    let smax := (sl.map (fun e => e.2)).foldl max 0
    sl.foldl (fun s e =>
      let w := s.weightOf h e.1
      let w := if 8 * e.2 ≤ smax then (w.1 * 9, w.2 * 8) else w
      let w := if smax ≤ 2 * e.2 then (w.1 * 8, w.2 * 9) else w
      s.modHood h (fun k => { k with weights := k.weights.insert e.1 (boundWeight w) })) s

/-! ### Leaving a power group (R333) -/

/-- A member returns its offset to 0: a positive one is staged; a negative one waits for GROUP_RESTORE_TIMER. -/
def State.leaveGroup (s : State) : State :=
  if !s.groupOn then s
  else
    let s := { s with power := { s.power with left := true, confirm := false, rise := none } }
    if 0 < s.power.off then ({ s with power := { s.power with fall := some 0 } }).changeCap else s

/-- Members of the power group, in order. -/
def State.members (s : State) : List Nat :=
  (List.range (s.reg rPWR_GRP_CFG 0 % 64 + 1)).map (fun i => s.reg (rPWR_GRP_MEMBER + 4 * i) 0 % 4096)

/-- This package's index in the list. -/
def State.selfIdx (s : State) : Nat := s.reg rPWR_GRP_CFG 0 / 4096 % 64

end Sys2Proof.Machine
end

