-- ==== Sys2Proof/Machine/Contain.lean ====
section
/-!
DEFINITION. Machine/Contain.lean: physical containment (R25 to R27, R158), uncorrectable lines (R98 to R101), loss of a link and of a
path (R211, R212, R156, R189), and the singe (R367 to R369).
-/
namespace Sys2Proof.Machine

/-- PHYSFAULT with its detail, in each affected function, or in the PF for an unowned unit (R23, R25). -/
def State.physReport (s : State) (hs : List Nat) (kind idx : Nat) : State :=
  (if hs.isEmpty then [0] else hs.map (· + 1)).foldl (fun s fn => s.causeV rHOOD_CAUSE fn 3 rHOOD_FAULT_UNIT (kind + idx * 16)) s

/-- Fail several hoods. -/
def State.failAll (s : State) (hs : List Nat) (code : Nat) (lost : Option Nat) : State := hs.foldl (fun s h => s.failHood h code lost) s

/-- A staged change that would join an isolated site ends ABORTED (R194), that of a hood not yet created too. -/
def State.abortJoin (s : State) (is : List Nat) : State :=
  forN 16 s (fun s h =>
    let c := (s.hood h).change
    match c.phase, c.new with
    | .staged, some b => if b.tmap.any (fun i => is.contains i && !((s.hood h).created && (s.tmap h).contains i)) then (s.abortStaged h 6).scheduleAll h else s
    | _, _ => s)

/-- Isolate a tile site (R25): reported, and its hood fails (R27). Which hoods hold the site is read from their current blocks: a leaving site that is
isolated while its change drains is reported to the PF alone and fails no hood, a case the spec leaves open (log entry 89). -/
def State.isolateSite (s : State) (i : Nat) : State :=
  let hs := s.hoodsOfSite i
  let s := ((s.modSite i (fun k => { k with isol := true })).clearTile i).physReport hs 0 i
  (s.failAll hs 1 none).abortJoin [i]

/-- Isolate a plank: its clock stops and it is gated (R25, R343). -/
def State.isolatePlank (s : State) (p : Nat) : State :=
  let hs := s.hoodsOfPlank p
  let s := ((s.gatePlank p).modPlank p (fun k => { k with isol := true, stepping := false, susp := false })).physReport hs 1 p
  ((s.failAll hs 1 none).abortJoin (sitesOf p)).repower

/-- What follows the isolation of channels: their lines go to I without writeback (R158), extents under erase on them stay out of
service (R104), and moves onto them end on their source (R183). -/
def State.chansGone (s : State) (cs : List Nat) : State :=
  let s := cs.foldl (fun s c =>
    let s := s.dropLines c 0 3000000000 false
    let es := (s.stack (c / 32)).erases.filter (fun e => e.chan == c)
    let s := s.modStack (c / 32) (fun k => { k with erases := k.erases.filter (fun e => e.chan != c) })
    s.modChan c (fun k => { k with dead := k.dead ++ es.map (fun e => (e.base, e.len)) })) s
  s.liveHoods.foldl (fun s h =>
    let k := s.hood h
    let hit := cs.any (fun c => k.block.channels.getLsbD c)
    let early := k.change.cmd == 5 && !k.change.second && (k.change.phase == .draining || k.change.phase == .copying)
    let lcl := match k.change.range with
      | some r => k.block.ranges.any (fun q => q.hbase == r.hbase && (match q.target with | some t => !t.borrowed | none => false))
      | none => false
    if hit && early && lcl then s.endMove h else s) s

/-- Isolate a channel (R25, R101): DEGRADE, every hood whose block holds it is told. -/
def State.isolateChan (s : State) (c : Nat) : State :=
  if (s.chan c).isol then s
  else
    let s := (s.modChan c (fun k => { k with isol := true })).alert 9
    (s.chansGone [c]).physReport (s.hoodsOfChan c) 2 c

/-- Isolate a quadrant's channel controllers. -/
def State.isolateQuad (s : State) (q : Nat) : State :=
  let cs := (List.range 8).map (fun i => 8 * q + i)
  let s := (cs.foldl (fun s c => s.modChan c (fun k => { k with isol := true })) s).alert 9
  (s.chansGone cs).physReport (s.liveHoods.filter (fun h => cs.any (fun c => (s.hood h).block.channels.getLsbD c))) 3 q

/-- Isolate a stack, with all its channels. -/
def State.isolateStack (s : State) (n : Nat) : State :=
  let cs := (List.range 32).map (fun i => 32 * n + i)
  let s := (s.modStack n (fun k => { k with isol := true })).alert 9
  (s.chansGone cs).physReport (s.liveHoods.filter (fun h => cs.any (fun c => (s.hood h).block.channels.getLsbD c))) 4 n

/-- The hoods whose blocks hold a range with an extent over a line, be it bound, being added, moving or being released (R99). -/
def State.lineOwners (s : State) (line : Nat) : List Nat :=
  let c := chanOfLine line
  let ca := line % 2 ^ 26 * 64
  let covers := fun (b : Block) (cbase len : Nat) =>
    b.channels.getLsbD c && decide (cbase ≤ ca) && decide (ca < cbase + len / max (membersOf b.channels).length 1)
  (List.range 16).filter (fun h =>
    let k := s.hood h
    let inB := fun (b : Block) => b.ranges.any (fun r => (!r.borrowed && covers b r.cbase r.len) ||
      (match r.target with | some t => !t.borrowed && covers b t.cbase r.len | none => false))
    (k.created && inB k.block) || (k.change.phase != .stable && ((k.change.old.map inB).getD false || (k.change.new.map inB).getD false)))

/-- UNCORR of each owner of a line, or of the PF (R99). -/
def State.uncorr (s : State) (line : Nat) : State :=
  let hs := s.lineOwners line
  (if hs.isEmpty then [0] else hs.map (· + 1)).foldl (fun s fn => s.causeV rMEM_CAUSE fn 0 rMEM_UE_CHAN (chanOfLine line + line % 2 ^ 26 * 256)) s

/-- An uncorrectable line is marked, counted and reported; the 16th of a channel within 1 s isolates it (R99, R101). -/
def State.badLine (s : State) (line : Nat) : State :=
  let c := chanOfLine line
  let s := ((s.setPsn line true).countReg rMEM_UE_COUNT c 1).uncorr line
  let ts := s.now :: (s.chan c).ueTimes.filter (fun t => decide (s.now < t + 1000000000))
  let s := s.modChan c (fun k => { k with ueTimes := ts })
  if 16 ≤ ts.length then s.isolateChan c else s

/-- A channel controller reads a codeword with `n` bad symbols of its 72 (R98): up to 3 are corrected and counted, 4 or 5 are detected; 6 or more are
detected, or miscorrected as a corrected error is, to bytes that are open (log entry 84). -/
def State.eccEvent (s : State) (line n : Nat) : State :=
  let c := chanOfLine line
  if n = 0 then s
  else if n ≤ 3 then s.countReg rMEM_CE_COUNT c 1
  else if n ≤ 5 then s.badLine line
  else
    let (f, s) := s.draw
    if Config.choice f % 2 = 0 then s.badLine line
    else (s.putBytes (line * 64) ((List.range 64).map (fun i => Config.miscorrect f i))).countReg rMEM_CE_COUNT c 1

/-- The cache that a message goes to or comes from as a holder, or as the requester of a line. -/
def CMsg.holder : CMsg → Option Nat
  | .fwdS _ h _ | .fwdX _ h _ | .fwdRd _ h _ | .inv _ h | .recall _ h | .invAck _ h | .done _ h | .wbData _ h _ _ => some h
  | .grant _ q | .dataX _ q _ _ => some q
  | _ => none

/-- The cache that waits for a request's answer. -/
def CReq.cache : CReq → Option Nat
  | .rdS _ q | .rdX _ q | .upg _ q | .wbM q | .evC q => some q
  | _ => none

/-- The compute die's cache or bridges are isolated (R158): lines it held M go back poisoned, it leaves every holder vector, the homes await nothing
of it, its own directory is lost, and its channels are isolated. -/
def State.isolateDie (s : State) (d : Nat) : State :=
  let mine := s.coh.caches.filter (fun e => e.1 / 2 ^ 120 == d)
  let dirty := (mine.filter (fun e => e.2.st == .M)).map (fun e => e.1 % 2 ^ 120)
  let s := dirty.foldl (fun s l => (s.setPsn l true).uncorr l) s
  let s := { s with coh := { s.coh with
    caches := s.coh.caches.filter (fun e => e.1 / 2 ^ 120 != d), msgs := s.coh.msgs.filter (fun m => m.holder != some d) } }
  let s := s.purge (fun l => isLocalLine l && homeDie l == d)
  let s := (s.coh.dir.map (fun e => e.1)).foldl (fun s l => s.leaveDir d l) s
  let s := (s.coh.txns.map (fun e => e.1)).foldl (fun s l => if (s.txnOf l).req.cache == some d then s.arrived l else s.ackFrom l d false) s
  s.isolateStack d

/-- The spine die is isolated, so the package cannot serve: AER, Fatal (R228). -/
def State.isolateSpine (s : State) : State :=
  let s := { s with nap := { s.nap with spine := true } }
  let s := (s.modFn 0 (fun f => { f with aer := f.aer ||| 16 })).toHost (.aer 0 4)
  s.failAll s.liveHoods 1 none

/-! ### Paths (R212) -/

/-- Every wait on a fence of a package is released with LENDER_LOST (R285). -/
def State.dropFarWaits (s : State) (pkg : Nat) (only : Option (List Nat)) : State :=
  let (s, q) := s.releaseAll (s.waits.filter (fun w => w.kind == 0 && w.loc.1 != 0 && tagPkg w.loc.1 == pkg &&
    (match only with | some l => l.contains w.hood | none => true))) 5
  s.attachSets q

/-- Does a block name a package as a lender? -/
def Block.borrows (b : Block) (pkg : Nat) : Bool :=
  b.ranges.any (fun r => (r.borrowed && r.lender == pkg) || (match r.target with | some t => t.borrowed && t.lender == pkg | none => false))

/-- Does a command of a hood wait on a lender, or to bind what the lender has granted (Table 13 of Hoods)? -/
def State.asksOf (s : State) (h pkg : Nat) : Bool :=
  let c := (s.hood h).change
  c.phase == .staged && (c.lenders.contains pkg ||
    (match c.new with
     | some b => b.borrows pkg && !((s.hood h).created && c.cmd != 8 && (s.hood h).block.borrows pkg && !c.grants.any (fun g => g.1 == pkg))
     | none => false))

/-- A hood depends on a package: a lender of a range or of a command, or a ring peer. -/
def State.hoodDepends (s : State) (h pkg : Nat) : Bool :=
  ((s.hood h).created && (s.hood h).block.borrows pkg) || s.asksOf h pkg ||
  ((s.hood h).change.phase == .draining && ((s.hood h).change.old.map (fun b => b.borrows pkg)).getD false) ||
  s.rots.any (fun e => e.2.hood == h + 1 && (e.2.next == pkg || e.2.prev == pkg))

/-- What a hood does when the path to a lender or peer is lost (R89, R183, R187, R189): a target that is lost ends its move on the
source; a bound range goes to LOST and the hood fails; a rotation ring with a lost member stops and its hood fails. -/
def State.hoodPathLost (s : State) (h pkg : Nat) : State :=
  let k := s.hood h
  let tgt := k.block.ranges.any (fun r => match r.target with | some t => t.borrowed && t.lender == pkg | none => false)
  let s := if tgt then s.endMove h else s
  let s := if s.asksOf h pkg then (s.abortStaged h 5).scheduleAll h else s
  let bound := k.block.ranges.any (fun r => r.borrowed && r.lender == pkg)
  let ring := s.rots.any (fun e => e.2.hood == h + 1 && (e.2.next == pkg || e.2.prev == pkg))
  let s := if bound then s.modHood h (fun k => { k with block := { k.block with
      ranges := k.block.ranges.map (fun r => if r.borrowed && r.lender == pkg then { r with state := 4 } else r) } }) else s
  let s := if ring then
      { s with rots := s.rots.map (fun (e : Nat × Rot) => if e.2.hood == h + 1 then (e.1, e.2.stop) else e) }
    else s
  if bound then s.failHood h 1 (some pkg) else if ring then s.failHood h 1 none else s

/-- Every cached line of a lender's ranges goes to I (R156). -/
def State.dropFarLines (s : State) (pkg : Nat) (only : Option (List Nat)) : State :=
  s.purge (fun l => isFarLine l && farPkg l == pkg && (match only with | some hs => hs.any (fun h => (s.farRange h l).isSome) | none => true))

/-- Every message in flight to a package leaves flight (R212): what waits, what is unacknowledged, and what a retry buffer holds, whose flits keep
their place in the sequence with their payload empty (log entry 91). -/
def State.dropMsgs (s : State) (pkg : Nat) (only : Option (List Nat)) : State :=
  let mine := fun (h : Option Nat) => match only, h with | none, _ => true | some l, some x => l.contains x | some _, none => false
  let gone := fun (f : TxFlit) => f.dst == pkg && !f.part.isEmpty && f.part.all (fun m => mine m.hood)
  { s with
    stl := { s.stl with
      held := s.stl.held.filter (fun e => !(e.2.1 == pkg && mine e.2.2.hood))
      holds := if only.isNone then s.stl.holds.filter (fun e => e.2 != pkg) else s.stl.holds
      mreqs := s.stl.mreqs.filter (fun e => !(e.dst == pkg && mine (some e.who.hood)))
      queue := s.stl.queue.filter (fun i => match i with
        | .msg _ d m => !(d == pkg && mine m.hood)
        | .flit none _ f => !gone f
        | _ => true) }
    links := s.links.map (fun (e : Nat × Link) =>
      (e.1, { e.2 with retry := e.2.retry.map (fun f => if gone f then { f with msgs := [], part := [], more := false } else f) })) }

/-- Declare the path to a package lost (R212): what is in flight to it leaves flight, hoods follow R189 and R89, the power group R333,
and PATHLOST and STLPATH are set; a FREEZE whose session is with the package ends ABORTED (R392). `only` limits the loss to some hoods (R216). -/
def State.pathLost (s : State) (pkg : Nat) (only : Option (List Nat)) : State :=
  let hs := (match only with | some l => l | none => List.range 16).filter (fun h => s.hoodDepends h pkg)
  let s := if only.isNone then
      (({ s with stl := { s.stl with
        watch := s.stl.watch.map (fun (e : Nat × Watch) => if e.1 == pkg then (e.1, { e.2 with lost := true }) else e) } }).alert 7)
    else s
  let s := ((s.dropMsgs pkg only).dropFarLines pkg only).dropFarWaits pkg only
  let s := if only.isNone && s.groupOn && s.members.contains pkg then s.leaveGroup else s
  let s := (0 :: hs.map (· + 1)).foldl (fun s fn =>
    if s.fnOn fn then ((s.countReg rSTL_PATH_COUNT fn 1).setReg rSTL_PATH_ID fn pkg).cause rSTL_CAUSE fn 1 else s) s
  let s := forN 16 s (fun s h =>
    if only.isNone && s.reg rHOOD_MIG_STATUS h == 1 && s.reg rHOOD_MIG_PEER h == pkg then s.setReg rHOOD_MIG_STATUS h 10 else s)
  hs.foldl (fun s h => s.hoodPathLost h pkg) s

/-- Watched packages that no routing entry reaches any more lose their path (R212). -/
def State.checkPaths (s : State) : State :=
  ((s.stl.watch.filter (fun e => !e.2.lost && !s.dieReaches 0 e.1 && !s.dieReaches 1 e.1)).map (fun e => e.1)).foldl
    (fun s p => s.pathLost p none) s

/-! ### Links (R209, R211, R213) -/

/-- The routing entries that use a link, of its own die or through OTHER, and toward which MREQ are outstanding are held until those are
acknowledged (R209). -/
def State.holdMreqs (s : State) (l : Nat) : State :=
  let d := l / 20
  let uses := fun (e : Nat × Nat) => (s.route d e.2).getLsbD (l % 20) &&
    (e.1 == d || ((s.route e.1 e.2).getLsbD 20 && (s.routeLinks e.1 e.2).isEmpty))
  let ds := ((s.stl.mreqs.map (fun e => (e.die, e.dst))).eraseDups).filter uses
  { s with stl := { s.stl with holds := s.stl.holds ++ ds.filter (fun e => !s.stl.holds.contains e) } }

/-- Take a link out of its routing entries (R211, R213). -/
def State.unroute (s : State) (l : Nat) : State :=
  if s.stl.removed.contains l then s
  else
    let s := s.holdMreqs l
    { s with stl := { s.stl with removed := s.stl.removed ++ [l] } }

/-- Resend a link's unacknowledged flits, in order, on the other up links of their entries, before anything newer of their class (R211). A retrain
notice concerned this link alone and is not resent (R213). -/
def State.resend (s : State) (l : Nat) : State :=
  let fs := (s.link l).retry.filter (fun f => !f.part.any (fun m => m.body == .retrain))
  let s := s.modLink l (fun k => { k with retry := [], cred := [], rep := 0 })
  State.flush { s with stl := { s.stl with queue := fs.map (fun f => TxItem.flit none (l / 20) f) ++ s.stl.queue } }

/-- The hoods of rings that have no link to NEXT left, of LINKS and of their block, fail, and their engines stop (R89). -/
def State.cutRings (s : State) (p : Rot → Bool) : State :=
  let usable := fun (k : Rot) => (List.range 40).any (fun j =>
    k.links.getLsbD j && (s.hood (k.hood - 1)).block.links.getLsbD j && (s.link j).st == 2 && !(s.link j).isol)
  (s.rots.filter (fun e => e.2.hood != 0 && !e.2.stopped && p e.2 && !usable e.2)).foldl
    (fun s e => (s.modRot e.1 Rot.stop).failHood (e.2.hood - 1) 1 none) s

/-- A link is lost (R211): isolated, reported, unrouted, its messages resent; R89 and R212 follow. -/
def State.loseLink (s : State) (l : Nat) : State :=
  let hs := s.hoodsOfLink l
  let s := (s.modLink l (fun k => { k with st := 3, isol := true, drop := false, nak := false, delay := 10 })).alert 9
  let s := (0 :: hs.map (· + 1)).foldl (fun s fn => s.causeM rSTL_CAUSE fn 0 rSTL_LOST_MAP l) s
  let s := s.physReport hs 5 l
  let s := ((s.unroute l).resend l)
  (s.cutRings (fun k => k.links.getLsbD l)).checkPaths

/-! ### Singe (R367 to R369) -/

/-- Add a singe count for the recorder to write; a write the flash refuses waits for SINGE_COUNT_RETRY (R368). -/
def State.recordSinge (s : State) (b : Bool) : State := { s with nap := { s.nap with recPend := s.nap.recPend ++ [b] } }

/-- The hatter's identity keys and every session of a class are gone. -/
def State.eraseSessions (s : State) : State :=
  { s with hat := { s.hat with sessions := [], sessKeys := [], ideKeys := [], ideGo := [], migKeys := [], linkAuth := [] }
           stl := { s.stl with assocs := [] } }

/-- SINGE in the functions affected, with its class and cause (R368, Table 12). -/
def State.singeCause (s : State) (fns : List Nat) (b : Bool) (cause : Nat) : State :=
  fns.foldl (fun s fn =>
    (s.modReg rSEC_SINGE_CLASS fn (fun v => (v % 256 ||| (if b then 2 else 1)) + cause * 256)).cause rSEC_CAUSE fn 0) s

/-- Freezes and restores of a hood end ABORTED (R392), and so does an update whose slots are not yet exchanged (R387). -/
def State.abortMig (s : State) (h : Nat) : State :=
  let s := if s.migBusy h then s.setReg rHOOD_MIG_STATUS h 10 else s
  if (s.hood h).ucNext.isEmpty then s
  else (s.setReg rHOOD_UCODE_STATUS h 5).modHood h (fun k => { k with ucNext := [], ucPend := [none, none, none] })

/-- The singe recorder writes the counts that wait, if the flash accepts them; a written class B count ends the Count key (R368). -/
def State.writeCounts (s : State) (ok : Bool) : State :=
  let l := s.nap.recPend
  if l.isEmpty then s
  else if ok && s.nap.countKey then
    let a := (l.filter (fun b => !b)).length
    let b := (l.filter (fun b => b)).length
    { s with nap := { s.nap with recPend := [], recFail := false, countKey := b == 0 }
             hat := { s.hat with flash := { s.hat.flash with singeA := s.hat.flash.singeA + a, singeB := s.hat.flash.singeB + b } } }
  else ({ s with nap := { s.nap with recFail := true } }).alert 3

/-- A singe (Table 13): class A erases what confidentiality rests on; class B erases every key and holds every plank gated. A third
class A since cold power-on is class B with cause 5 (R367). -/
def State.singe (s : State) (b : Bool) (cause : Nat) : State :=
  let third := !b && decide (2 ≤ s.nap.classA)
  let cls := b || third
  let why := if third then 5 else cause
  let hs := s.liveHoods.filter (fun h => cls || (s.hood h).block.conf)
  let s := { s with nap := { s.nap with classA := if b then s.nap.classA else s.nap.classA + 1, classB := s.nap.classB || cls } }
  let s := ((s.alert 5).recordSinge cls).singeCause (0 :: hs.map (· + 1)) cls why
  let watched := (s.stl.watch.filter (fun e => !e.2.lost)).map (fun e => e.1)
  let s := s.eraseSessions
  let s := if cls then { s with hat := { s.hat with keys := [], table3 := false, aliasKey := false } }
    else hs.foldl (fun s h => (s.killKey h).killKey (s.keyIdx h (s.hood h).block.keydom)) s
  let s := hs.foldl (fun s h => if (s.hood h).block.conf then (s.abortMig h).tdiError h 8 else s.abortMig h) s
  let s := s.failAll hs 8 none
  let s := watched.foldl (fun s p => s.pathLost p none) s
  let s := s.writeCounts s.hat.flash.present
  if cls then forN 128 s (fun s p => s.gatePlank p) else s

end Sys2Proof.Machine
end

