-- ==== Sys2Proof/Machine/Service.lean ====
section
/-!
DEFINITION. Machine/Service.lean: saves and holds (R304, R308, R309), hood reset, plank reset and tile repair (R374, R384 to R386),
live microcode update (R387) and migration (R388 to R390).
-/
namespace Sys2Proof.Machine

/-! ### Saves and holds -/

/-- HOOD_RUNSTATE (R308): RUNNING, SAVING until every save has completed and every copy has stopped, then HELD. -/
def State.runState (s : State) (h : Nat) : Nat :=
  if !(s.hood h).held then 0
  else if s.works.any (fun e => e.2.hood == h && (e.2.phase == .saving || !e.2.moveT.isEmpty || e.2.engine.isSome)) then 1 else 2

/-- Every tile state of a preempted descriptor is acknowledged (R304). A slot that cannot take a state loses it: the descriptor
completes FAILED, PREEMPT_ABORT is attached to its ring's pending set and the ring stops (R309); during a plank reset the hood fails
instead (R28). -/
def State.saveEnd (s : State) (w : Nat) : State :=
  match s.work? w with
  | none => s
  | some x =>
    if x.phase != .saving && x.moveT.isEmpty then s
    else if (x.slots ++ x.moveT).any (fun e => s.slotBad x.hood e.2) then
      if x.slots.any (fun e => s.inReset x.hood (x.lo + e.1)) then s.failHood x.hood 1 none
      else
        let kids := (s.worksOf (fun y => y.parent == some w)).map (fun e => e.1)
        let live := (s.ring x.ring).state < 2
        let s := (x.slots ++ x.moveT).foldl (fun s e => s.clearTile (s.siteOf x.hood (x.lo + e.1))) s
        let s := s.cancel (fun y => match y.parent with | some p => p == w | none => false) 3 (!kids.isEmpty)
        let s := s.modWork w (fun x => { x with status := 3, phase := .finished })
        let s := s.endTop w
        if live then ((s.modRing x.ring (fun k => { k with state := 2 })).dbWrite x.ring).attachSets [(x.ring, 7)] else s
    else s.saveDone w

/-- Stop what a hold stops: every claim is preempted and every top-level copy ends at its piece (R308). -/
def State.quiesce (s : State) (h : Nat) : State :=
  (s.copies h).foldl (fun s w => s.stopCopy w) ((s.holders h).foldl (fun s w => s.preempt w) s)

/-- Hold a hood (R308). -/
def State.holdHood (s : State) (h : Nat) : State := (s.modHood h (fun k => { k with held := true })).quiesce h

/-- End a hold unless the PF holds HOLD or the hood is frozen (R308, R387). -/
def State.unhold (s : State) (h : Nat) : State :=
  if s.reg rHOOD_PREEMPT h % 2 == 1 || (s.hood h).frozen then s
  else (s.modHood h (fun k => { k with held := false, ucOld := none })).scheduleAll h

/-! ### Plank reset (R28, R384) -/

/-- Works whose claim holds a site of a plank. -/
def State.worksOn (s : State) (p : Nat) : List (Nat × Work) :=
  s.worksOf (fun x => x.holds && x.heldTiles.any (fun t => plankOf (s.siteOf x.hood (x.lo + t)) == p))

/-- An active site: not retired, and site 12 only once its spare is assigned (R2, R142, R143). -/
def State.siteActive (s : State) (i : Nat) : Bool := !(s.site i).retired && (i % 13 != 12 || (s.plank (plankOf i)).spare)

/-- The package's count of active tiles (R143). -/
def State.activeTiles (s : State) : Nat := ((List.range 1664).filter s.siteActive).length

/-- Hoods that answer Busy are measured again: MEASURED (R366). -/
def State.remeasure (s : State) (hs : List Nat) : State :=
  hs.foldl (fun s h => if (s.hood h).meas then (s.modHood h (fun k => { k with meas := false })).cause rSEC_CAUSE (h + 1) 1 else s) s

/-- The plank is reset: hoods with a save outstanding fail (R28); its sites are emptied and tested, isolation is released, a failing
site is isolated, a failing unassigned spare is marked unusable, and saved sites are restored on the same sites (R384); droop and throttle state
carry over (R343). Isolation is released at this
end also where the plank was isolated while the reset already waited for saves, a case the spec leaves open (R29, log entry 89). -/
def State.plankResetEnd (s : State) (p : Nat) : State :=
  let s := s.failAll (((s.worksOn p).map (fun e => e.2.hood)).eraseDups) 1 none
  let bad := (s.plank p).badSites
  let s := (sitesOf p).foldl (fun s i => s.clearTile i) s
  let spareBad := bad.contains (13 * p + 12) && !(s.plank p).spare
  let s := s.modPlank p (fun k => { k with
    isol := false, saveWait := false, badSites := [], stepping := false, susp := false, ramp := 0, spareBad := k.spareBad || spareBad })
  let s := (sitesOf p).foldl (fun s i =>
    if !s.siteActive i then s else if bad.contains i then s.isolateSite i else s.modSite i (fun k => { k with isol := false })) s
  let s := s.setReg rTOP_MAINT_STATUS 0 (2 + if spareBad then 8 else 0)
  let back := s.worksOf (fun x => x.phase == .saved && x.parent.isNone && x.pin &&
    (List.range x.cnt).any (fun t => plankOf (s.siteOf x.hood (x.lo + t)) == p))
  let s := back.foldl (fun s e => if s.mayRun e.2.hood then (s.tryResume e.1).getD s else s) s
  ((s.remeasure (s.hoodsOfPlank p)).scheduleAll 0).repower

/-- A plank reset proceeds once no save of its sites is outstanding. -/
def State.plankResetNext (s : State) (p : Nat) : State :=
  if (s.plank p).saveWait && (s.worksOn p).isEmpty then s.plankResetEnd p else s

/-- Is a maintenance command in progress? -/
def State.maintBusy (s : State) : Bool := s.reg rTOP_MAINT_STATUS 0 % 8 == 1

/-- PLANK_RESET (R384). A command written while one runs has no effect and is counted (log entry 21); an index that names no
plank is INVALID. -/
def plankResetEff (p : Nat) (bad : List Nat) (s : State) : State :=
  if !s.ready then s
  else if s.maintBusy then s.errCount 0
  else if 128 ≤ p then s.setReg rTOP_MAINT_STATUS 0 3
  else
    let s := s.setReg rTOP_MAINT_STATUS 0 1
    let s := s.modPlank p (fun k => { k with saveWait := true, badSites := bad.filter (fun i => plankOf i == p) })
    let s := (s.hoodsOfPlank p).foldl (fun s h => s.modHood h (fun k => { k with meas := true })) s
    let s := (s.worksOn p).foldl (fun s e => (s.preempt e.1).modWork e.1 (fun x => { x with pin := true })) s
    s.plankResetNext p

def execPlankReset (p : Nat) (failSites : List Nat) (s : State) : Host.Outcome State Fault Refusal :=
  run true (plankResetEff p failSites) s

/-- PLANK_RESET_SAVE_TIMEOUT (R28): 100 µs have passed, and a hood with an outstanding save of the plank's sites fails. -/
def execPlankResetSaveTimeout (p : Nat) (s : State) : Host.Outcome State Fault Refusal :=
  run (decide (p < 128)) (fun s => if (s.plank p).saveWait then s.plankResetEnd p else s) s

/-! ### Tile repair (R385, R386) -/

/-- Retire a site for good, in the map and in the records. -/
def State.retireSite (s : State) (f : Nat) : State :=
  let s := (s.modSite f (fun k => { k with retired := true, isol := true })).clearTile f
  { s with hat := { s.hat with flash := { s.hat.flash with retiredSites := s.hat.flash.retiredSites ++ [f] } } }

/-- REPAIR_SITE (Table 4 of Reset). `spareOk` is the outcome of the spare's self-test; a spare that fails is unusable. A repair in a hood under a
live update waits (R392). -/
def repairSiteEff (f : Nat) (spareOk : Bool) (s : State) : State :=
  let p := plankOf f
  let own := (s.hoodsOfSite f).head?
  let busy := match own with | some h => (s.hood h).change.phase != .stable || (s.hood h).frozen | none => false
  if !s.ready then s
  else if s.maintBusy then s.errCount 0
  else if 1664 ≤ f then s.setReg rTOP_MAINT_STATUS 0 3
  else if !s.siteActive f || busy then s.setReg rTOP_MAINT_STATUS 0 4
  else if (own.map (fun h => !(s.hood h).ucNext.isEmpty)).getD false then
    { s.setReg rTOP_MAINT_STATUS 0 1 with hat := { s.hat with repair := some (f, spareOk) } }
  else
    let s := if (s.site f).isol then s.failAll own.toList 1 none else s.isolateSite f
    let usable := !(s.plank p).spare && !(s.plank p).spareBad
    if usable && spareOk then
      let i := 13 * p + 12
      let s := (s.retireSite f).modPlank p (fun k => { k with spare := true })
      let s := { s with hat := { s.hat with flash := { s.hat.flash with spares := s.hat.flash.spares ++ [p] } } }
      let s := (s.modSite i (fun k => { k with isol := false })).setReg rTOP_ACTIVE_TILES 0 s.activeTiles
      let s := match own with
        | some h =>
          let s := ((s.disown f).ownSite i h).modHood h (fun k => { k with
            block := { k.block with tmap := k.block.tmap.map (fun j => if j == f then i else j) } })
          (s.modReg rHOOD_EPOCH h nextEpoch).resetHood h
        | none => s
      s.setReg rTOP_MAINT_STATUS 0 2
    else
      let s := if usable then s.modPlank p (fun k => { k with spareBad := true }) else s
      let s := s.retireSite f
      (s.setReg rTOP_ACTIVE_TILES 0 s.activeTiles).setReg rTOP_MAINT_STATUS 0 5

/-- A repair that waited for a live update to be DONE or ABORTED goes on (R392). -/
def State.repairGo (s : State) : State :=
  match s.hat.repair with
  | some (f, ok) =>
    if (s.hoodsOfSite f).all (fun h => (s.hood h).ucNext.isEmpty) then
      repairSiteEff f ok ({ s with hat := { s.hat with repair := none } }.setReg rTOP_MAINT_STATUS 0 0)
    else s
  | none => s

def execRepairSite (f : Nat) (spareOk : Bool) (s : State) : Host.Outcome State Fault Refusal := run true (repairSiteEff f spareOk) s

/-- RETIRE_CHANNEL (R386): recorded at once, in effect from the next cold start. -/
def retireChannelEff (c : Nat) (s : State) : State :=
  if !s.ready then s
  else if s.maintBusy then s.errCount 0
  else if 256 ≤ c then s.setReg rTOP_MAINT_STATUS 0 3
  else
    let l := s.hat.flash.retiredChans
    let s := { s with hat := { s.hat with flash := { s.hat.flash with retiredChans := if l.contains c then l else l ++ [c] } } }
    s.setReg rTOP_MAINT_STATUS 0 2

def execRetireChannel (c : Nat) (s : State) : Host.Outcome State Fault Refusal := run true (retireChannelEff c) s

/-! ### Hood reset (R374) -/

/-- HOOD_RESET.GO by the PF for the selected hood, or by a VF for its own. -/
def hoodResetEff (fn : Nat) (s : State) : State :=
  let h := s.selHood fn
  if !s.ready || !s.fnOn fn then s
  else if !s.hoodExists h then s.errCount fn
  else if s.nap.classB then s
  else (s.resetHood h).repairGo

def execHoodReset (fn : Nat) (s : State) : Host.Outcome State Fault Refusal := run (decide (fn < 17)) (hoodResetEff fn) s

/-! ### Live microcode update (R387) -/

/-- SVN of the image of a class that runs in a hood. -/
def Hood.svnOf (k : Hood) (cls : Nat) : Nat := k.ucode.getD (cls - 1) 0

/-- Raise the stored SVN of a class to that of an AUTOCOMMIT image, unless a lower one still runs in a hood (R353). -/
def State.autoCommit (s : State) (cls svn : Nat) : State :=
  let low := s.liveHoods.any (fun h => decide ((s.hood h).svnOf cls < svn))
  if low || svn ≤ s.hat.flash.svn.getD cls 0 then s
  else { s with hat := { s.hat with flash := { s.hat.flash with svn := s.hat.flash.svn.set cls svn } } }

/-- Exchange the slots of the classes of an update and end it (steps 4 and 5 of Table 5 of Reset). -/
def State.swapUcode (s : State) (h : Nat) : State :=
  let cs := (s.hood h).ucNext
  let s := s.modHood h (fun k => { k with
    ucOld := some (k.ucode, k.ucPend), ucode := (List.range 3).map (fun i => ((k.ucPend.getD i none)).getD (k.ucode.getD i 0))
    ucPend := [none, none, none], ucNext := [] })
  let s := cs.foldl (fun s c => match s.hat.staged.find c with
    | some im =>
      let f := s.hat.flash
      let s := { s with hat := { s.hat with
        flash := { f with imgSvn := f.imgSvn.set c im.svn, auto := f.auto.set c im.auto }, running := s.hat.running.set c im.svn } }
      if im.auto then s.autoCommit c im.svn else s
    | none => s) s
  (s.setReg rHOOD_UCODE_STATUS h 3).unhold h

/-! ### The image of a hood (R389) -/

/-- Bytes of a local range that have been written, by offset, in order of global address. -/
def State.rangeBytes (s : State) (b : Block) (r : Range) : List (Nat × Byte) :=
  let m := membersOf b.channels
  let g := granBytes b.gran
  let n := max m.length 1
  s.mem.filterMap (fun e =>
    let c := e.1 / 2 ^ 32
    let ca := e.1 % 2 ^ 32
    match m.findIdx? (fun x => x == c) with
    | some k =>
      if r.cbase ≤ ca ∧ ca < r.cbase + r.len / n then
        some (((ca - r.cbase) / g * n + k) * g + (ca - r.cbase) % g, e.2)
      else none
    | none => none)

/-- Poisoned lines of a local range, by line offset. -/
def State.rangePsn (s : State) (b : Block) (r : Range) : List Nat :=
  ((s.poison.map (fun e => e.1)).filterMap (fun l =>
    let m := membersOf b.channels
    let g := granBytes b.gran
    let n := max m.length 1
    let ca := l % 2 ^ 26 * 64
    match m.findIdx? (fun x => x == chanOfLine l) with
    | some k =>
      if r.cbase ≤ ca ∧ ca < r.cbase + r.len / n then some ((((ca - r.cbase) / g * n + k) * g + (ca - r.cbase) % g) / 64) else none
    | none => none))

/-- How a migration image tells a work's state: fetched, saved, waiting, or started. -/
def phaseCode : WPhase → Nat
  | .queued => 0
  | .saved => 1
  | .waiting => 2
  | _ => 3

/-- A work as the image holds it. -/
def State.migWork (s : State) (w : Nat) (x : Work) : MigWork :=
  let wt := s.waits.find? (fun q => q.work == w)
  { num := w, ring := x.ring, ctx := x.ctx, parent := x.parent, idx := x.idx, phase := phaseCode x.phase, desc := x.desc, args := x.args
    lo := x.lo, cnt := x.cnt, slots := x.slots, prog := x.prog, doneT := x.doneT, elems := x.elems, doneN := x.doneN, runN := x.runN
    ran := x.ran, pid := x.pid, vals := x.vals
    left := match wt with | some q => q.start + q.timeout * 1000 - s.now | none => 0
    lo0 := x.lo0, outT := x.outT, psnN := x.psnN, marks := [x.clamped, x.psnw, x.psn]
    sums := [x.status, x.aflags.toNat, x.vstat.toNat, x.stkcnt, x.empty.toNat, x.tstart] }

/-- The image of a held hood. -/
def State.imageOf (s : State) (h : Nat) : MigImage :=
  let k := s.hood h
  let b := k.block
  let rs := s.hoodRings h
  { keyOk := true, key := 0, seqOk := true, srcPkg := s.reg rSTL_PKG_ID 0, ntile := b.tmap.length, nchan := (membersOf b.channels).length
    gran := b.gran, conf := b.conf, ctxBase := s.reg rFE_CTX_BASE h, ctxCount := s.reg rFE_CTX_COUNT h
    ringBase := s.reg rFE_RING_BASE h, ringCount := s.reg rFE_RING_COUNT h
    barUnits := (s.bars.filter (fun e => e.1 / 64 == h)).length
    saveBase := s.reg rHOOD_SAVE_BASE h, saveLen := s.reg rHOOD_SAVE_LEN h
    svn := s.hat.running.headD 0 :: k.ucode, sleepIdle := s.reg rFE_SLEEP_IDLE h, fqTimeout := s.reg rXLT_FQ_TIMEOUT h
    winBase := s.reg rHOST_WIN_BASE h, schedCfg := s.reg rHOOD_SCHED_CFG h, hoodCfg := s.reg rPWR_HOOD_CFG h, gen := k.gen
    hbRegs := s.reg rHB_WIN_CFG h :: s.reg rHB_GUAR h :: (List.range 4).map (fun c => s.reg (rHB_CLS_GUAR + 4 * c) h) ++
      (List.range 4).map (fun c => s.reg (rHB_LAT_THR + 4 * c) h)
    ctxs := (s.hoodCtxs h).map (fun c =>
      let x := s.ctx c
      { num := c, state := x.state, gen := x.gen, ptroot := x.ptroot, pasid := x.pasid, pasidv := x.pasidv, share := x.share
        evbase := x.evbase, evlog2 := x.evlog2, defto := x.defto, vt := x.vt, usage := x.usage
        clamp := s.reg rCTX_CLAMP c, invalid := s.reg rCTX_INVALID c })
    rings := rs.map (fun r =>
      let x := s.ring r
      { num := r, ctx := x.ctx, dbase := x.dbase, dbrec := x.dbrec, log2n := x.log2n, pfd := x.pfd, ci := x.ci, wgen := x.wgen
        rgen := x.rgen, psn := x.psn })
    pats := (s.pats.filter (fun e => e.2.hood == h && e.2.live)).map (fun e =>
      (e.1, e.2.image, e.2.res))
    ranges := b.ranges.map (fun r => { hbase := r.hbase, len := r.len, ro := r.ro, bytes := s.rangeBytes b r, psn := s.rangePsn b r })
    works := (s.worksOf (fun x => x.hood == h)).map (fun e => s.migWork e.1 e.2)
    ctls := (s.saves.filter (fun e => e.1 / 2048 == h)).map (fun e =>
      { slot := e.1 % 2048, valid := e.2.valid, poison := e.2.poison, tags := e.2.tags, modes := e.2.modes
        vstat := e.2.vstat, attn := e.2.attn }) }

/-- Bytes of the image (R389): range chunks of up to 1 MiB with 48 bytes each, and the sections whose layout the spec does not state
(log entry 13). -/
def State.imageSize (s : State) (h : Nat) : Nat :=
  ((s.hood h).block.ranges.map (fun r => r.len + (r.len + 2 ^ 20 - 1) / 2 ^ 20 * 48)).foldl (· + ·) (Config.imageExtra h).toNat

/-- Abandon the accesses that wait on faults: their steps are not started (R388 step 3). -/
def State.abandonFaults (s : State) (h : Nat) : State :=
  let s := s.modHood h (fun k => { k with faults := [] })
  let s := (s.worksOf (fun x => x.hood == h && (x.phase == .stalled || !x.outT.isEmpty))).foldl (fun s e =>
    s.modWork e.1 (fun x => { x with
      phase := if x.phase == .stalled then (if x.ran then .finished else .started) else x.phase
      backT := x.outT.map (fun o => o.1) })) s
  (s.hoodRings h).foldl (fun s r => s.modRing r (fun k => { k with xstop := false })) s

/-- Write the image and freeze the hood (R388 steps 3 to 5). -/
def State.freezeNow (s : State) (h : Nat) : State :=
  let s := ((s.flushInvals h).abandonFaults h).flushLines h
  let n := s.imageSize h
  let (f, s) := s.draw
  let im : MigImage := { s.imageOf h with key := f }
  let s := s.modHood h (fun k => { k with frozen := true, image := some im })
  let s := s.toHost (.image (s.reg rHOOD_MIG_ADDR h) im)
  (s.setReg rHOOD_MIG_STATUS h 4).setReg rHOOD_MIG_DONE h n

/-! ### What waits for a hood (R387, R388) -/

/-- Bind the ranges of an image from erased extents, or answer that they are short. -/
def State.bindImage (s : State) (h : Nat) (rs : List MigRange) : Option State :=
  rs.foldl (fun o r => o.bind (fun s =>
    let b := (s.hood h).block
    let m := membersOf b.channels
    (s.placeFor m (r.len / max m.length 1) none).map (fun base =>
      let s := s.bindExt m base (r.len / max m.length 1) h (s.keyIdx h b.keydom) false false
      let s := s.modHood h (fun k => { k with block := { k.block with
        ranges := k.block.ranges ++ [{ hbase := r.hbase, len := r.len, ro := r.ro, cbase := base }] } })
      let ga := fun o => stripe m (granBytes b.gran) base o
      let s := r.bytes.foldl (fun s e => s.putBytes (ga e.1) [e.2]) s
      r.psn.foldl (fun s l => s.setPsn (ga (64 * l) / 64) true) s))) (some s)

/-- Put a context of an image back (R390). -/
def State.restoreCtx (s : State) (h : Nat) (c : MigCtx) : State :=
  let s := s.modCtx c.num (fun _ => {
    state := c.state, hood := h, gen := c.gen, ptroot := c.ptroot, pasid := c.pasid, pasidv := c.pasidv, share := c.share
    evbase := c.evbase, evlog2 := c.evlog2, defto := c.defto, vt := c.vt, usage := c.usage })
  (s.setReg rCTX_CLAMP c.num c.clamp).setReg rCTX_INVALID c.num c.invalid

/-- Put a work of an image back under its new number; a wait goes on with what was left of its timeout. -/
def State.restoreWork (s : State) (h base : Nat) (img : MigImage) (x : MigWork) : State :=
  let new := fun n => base + (img.works.findIdx? (fun y => y.num == n)).getD 0
  let ph : WPhase := match x.phase with | 0 => .queued | 1 => .saved | 2 => .waiting | _ => .started
  let w : Work := {
    ring := x.ring, ctx := x.ctx, hood := h, hgen := img.gen, rgen := (s.ring x.ring).rgen, epoch := s.reg rHOOD_EPOCH h, desc := x.desc
    args := x.args, parent := x.parent.map new, idx := x.idx, phase := ph, lo := x.lo, cnt := x.cnt, lo0 := x.lo0, slots := x.slots
    prog := x.prog, doneT := x.doneT, elems := x.elems, doneN := x.doneN, runN := x.runN, ran := x.ran, pid := x.pid, vals := x.vals
    outT := x.outT, backT := x.outT.map (fun o => o.1), psnN := x.psnN
    clamped := x.marks.getD 0 false, psnw := x.marks.getD 1 false, psn := x.marks.getD 2 false
    status := x.sums.getD 0 0, aflags := BitVec.ofNat 6 (x.sums.getD 1 0), vstat := BitVec.ofNat 5 (x.sums.getD 2 0)
    stkcnt := x.sums.getD 3 0, empty := BitVec.ofNat 32 (x.sums.getD 4 0), tstart := x.sums.getD 5 0, since := s.now }
  let n := new x.num
  let s := { s with works := s.works.insert n w }
  let s := if x.parent.isSome then s
    else s.modRing x.ring (fun k => if x.phase = 0 then { k with queue := k.queue ++ [n] } else { k with started := k.started ++ [n] })
  let s := s.modHood h (fun k => { k with slots := k.slots ++ x.slots.map (fun e => e.2) ++ x.outT.map (fun e => e.2) })
  if x.phase = 2 && dKind x.desc = 5 then
    match s.fenceAt h x.ctx (fVa x.desc) 0 with
    | (.at l _, s) =>
      let wt : Wait := {
        work := n, ctx := x.ctx, ring := x.ring, hood := h, loc := l, va := fVa x.desc, thr := fValue x.desc, start := s.now
        timeout := (x.left + 999) / 1000 }
      { s with waits := s.waits ++ [wt] }
    | (_, s) => s
  else s

/-- The outcome of RESTORE for an image (R390): the status, and the hood as rebuilt where it is RESTORED. -/
def State.restoreTo (s : State) (h : Nat) (img : MigImage) : Nat × State :=
  let k := s.hood h
  let b := k.block
  let run3 := s.hat.running.headD 0 :: k.ucode
  let old := (List.range 4).any (fun i => decide (run3.getD i 0 < img.svn.getD i 0))
  let fits := decide (img.ntile ≤ b.tmap.length) && img.nchan == (membersOf b.channels).length && img.gran == b.gran &&
    img.conf == b.conf && img.ctxBase == s.reg rFE_CTX_BASE h && decide (img.ctxCount ≤ s.reg rFE_CTX_COUNT h) &&
    img.ringBase == s.reg rFE_RING_BASE h && decide (img.ringCount ≤ s.reg rFE_RING_COUNT h) && decide (img.barUnits ≤ 64) &&
    img.pats.all (fun p => decide (p.1 < 1024) && !(s.pat p.1).live && (parsePattern p.2.1).isSome)
  let quota := ((img.pats.map (fun p => p.2.1.length + 4096)).foldl (· + ·) 0)
  if !img.keyOk || !img.seqOk || old || s.hat.migUsed.contains img.key then (9, s)
  else if !fits then (7, s)
  else if s.reg rFE_PAT_QUOTA h * 2 ^ 20 < quota then (8, s)
  else match s.bindImage h img.ranges with
    | none => (8, s)
    | some s =>
      let s := img.ctxs.foldl (fun s c => s.restoreCtx h c) s
      let s := img.rings.foldl (fun s r => s.modRing r.num (fun _ => {
        live := true, hood := h, ctx := r.ctx, dbase := r.dbase, dbrec := r.dbrec, log2n := r.log2n, pfd := r.pfd, ci := r.ci, pi := r.ci
        wgen := r.wgen, state := 1, rgen := r.rgen, psn := r.psn })) s
      let s := s.modHood h (fun k => { k with gen := img.gen, migAlias := some img.srcPkg, held := true })
      let s := ((((s.setReg rHOOD_SAVE_BASE h img.saveBase).setReg rHOOD_SAVE_LEN h img.saveLen).setReg rFE_SLEEP_IDLE h img.sleepIdle).setReg
        rXLT_FQ_TIMEOUT h img.fqTimeout).setReg rHOST_WIN_BASE h img.winBase
      let s := (s.setReg rHOOD_SCHED_CFG h img.schedCfg).setReg rPWR_HOOD_CFG h img.hoodCfg
      let s := (s.setReg rHB_WIN_CFG h (img.hbRegs.getD 0 7)).setReg rHB_GUAR h (img.hbRegs.getD 1 0)
      let s := forN 4 s (fun s c => (s.setReg (rHB_CLS_GUAR + 4 * c) h (img.hbRegs.getD (2 + c) 0)).setReg (rHB_LAT_THR + 4 * c) h
        (img.hbRegs.getD (6 + c) 0))
      let s := img.ctls.foldl (fun s c =>
        let t : Tile := { valid := c.valid, poison := c.poison, tags := c.tags, modes := c.modes, vstat := c.vstat, attn := c.attn }
        { s with saves := s.saves.put (fun _ => default) (2048 * h + c.slot) t }) s

      let s := img.pats.foldl (fun s q => (match parsePattern q.2.1 with
        | some p => s.modPat q.1 (fun _ => { p with hood := h, res := q.2.2 })
        | none => s)) s
      let base := s.front.nextW
      let s := { s with front := { s.front with nextW := base + img.works.length } }
      let s := img.works.foldl (fun s x => s.restoreWork h base img x) s
      (6, ((s.setReg rHOOD_PREEMPT h 1).setReg rHOOD_MIG_DONE h (s.imageSize h)).bandCheck)

/-- A RESTORE reads its image (R390). The migration key is gone when it ends, so an image restores at most once. -/
def State.restoreRun (s : State) (h : Nat) : State :=
  match (s.hood h).restore with
  | none => s
  | some img =>
    let (st, s) := (s.modHood h (fun k => { k with restore := none })).restoreTo h img
    ({ s with hat := { s.hat with migUsed := s.hat.migUsed ++ [img.key] } }).setReg rHOOD_MIG_STATUS h st

/-- Take the next step of an update, then of a freeze, that waits for STABLE, for the hold, or for Bus Master Enable of the PF. -/
def State.serviceNext (s : State) (h : Nat) : State :=
  let stable := (s.hood h).change.phase == .stable
  let s :=
    if (s.hood h).ucNext.isEmpty || !stable || (s.hood h).failed then s
    else
      let s := if s.reg rHOOD_UCODE_STATUS h = 2 then s else (s.setReg rHOOD_UCODE_STATUS h 2).holdHood h
      if s.runState h = 2 then s.swapUcode h else s
  if !(s.hood h).ucNext.isEmpty || (s.hood h).failed then s
  else
    let s :=
      if s.reg rHOOD_MIG_STATUS h = 1 && stable then
        if (s.hood h).peerOk then
          let s := { s with hat := { s.hat with migKeys := s.hat.migKeys.insert h (s.reg rHOOD_MIG_PEER h + 1) } }
          (s.setReg rHOOD_MIG_STATUS h 2).holdHood h
        else s.setReg rHOOD_MIG_STATUS h 9
      else s
    let s := if s.reg rHOOD_MIG_STATUS h = 2 && s.runState h = 2 then s.setReg rHOOD_MIG_STATUS h 3 else s
    if s.reg rHOOD_MIG_STATUS h = 3 && (s.fn 0).bme then s.freezeNow h
    else if s.reg rHOOD_MIG_STATUS h = 5 && (s.fn 0).bme then s.restoreRun h
    else s

/-- Updates, freezes and restores of every hood take their next step, since a change that they wait for may have ended. -/
def State.servicesGo (s : State) : State := (forN 16 s (fun s h => s.serviceNext h)).repairGo

/-- What follows a completed save or a stopped copy: plank resets and services go on. -/
def State.afterSave (s : State) (h : Nat) : State :=
  let ps := (List.range 128).filter (fun p => (s.plank p).saveWait)
  ((ps.foldl (fun s p => s.plankResetNext p) s).serviceNext h).repairGo

/-- APPLY (R387): REFUSED as it states; otherwise the staged images go to the standby slots and the update runs, or waits. A command
while one is in progress has no effect and is counted (log entry 21). -/
def applyEff (classes : Nat) (s : State) : State :=
  let h := s.selHood 0
  let k := s.hood h
  let cs := (bitsSet classes 3).map (· + 1)
  let ok := fun c => match s.hat.staged.find c with
    | some im => s.reg rSEC_UPD_STATUS c % 8 == 3 && decide (s.hat.flash.svn.getD c 0 ≤ im.svn)
    | none => false
  if !s.ready then s
  else if !s.hoodExists h then s.errCount 0
  else if !k.ucNext.isEmpty then s.reject h
  else if !k.created || k.failed || k.frozen || !cs.all ok then s.setReg rHOOD_UCODE_STATUS h 4
  else if cs.isEmpty then s.setReg rHOOD_UCODE_STATUS h 3
  else
    let s := (s.setReg rHOOD_UCODE_STATUS h 1).modHood h (fun k => { k with
      ucNext := cs
      ucPend := (List.range 3).map (fun i => if cs.contains (i + 1) then (s.hat.staged.find (i + 1)).map (fun im => im.svn) else none) })
    (s.serviceNext h).repairGo

def execApply (classes : Nat) (s : State) : Host.Outcome State Fault Refusal := run true (applyEff classes) s

/-- FREEZE (R388). `peerOk`: the session with the target's hatter succeeds and its class 0 SVN is not below ours. -/
def freezeEff (peerOk : Bool) (s : State) : State :=
  let h := s.selHood 0
  let k := s.hood h
  let bad := !k.created || k.failed || k.frozen || k.block.ranges.any (fun r => r.borrowed) ||
    s.rots.any (fun e => e.2.hood == h + 1) || decide (s.reg rHOOD_MIG_LEN h < s.imageSize h)
  if !s.ready then s
  else if !s.hoodExists h then s.errCount 0
  else if s.migBusy h then s.reject h
  else if bad then s.setReg rHOOD_MIG_STATUS h 7
  else ((s.setReg rHOOD_MIG_STATUS h 1).modHood h (fun k => { k with peerOk := peerOk })).serviceNext h

def execFreeze (peerOk : Bool) (s : State) : Host.Outcome State Fault Refusal := run true (freezeEff peerOk) s

/-- THAW (R388): the frozen hood resumes here. -/
def thawEff (s : State) : State :=
  let h := s.selHood 0
  if !s.ready then s
  else if !s.hoodExists h then s.errCount 0
  else if !(s.hood h).frozen then s
  else
    let s := (s.setReg rHOOD_MIG_STATUS h 0).modHood h (fun k => { k with frozen := false, image := none })
    ({ s with hat := { s.hat with migKeys := s.hat.migKeys.erase h } }).unhold h

def execThaw (s : State) : Host.Outcome State Fault Refusal := run true thawEff s

/-! ### RESTORE (R390) -/

/-- RESTORE (R390) into the selected hood: INVALID unless it is created, serves, is unsealed and holds no range, context or pattern.
The image is read at once, or when the PF's Bus Master Enable lets it (R225). -/
def restoreEff (img : MigImage) (s : State) : State :=
  let h := s.selHood 0
  let k := s.hood h
  let bad := !k.created || k.failed || k.frozen || k.sealed || !k.block.ranges.isEmpty || !(s.hoodCtxs h).isEmpty ||
    s.pats.any (fun e => e.2.hood == h && e.2.live)
  if !s.ready then s
  else if !s.hoodExists h then s.errCount 0
  else if s.migBusy h then s.reject h
  else if bad then s.setReg rHOOD_MIG_STATUS h 7
  else
    let s := (s.setReg rHOOD_MIG_STATUS h 5).modHood h (fun k => { k with restore := some img })
    if (s.fn 0).bme then s.restoreRun h else s

def execRestore (img : MigImage) (s : State) : Host.Outcome State Fault Refusal := run true (restoreEff img) s

end Sys2Proof.Machine
end

