-- ==== Sys2Proof/Machine/Block.lean ====
section
/-!
DEFINITION. Machine/Block.lean: the block commands (R159 to R183, R191 to R193, R423) and the events of their changes (R171, R174,
R181, R104).
-/
namespace Sys2Proof.Machine

/-! ### The block record (Tables 3 and 4 of Hoods) -/

/-- The header has every RSV field zero, names the hood, and GRAN, NTILE and NRANGE are in range where `all` (R161, R163). -/
def headOk (hd : List Byte) (h : Nat) (all : Bool) : Bool :=
  rsvZero hd [(0, 0, 48), (6, 0, 4), (7, 0, 3), (8, 0, 8), (0xA, 0, 11), (0xC, 0, 9), (0x10, 0, 40), (0x20, 0, 256)] &&
    fld hd 6 0 4 == h && (!all || (decide (fld hd 7 0 2 ≤ 2) && decide (fld hd 0xC 0 9 ≤ 256)))

/-- TMAP entries below NTILE; none where NTILE or an RSV bit is out of range. -/
def tmapOf (hd tm : List Byte) : Option (List Nat) :=
  let n := fld hd 0xA 0 11
  if n = 0 ∨ 1536 < n then none
  else
    let l := (List.range n).map (fun i => fld tm (2 * i) 0 16)
    if l.all (fun v => decide (v < 2048)) then some l else none

/-- The RSV fields of a range entry are zero. -/
def entryOk (e : List Byte) : Bool :=
  rsvZero e [(0, 0, 64), (8, 0, 64), (0x10, 0, 3), (0x10, 4, 4), (0x12, 0, 13), (0x14, 0, 32), (0x18, 0, 64), (0x20, 0, 32), (0x24, 0, 4),
    (0x28, 0, 64), (0x30, 0, 2), (0x32, 0, 12), (0x38, 0, 64)]

/-- The range an entry describes, before its address is rounded. -/
def entryRange (e : List Byte) : Range :=
  { hbase := fld e 0 0 64, len := fld e 8 0 64, borrowed := fldB e 0x10 0, ro := fldB e 0x10 1, shared := fldB e 0x10 2
    lender := fld e 0x12 0 12, carrier := fld e 0x12 12 1, leaseMs := fld e 0x14 0 32, cbase := fld e 0x18 0 64, srcHood := fld e 0x24 0 4 }

def allOnes : Nat := 2 ^ 64 - 1

/-- The lowest channel address that may not be bound (R165). -/
def chanLimit : Nat := 2999975936

/-- Round a range inward to the 64 KiB granule, and a local one to a multiple of n × 64 KiB (R161). -/
def Range.rounded (r : Range) (n : Nat) : Range :=
  let a := alignUp r.hbase 65536
  let b := alignDown (r.hbase + r.len) 65536
  let l := b - a
  { r with hbase := a, len := if r.borrowed then l else alignDown l (max n 1 * 65536) }

/-- Does the block hold a link of a carrier die whose path reaches a lender (R167)? -/
def State.carries (s : State) (links : BitVec 40) (carrier lender : Nat) : Bool :=
  (s.routeLinks carrier lender).any (fun l => links.getLsbD l)

/-- The range of another hood that a SHARED entry names (R192, R193; log entry 22). -/
def State.sourceOf (s : State) (h : Nat) (b : Block) (r : Range) : Option Range :=
  let src := (s.hood r.srcHood).block
  if r.srcHood != h && (s.hood r.srcHood).created && b.keydom != 0 && src.keydom == b.keydom && src.channels == b.channels && src.gran == b.gran then
    src.ranges.find? (fun q => q.ro && q.borrowed == r.borrowed && q.state == 0 && q.len == r.len &&
      (q.hbase == r.hbase || (!r.borrowed && q.cbase == r.cbase)))
  else none

/-- One range of a record against the block that takes it: rounded and completed, or none where it is INVALID (R161, R165 to R167). -/
def State.checkRange (s : State) (h : Nat) (b : Block) (r0 : Range) : Option Range :=
  let n := (membersOf b.channels).length
  let r := r0.rounded n
  let plen := r.len / max n 1
  let place := decide (r.len ≠ 0) && decide (r.hbase + r.len ≤ 2 ^ 52) && decide (b.ranges.length < 256) &&
    b.ranges.all (fun q => !overlaps q.hbase q.len r.hbase r.len)
  let fit :=
    if r.borrowed then
      decide (r.len ≤ 2 ^ 40) && decide (10 ≤ r.leaseMs) && decide (r.leaseMs ≤ 60000) && s.carries b.links r.carrier r.lender
    else
      decide (1 ≤ n) && decide (plen ≤ chanLimit) && (r.cbase == allOnes || (r.cbase % 65536 == 0 && decide (r.cbase + plen ≤ chanLimit)))
  if !place || !fit then none
  else if r.shared then
    (s.sourceOf h b r).map (fun q => { r with
      ro := true, cbase := q.cbase, lender := q.lender, carrier := q.carrier, leaseId := q.leaseId, leaseMs := q.leaseMs
      asked := q.asked, sent := q.sent, renews := q.renews })
  else some r

/-- Does a staged change of another hood name a unit? Such a unit is taken (R164, R167, log entry 87). -/
def State.stagedElse (s : State) (h : Nat) (p : Block → Bool) : Bool :=
  (List.range 16).any (fun g => g != h && (s.hood g).change.phase == .staged && ((s.hood g).change.new.map p).getD false)

/-- Sites a TMAP may name (R164). A RESHAPE may also name sites that another hood is draining (R177). -/
def State.tmapOk (s : State) (h : Nat) (reshape : Bool) (tm : List Nat) : Bool :=
  distinct tm && tm.all (fun i =>
    decide (i < 1664) && s.siteActive i && !(s.site i).isol && !(s.plank (plankOf i)).isol && !s.stagedElse h (fun b => b.tmap.contains i) &&
      (match (s.site i).owner with
       | none => true
       | some g => g == h || (reshape && (s.hood g).change.phase == .draining && (s.hood g).change.leaving.contains i)))

/-- Links that may be added: trained and in no other block (R167). -/
def State.linksOk (s : State) (h : Nat) (old new : BitVec 40) : Bool :=
  (bitsSet new.toNat 40).all (fun l => old.getLsbD l ||
    ((s.link l).st == 2 && (s.hoodsOfLink l).all (fun g => g == h) && !s.stagedElse h (fun b => b.links.getLsbD l)))

/-- Read the record at a host address (R159): its header, TMAP and range entries below NRANGE. -/
def State.recHead (s : State) (a : Nat) : List Byte := s.hostRd a 64
def State.recTmap (s : State) (a : Nat) (hd : List Byte) : List Byte := s.hostRd (a + 0x40) (2 * fld hd 0xA 0 11)
def State.recEntry (s : State) (a i : Nat) : List Byte := s.hostRd (a + 0xC40 + 64 * i) 64

/-- Count the clamp of a range that was rounded (R161, R265). -/
def State.countRound (s : State) (b : Block) (r : Range) : State :=
  let q := r.rounded (membersOf b.channels).length
  if q.hbase = r.hbase ∧ q.len = r.len then s else s.hostClamp 0 4

/-! ### Binding -/

/-- Bind the extents of a local range (R165, R179), or none where they are short. -/
def State.bindLocal (s : State) (h : Nat) (b : Block) (r : Range) : Option (Nat × State) :=
  let m := membersOf b.channels
  let plen := r.len / max m.length 1
  (s.placeFor m plen (if r.cbase = allOnes then none else some r.cbase)).map (fun base =>
    (base, s.bindExt m base plen h (s.keyIdx h b.keydom) false false))

/-- Ask a lender for a range (R185). -/
def State.askRange (s : State) (h : Nat) (carrier lender len : Nat) (ro : Bool) (dMs : Nat) : State :=
  let s := s.stlSend carrier lender none (.ask len ro dMs)
  (s.modHood h (fun k => { k with change := { k.change with lenders := k.change.lenders ++ [lender] } })).rewatch lender

/-- Take the ranges of a checked block one after another: local ones bind, borrowed ones wait for their grant. -/
def State.bindRanges (s : State) (h : Nat) (b : Block) : Option (Block × State) :=
  b.ranges.foldl (fun o r => o.bind (fun p =>
    let (b, s) := p
    if r.shared then some ({ b with ranges := b.ranges ++ [r] }, s)
    else if r.borrowed then some ({ b with ranges := b.ranges ++ [{ r with state := 1, sent := s.now }] }, s)
    else (s.bindLocal h b r).map (fun q => ({ b with ranges := b.ranges ++ [{ r with cbase := q.1 }] }, q.2))))
    (some ({ b with ranges := [] }, s))

/-- The microcode that CREATE and RESTART give a hood: the staged image of a class, else the installed one (Table 4 of The Hatter). -/
def State.newImages (s : State) : List Nat :=
  (List.range 3).map (fun i => match s.hat.staged.find (i + 1) with
    | some im =>
      if s.reg rSEC_UPD_STATUS (i + 1) % 8 = 3 ∧ s.hat.flash.svn.getD (i + 1) 0 ≤ im.svn then im.svn else s.hat.running.getD (i + 1) 0
    | none => s.hat.running.getD (i + 1) 0)

/-- A hood's units as CREATE leaves them: its 64 barrier units (R138) and its microcode (R351). -/
def State.freshHood (s : State) (h : Nat) : State :=
  let s := { s with bars := (List.range 64).foldl (fun (m : Table Barrier) u => m.insert (64 * h + u) { owner := h + 1 }) s.bars }
  s.modHood h (fun k => { k with ucode := s.newImages, ucPend := [none, none, none], ucNext := [] })

/-- The end of CREATE or RESTART: epoch 1, a new generation (which RESTART has from its hood reset), sites owned, and DONE (R162, R163, R169,
R375, R399). -/
def State.install (s : State) (h code : Nat) (b : Block) : State :=
  let s := s.modHood h (fun k => { k with
    created := true, block := b, sealed := false, failed := false, gen := if code = 8 then k.gen else (k.gen + 1) % 65536
    tdi := if b.conf then k.tdi else 0, migAlias := none })
  let s := b.tmap.foldl (fun s i => s.ownSite i h) s
  let s := s.freshHood h
  let s := (s.setReg rHOOD_EPOCH h 1).setReg rHOOD_SVC_STATE h 1
  let s := (b.ranges.filter (fun r => r.borrowed)).foldl (fun s r => (s.rewatch r.lender).associate r.carrier r.lender h) s
  ((s.bandCheck).repower).blkEnd h code 2

/-- CREATE commits: keys are generated and counts start afresh. -/
def State.createNow (s : State) (h : Nat) (b : Block) : State :=
  let s := s.newKey h
  let s := if b.keydom != 0 && !s.liveHoods.any (fun g => (s.hood g).block.keydom == b.keydom) then s.newKey (s.keyIdx h b.keydom) else s
  let s := s.modHood h (fun k => { k with usageNs := 0 })
  (s.setReg rHOOD_REJECT_COUNT h 0).install h 1 b

/-- RESTART commits: hood reset, the old ranges are released and erased, and the device interface goes to ERROR (R227). -/
def State.restartNow (s : State) (h : Nat) (b : Block) : State :=
  let old := (s.hood h).block
  let s := s.modHood h (fun k => { k with change := {} })
  let s := if old.conf then s.tdiError h 1 else s
  let s := s.resetHood h
  let s := (old.tmap.filter (fun i => !b.tmap.contains i)).foldl (fun s i => s.disown i) s
  let s := s.modHood h (fun k => { k with block := { k.block with ranges := [] }, frozen := false, image := none })
  let s := old.ranges.foldl (fun s r => s.releaseBacking h old r) s
  (s.gateFree).install h 8 b

/-- A staged change that waits for nothing commits (R174). -/
def State.commitStaged (s : State) (h : Nat) : State :=
  let c := (s.hood h).change
  match c.phase, c.new with
  | .staged, some b =>
    if !c.lenders.isEmpty then s
    else match c.cmd with
      | 1 => s.createNow h b
      | 8 => s.restartNow h b
      | 3 => b.ranges.foldl (fun s r => if r.borrowed then s.associate r.carrier r.lender h else s) (s.commitBlock h b)
      | 5 => match c.range with
        | some r => (s.commitBlock h b).dropRange b r true
        | none => s
      | _ => s
  | _, _ => s

/-- Stage a change (Table 7 of Hoods). -/
def State.stageBlock (s : State) (h code : Nat) (b : Block) : State :=
  let s := s.setReg rHOOD_BLK_STATUS h (1 + code * 16)
  s.modHood h (fun k => { k with change := { phase := .staged, cmd := code, new := some b } })

/-! ### The commands -/

/-- The block that a whole record describes for CREATE and RESTART, or none where it is INVALID. -/
def State.recordBlock (s : State) (h a : Nat) : Option Block :=
  let hd := s.recHead a
  match tmapOf hd (s.recTmap a hd) with
  | none => none
  | some tm =>
    let b0 : Block := {
      gran := fld hd 7 0 2, conf := fldB hd 7 2, keydom := fld hd 8 0 8, tmap := tm, links := BitVec.ofNat 40 (fld hd 0x10 0 40)
      channels := BitVec.ofNat 256 (fld hd 0x20 0 256) }
    let chans := (membersOf b0.channels).all (fun c => !(s.chan c).retired && !s.chanDown c)
    let dom := b0.keydom = 0 || s.liveHoods.all (fun g => g == h || (s.hood g).block.keydom != b0.keydom || (s.hood g).block.conf == b0.conf)
    if !headOk hd h true || !s.tmapOk h false tm || !s.linksOk h 0 b0.links || !chans || !dom then none
    else (List.range (fld hd 0xC 0 9)).foldl (fun o i => o.bind (fun b =>
      let e := s.recEntry a i
      if entryOk e then (s.checkRange h b (entryRange e)).map (fun r => { b with ranges := b.ranges ++ [r] }) else none)) (some b0)

/-- Count the roundings of a whole record. -/
def State.countRounds (s : State) (a : Nat) (b : Block) : State :=
  (List.range b.ranges.length).foldl (fun t i => t.countRound b (entryRange (s.recEntry a i))) s

/-- CREATE and RESTART with a valid block: ranges bind, lenders are asked, or NO_SPACE. -/
def State.bindAll (s : State) (h code a : Nat) (b : Block) : State :=
  let fresh := b.keydom != 0 && (s.hat.domains.find b.keydom).isNone
  let slot := (List.range 16).find? (fun i => !s.hat.domains.any (fun e => e.2 == 16 + i))
  if fresh && slot.isNone then s.blkEnd h code 4
  else
    let (n, u) := s.draw
    let t := if fresh then { u with hat := { u.hat with
        domains := s.hat.domains.insert b.keydom (16 + slot.getD 0), domNonce := s.hat.domNonce.insert b.keydom n } } else s
    match t.bindRanges h b with
    | none => s.blkEnd h code 4
    | some (b', t) =>
      let t := (t.countRounds a b).stageBlock h code b'
      let t := (b'.ranges.filter (fun r => r.borrowed && !r.shared)).foldl (fun t r => t.askRange h r.carrier r.lender r.len r.ro r.leaseMs) t
      t.commitStaged h

/-- CREATE (R163 to R167): none with CONF while package debug is open (R359). -/
def State.doCreate (s : State) (h a : Nat) : State :=
  match s.recordBlock h a with
  | none => s.blkEnd h 1 3
  | some b => if (s.hood h).created || (b.conf && s.hat.debug != 0) then s.blkEnd h 1 3 else s.bindAll h 1 a b

/-- RESTART (R162): it carries the CONF and KEYDOM of the hood. -/
def State.doRestart (s : State) (h a : Nat) : State :=
  let k := s.hood h
  match s.recordBlock h a with
  | none => s.blkEnd h 8 3
  | some b =>
    if !k.created || b.conf != k.block.conf || b.keydom != k.block.keydom then s.blkEnd h 8 3 else s.bindAll h 8 a b

/-- RESHAPE (R175 to R177): stage the map, wake joining planks, preempt what moves or leaves. A claim with a leaving tile is preempted whole, for it
resumes whole on the remaining tiles; of another claim only the tiles that move stop (R175, log entry 88). -/
def State.doReshape (s : State) (h a : Nat) : State :=
  let k := s.hood h
  let hd := s.recHead a
  let links := BitVec.ofNat 40 (fld hd 0x10 0 40)
  match tmapOf hd (s.recTmap a hd) with
  | none => s.blkEnd h 2 3
  | some tm =>
    let keeps := k.block.ranges.all (fun r => !r.borrowed || !s.carries k.block.links r.carrier r.lender || s.carries links r.carrier r.lender)
    if !k.created || !headOk hd h false || !s.tmapOk h true tm || !s.linksOk h k.block.links links || !keeps then s.blkEnd h 2 3
    else
      let s := s.stageBlock h 2 { k.block with tmap := tm, links := links }
      let s := s.modHood h (fun k => { k with change := { k.change with leaving := k.block.tmap.filter (fun i => !tm.contains i) } })
      let s := (tm.filter (fun i => !k.block.tmap.contains i)).foldl (fun s i => s.wakePlank (plankOf i)) s
      let ws := s.worksOf (fun x => x.hood == h && x.holds && x.heldTiles.any (fun t => s.inMove h (x.lo + t)))
      let s := ws.foldl (fun s e =>
        if tm.length < e.2.lo + e.2.cnt then s.preempt e.1
        else s.preemptTiles e.1 (e.2.heldTiles.filter (fun t => s.inMove h (e.2.lo + t)))) s
      s.modHood h (fun k => { k with change := { k.change with saves := ws.map (fun e => e.1) } })

/-- ADD_RANGE (R179, R185, R192). -/
def State.doAdd (s : State) (h i a : Nat) : State :=
  let k := s.hood h
  let e := s.recEntry a i
  let bad := !k.created || !headOk (s.recHead a) h false || !entryOk e
  match (if bad then none else s.checkRange h k.block (entryRange e)) with
  | none => s.blkEnd h 3 3
  | some r =>
    match s.bindRanges h { k.block with ranges := [r] } with
    | none => s.blkEnd h 3 4
    | some (b', t) =>
      let t := (t.countRound k.block (entryRange e)).stageBlock h 3 { k.block with ranges := k.block.ranges ++ b'.ranges }
      let t := if r.borrowed && !r.shared then t.askRange h r.carrier r.lender r.len r.ro r.leaseMs else t
      t.commitStaged h

/-- The bound range whose HBASE an entry names (R161). -/
def State.namedRange (s : State) (h i a : Nat) : Option Range :=
  let k := s.hood h
  if !k.created || !headOk (s.recHead a) h false then none else k.block.ranges.find? (fun r => r.hbase == fld (s.recEntry a i) 0 0 64)

/-- Commit a change that leaves or alters one range and then drains. -/
def State.commitRange (s : State) (h code : Nat) (b : Block) (r : Range) : State :=
  let s := (s.stageBlock h code b).commitBlock h b
  s.modHood h (fun k => { k with change := { k.change with range := some r } })

/-- RELEASE_RANGE (R180). -/
def State.doRelease (s : State) (h i a : Nat) : State :=
  match s.namedRange h i a with
  | none => s.blkEnd h 4 3
  | some r =>
    let b := (s.hood h).block
    s.commitRange h 4 { b with ranges := b.ranges.filter (fun q => q.hbase != r.hbase) } r

/-- MARK_RO (R191): every X copy of the range's lines is recalled. -/
def State.doMarkRo (s : State) (h i a : Nat) : State :=
  match s.namedRange h i a with
  | none => s.blkEnd h 6 3
  | some r =>
    let b := (s.hood h).block
    (s.commitRange h 6 (b.setRange r.hbase (fun q => { q with ro := true })) r).dropRange b r true

/-- Are the fields of a whole entry in range (Table 4 of Hoods)? -/
def entryInRange (e : List Byte) (n : Nat) : Bool :=
  let q := (entryRange e).rounded n
  let plen := q.len / max n 1
  decide (q.len ≠ 0) && decide (q.hbase + q.len ≤ 2 ^ 52) &&
    (if q.borrowed then decide (q.len ≤ 2 ^ 40) && decide (10 ≤ q.leaseMs) && decide (q.leaseMs ≤ 60000)
     else decide (1 ≤ n) && decide (plen ≤ chanLimit) && (q.cbase == allOnes || (q.cbase % 65536 == 0 && decide (q.cbase + plen ≤ chanLimit))))

/-- MOVE_RANGE (R181): the target is allocated or asked for, and E + 1 is committed with it. -/
def State.doMove (s : State) (h i a : Nat) : State :=
  let e := s.recEntry a i
  match s.namedRange h i a with
  | none => s.blkEnd h 5 3
  | some r =>
    let b := (s.hood h).block
    let n := (membersOf b.channels).length
    let t : Target := { borrowed := fldB e 0x30 0, cbase := fld e 0x28 0 64, carrier := fld e 0x30 1 1, lender := fld e 0x32 0 12, leaseMs := fld e 0x14 0 32, sent := s.now }
    let plen := r.len / max n 1
    let bad := !entryOk e || !entryInRange e n || r.state != 0 || !(s.sharers h b r).isEmpty ||
      (if t.borrowed then decide (2 ^ 40 < r.len) || decide (t.leaseMs < 10) || decide (60000 < t.leaseMs) || !s.carries b.links t.carrier t.lender
       else n == 0 || r.len % (n * 65536) != 0 || (t.cbase != allOnes && (t.cbase % 65536 != 0 || decide (chanLimit < t.cbase + plen))))
    if bad then s.blkEnd h 5 3
    else
      let staged := fun (s : State) (t : Target) =>
        (s.stageBlock h 5 (b.setRange r.hbase (fun q => { q with state := 2, moved := 0, target := some t }))).modHood h (fun k => { k with
          change := { k.change with range := some r } })
      if t.borrowed then (staged s t).askRange h t.carrier t.lender r.len r.ro t.leaseMs
      else match s.bindLocal h b { r with cbase := t.cbase } with
        | none => s.blkEnd h 5 4
        | some (base, s) => (staged s { t with cbase := base }).commitStaged h

/-- SEAL (R162). -/
def State.doSeal (s : State) (h : Nat) : State :=
  let k := s.hood h
  if !k.created || k.sealed then s.blkEnd h 7 3 else (s.modHood h (fun k => { k with sealed := true })).blkEnd h 7 2

/-- DESTROY (R423): hood reset, unbind, erase; the device interface goes to ERROR (R227). -/
def State.doDestroy (s : State) (h : Nat) : State :=
  let k := s.hood h
  if !k.created then s.blkEnd h 9 3
  else
    let s := if k.block.conf then s.tdiError h 1 else s
    ((s.resetHood h).unbindHood h).blkEnd h 9 2

/-- Does a command read the record (Table 1 of Hoods)? -/
def readsRecord (code : Nat) : Bool := code != 7 && code != 9

/-- The effect of an accepted command, whose record stands at a host address. -/
def State.blkRun (s : State) (code h i a : Nat) : State :=
  (match code with
   | 1 => s.doCreate h a
   | 2 => s.doReshape h a
   | 3 => s.doAdd h i a
   | 4 => s.doRelease h i a
   | 5 => s.doMove h i a
   | 6 => s.doMarkRo h i a
   | 7 => s.doSeal h
   | 8 => s.doRestart h a
   | 9 => s.doDestroy h
   | _ => s.blkEnd h code 3).serviceNext h

/-- HOOD_BLK_CMD (R159 to R161, R374): counted while a change of the hood is in progress or the hood is FAILED; INVALID under a class B
singe (R369) or for a hood that does not exist; its record read waits while the PF's Bus Master Enable is clear (R225), at the address it was
accepted with (R159). -/
def blockCmd (code h i : Nat) (s : State) : State :=
  let k := s.hood h
  if !s.ready then s
  else if k.change.phase != .stable || s.front.heldBlk.any (fun e => e.2.1 == h) then s.reject h
  else if k.failed && code != 8 && code != 9 && !s.nap.classB then s.reject h
  else if s.nap.classB || !s.hoodExists h then s.blkEnd h code 3
  else if readsRecord code && !(s.fn 0).bme then
    ({ s with front := { s.front with heldBlk := s.front.heldBlk ++ [(code, h, i, s.reg rHOOD_BLK_ADDR 0)] } }).setReg rHOOD_BLK_STATUS h (1 + code * 16)
  else s.blkRun code h i (s.reg rHOOD_BLK_ADDR 0)

def execCreate (h : Nat) (s : State) : Host.Outcome State Fault Refusal := run (decide (h < 16)) (blockCmd 1 h 0) s
def execReshape (h : Nat) (s : State) : Host.Outcome State Fault Refusal := run (decide (h < 16)) (blockCmd 2 h 0) s
def execAddRange (h i : Nat) (s : State) : Host.Outcome State Fault Refusal := run (decide (h < 16 ∧ i < 256)) (blockCmd 3 h i) s
def execReleaseRange (h i : Nat) (s : State) : Host.Outcome State Fault Refusal := run (decide (h < 16 ∧ i < 256)) (blockCmd 4 h i) s
def execMoveRange (h i : Nat) (s : State) : Host.Outcome State Fault Refusal := run (decide (h < 16 ∧ i < 256)) (blockCmd 5 h i) s
def execMarkRo (h i : Nat) (s : State) : Host.Outcome State Fault Refusal := run (decide (h < 16 ∧ i < 256)) (blockCmd 6 h i) s
def execSeal (h : Nat) (s : State) : Host.Outcome State Fault Refusal := run (decide (h < 16)) (blockCmd 7 h 0) s
def execRestart (h : Nat) (s : State) : Host.Outcome State Fault Refusal := run (decide (h < 16)) (blockCmd 8 h 0) s
def execDestroy (h : Nat) (s : State) : Host.Outcome State Fault Refusal := run (decide (h < 16)) (blockCmd 9 h 0) s

/-! ### The events of a change -/

/-- BLOCK_COMMIT (R174, R175): a staged tile map commits once nothing runs on what moves or leaves and the joining sites have no
owner. Idle moved tiles keep their contents; joined planks start at weight 1 (R331). A repeatable hood whose reservation no longer fits
ends ABORTED (R329). A ring that loses its last link to NEXT behaves as on loss of the path (R89). -/
def blockCommitEff (h : Nat) (s : State) : State :=
  let k := s.hood h
  match k.change.phase, k.change.new with
  | .staged, some b =>
    let busy := s.works.any (fun e => e.2.hood == h && e.2.holds && e.2.heldTiles.any (fun t => s.inMove h (e.2.lo + t))) ||
      k.change.saves.any (fun w => match s.work? w with | some x => x.phase == .saving || !x.moveT.isEmpty | none => false)
    let join := b.tmap.filter (fun i => !k.block.tmap.contains i)
    if k.change.cmd != 2 || busy || !join.all (fun i => (s.site i).owner.isNone) then s
    else
      let more := (join.map plankOf).eraseDups.filter (fun p => !(s.modePlanks 2).contains p)
      if s.modeOf h == 2 && decide (s.capNow * 10 < lockedSum ((s.modePlanks 2).length + more.length)) then (s.abortStaged h 6).serviceNext h
      else
        let moved := (List.range b.tmap.length).filterMap (fun t =>
          match k.block.tmap[t]?, b.tmap[t]? with
          | some i, some j => if i = j then none else some (i, j, s.tile i, (s.site i).lastCtx)
          | _, _ => none)
        let s := join.foldl (fun s i => s.ownSite i h) s
        let s := s.commitBlock h b
        let s := moved.foldl (fun s m => (s.modTile m.2.1 (fun _ => m.2.2.1)).modSite m.2.1 (fun q => { q with lastCtx := m.2.2.2 })) s
        let news := ((join.map plankOf).eraseDups).filter (fun p => !(k.block.tmap.any (fun i => plankOf i == p)))
        let s := s.modHood h (fun k => { k with weights := news.foldl (fun (m : Table (Nat × Nat)) p => m.erase p) k.weights })
        ((((s.rejoin h).demote).repower).scheduleAll h).cutRings (fun q => q.hood == h + 1 && q.links &&& k.block.links &&& ~~~b.links ≠ 0)
  | _, _ => s

def execBlockCommit (h : Nat) (s : State) : Host.Outcome State Fault Refusal := run (decide (h < 16)) (blockCommitEff h) s

/-- Is a request of a hood one that was routed under an epoch before the current one (R170)? -/
def State.oldReq (s : State) (h : Nat) (w : Who) : Bool := w.hood == h && w.epoch != s.reg rHOOD_EPOCH h

/-- Rotation pieces of a hood in flight on the links that a change removes (Table 8 step 6 of Hoods). -/
def State.piecesOn (s : State) (h : Nat) (old new : BitVec 40) : Nat :=
  ((bitsSet (old &&& ~~~new).toNat 40).map (fun l =>
    ((s.link l).retry.filter (fun f => f.tc == 4 && f.part.any (fun m => m.hood == some h))).length)).foldl (· + ·) 0

/-- Requests outstanding under the draining epoch (HOOD_DRAIN, R171): of the hood's unacknowledged MREQ, open transactions and requests that wait
at a home, those routed before the commit; and pieces on links that leave. -/
def State.drainCount (s : State) (h : Nat) : Nat :=
  let c := (s.hood h).change
  if c.phase != .draining then 0
  else
    (s.stl.mreqs.filter (fun m => s.oldReq h m.who)).length +
      ((s.coh.txns.flatMap (fun t => t.2.req :: t.2.queue)).filter (fun r => s.oldReq h r.who)).length +
      (s.coh.waiting.filter (fun r => s.oldReq h r.2.who)).length +
      (match c.old with | some b => s.piecesOn h b.links (s.hood h).block.links | none => 0)

/-- DRAIN_COMPLETE (R171). -/
def drainCompleteEff (h : Nat) (s : State) : State :=
  if (s.hood h).change.phase != .draining || s.drainCount h != 0 then s else (((s.drained h).bandCheck).scheduleAll h).serviceNext h

def execDrainComplete (h : Nat) (s : State) : Host.Outcome State Fault Refusal := run (decide (h < 16)) (drainCompleteEff h) s

/-- Copy a range from its source to its target, line by line, poison with it (R181, R100), charged to class COPY (R182). -/
def State.copyRange (s : State) (h : Nat) (b : Block) (r : Range) (t : Target) : State :=
  let w : Who := { hood := h, cls := 2, epoch := s.reg rHOOD_EPOCH h }
  (forN (r.len / 64) s (fun s i =>
    let a := r.hbase + 64 * i
    let (d, s) := s.rdLineB { who := w } b a
    let p := t.place b r a
    (s.lineAccess w (match p with | .loc ga => ga / 64 | _ => farLine t.lender t.leaseId 0 (t.cbase + 64 * i)) 1).twinWr w p 0 d)).settled

/-- MOVE_COPY_COMPLETE (R181): MOVED equals LEN and E + 2 routes the range to its target only. -/
def moveCopyCompleteEff (h : Nat) (s : State) : State :=
  let k := s.hood h
  match k.change.phase, k.change.range with
  | .copying, some r =>
    match (k.block.ranges.find? (fun q => q.hbase == r.hbase)).bind (fun q => q.target) with
    | some t =>
      let s := s.copyRange h k.block r t
      let s := s.commitBlock h (k.block.setRange r.hbase (fun q => { q with
        state := 0, target := none, moved := q.len, borrowed := t.borrowed, cbase := t.cbase, lender := t.lender, carrier := t.carrier
        leaseId := t.leaseId, leaseMs := t.leaseMs, asked := t.asked, sent := t.sent, renews := t.renews }))
      s.modHood h (fun k => { k with change := { k.change with second := true } })
    | none => s
  | _, _ => s

def execMoveCopyComplete (h : Nat) (s : State) : Host.Outcome State Fault Refusal := run (decide (h < 16)) (moveCopyCompleteEff h) s

/-- ERASE_COMPLETE (R103, R104): the oldest extent under erase on a stack reads erased and is free; poison goes with it. -/
def eraseCompleteEff (st : Nat) (s : State) : State :=
  match (s.stack st).erases with
  | [] => s
  | e :: _ =>
    let es := (s.stack st).erases.filter (fun x => x.base == e.base && x.len == e.len)
    let hit := fun ga => es.any (fun x => decide (gaOf x.chan x.base ≤ ga) && decide (ga < gaOf x.chan x.base + x.len))
    let s := s.modStack st (fun k => { k with erases := k.erases.filter (fun x => !(x.base == e.base && x.len == e.len)) })
    let s := { s with mem := s.mem.dropIf hit, poison := s.poison.dropIf (fun l => hit (64 * l)) }
    s.causeM rBIR_CAUSE 0 0 rBIR_ERASE_MAP st

def execEraseComplete (stack : Nat) (s : State) : Host.Outcome State Fault Refusal := run (decide (stack < 8)) (eraseCompleteEff stack) s

end Sys2Proof.Machine
end

