-- ==== Sys2Proof/Machine/Lease.lean ====
section
/-!
DEFINITION. Machine/Lease.lean: the lease phases and timers of borrowed ranges (R184 to R187, R193).
-/
namespace Sys2Proof.Machine

/-! ### The lender -/

/-- Channels of the lending pool (R184). -/
def State.poolMembers (s : State) : List Nat :=
  (List.range 4).flatMap (fun i => (bitsSet (s.reg (rHOOD_POOL_CHAN + 8 * i) 0) 64).map (fun b => 64 * i + b))

/-- Bytes a lent range takes in each channel of the pool: its share, rounded up to 64 KiB. -/
def lentPlen (len n : Nat) : Nat := alignUp ((len + n - 1) / n) 65536

/-- The handle of a lease: where the borrower's addresses of it start. Every lease of the package has handles of its own, 1 TiB apart
(log entry 90). -/
def leaseHandle (id : Nat) : Nat := id % 2 ^ 24 * 2 ^ 40

/-- ASK (R184, R185): GRANT reserves erased extents of the pool within the budget and starts the lease at the counter it names; otherwise DENY. -/
def askEff (pkg len : Nat) (ro : Bool) (dMs : Nat) (s : State) : State :=
  let m := s.poolMembers
  let plen := lentPlen len (max m.length 1)
  let used := s.reg rHOOD_POOL_USED 0
  let die := s.dieFor pkg
  if !s.ready then s
  else
    match (if m.isEmpty || len == 0 || s.nap.classB || decide (s.reg rHOOD_POOL_BUDGET 0 < used + len) then none else s.placeFor m plen none) with
    | none => s.stlSend die pkg none .deny
    | some base =>
      let id := s.lender.next
      let s := s.bindExt m base plen id 32 true ro
      let l : Lease := { id := id, pkg := pkg, handle := leaseHandle id, cbase := base, plen := plen, len := len, ro := ro, dMs := dMs, g := s.now }
      let s := { s with lender := { leases := s.lender.leases ++ [l], next := (id + 1) % 2 ^ 32, members := m } }
      ((s.setReg rHOOD_POOL_USED 0 (used + len)).rewatch pkg).stlSend die pkg none (.grant id (leaseHandle id) s.now)

/-- End a lease: its extents go to the pouncers and back to the pool (R185, R104). -/
def State.endLease (s : State) (l : Lease) : State :=
  let s := s.lender.members.foldl (fun s c =>
    let t := s.freeExt [c] l.cbase l.plen
    if (s.chan c).extents.any (fun e => e.base == l.cbase && e.lent && e.owner == l.id) then t else s) s
  let s := { s with lender := { s.lender with leases := s.lender.leases.filter (fun x => x.id != l.id) } }
  (s.modReg rHOOD_POOL_USED 0 (fun v => v - l.len)).rewatch l.pkg

def State.leaseOf (s : State) (pkg id : Nat) : Option Lease := s.lender.leases.find? (fun l => l.id == id && l.pkg == pkg)

/-- RENEW (R186): the lease restarts at the lender's counter, and ACK answers. -/
def renewEff (pkg id : Nat) (s : State) : State :=
  match s.leaseOf pkg id with
  | none => s
  | some _ =>
    let s := { s with lender := { s.lender with leases := s.lender.leases.map (fun (l : Lease) => if l.id == id then { l with g := s.now } else l) } }
    s.stlSend (s.dieFor pkg) pkg none (.ack id)

/-- RETURN (R185, Table 13 of Hoods): ignored for a lease that has been reclaimed. -/
def returnEff (pkg id : Nat) (s : State) : State :=
  match s.leaseOf pkg id with
  | none => s
  | some l => s.endLease l

/-- The drift margin M of a lease of D ms, in ns (R186). -/
def driftMargin (dMs : Nat) : Nat := dMs * 1000000 / 2000 + 2000000

/-- LEASE_RECLAIM (R186): at g + D + M on the lender's counter. -/
def reclaimEff (id : Nat) (s : State) : State :=
  match s.lender.leases.find? (fun l => l.id == id) with
  | none => s
  | some l => if l.g + l.dMs * 1000000 + driftMargin l.dMs ≤ s.now then s.endLease l else s

/-! ### The borrower -/

/-- When a staged change sent the ASK to a package that has not been answered. -/
def Change.askedAt (c : Change) (pkg : Nat) : Nat :=
  let ts : List Nat := match c.new with
    | some b => b.ranges.filterMap (fun (r : Range) =>
        if r.borrowed && !r.shared && r.state == 1 && r.lender == pkg then some r.sent
        else match r.target with | some t => if t.borrowed && t.lender == pkg then some t.sent else none | none => none)
    | none => []
  ts.foldl min (ts.headD 0)

/-- The hood whose command waits for a package's answer: the one that asked first, since answers come in the order of the questions. -/
def State.asker (s : State) (pkg : Nat) : Option Nat :=
  ((List.range 16).filter (fun h => (s.hood h).change.phase == .staged && (s.hood h).change.lenders.contains pkg)).foldl (fun o h =>
    match o with
    | none => some h
    | some g => if (s.hood h).change.askedAt pkg < (s.hood g).change.askedAt pkg then some h else some g) none

/-- Fill the first pending range, or move target, of a lender with its grant. -/
def fillGrant (pkg id handle : Nat) : List Range → List Range
  | [] => []
  | r :: l =>
    if r.borrowed && !r.shared && r.state == 1 && r.lender == pkg then
      { r with state := 0, leaseId := id, cbase := handle, asked := r.sent } :: l
    else match r.target with
      | some t =>
        if t.borrowed && t.lender == pkg then { r with target := some { t with cbase := handle, leaseId := id, asked := t.sent } } :: l
        else r :: fillGrant pkg id handle l
      | none => r :: fillGrant pkg id handle l

/-- GRANT (R185): the hood manager binds once every lender has answered. A grant that nobody waits for is left to expire (R187). The lender's counter `g`
that it names is the lender's own: the borrower's deadline runs on its own counter (R186). -/
def grantEff (pkg id handle _g : Nat) (s : State) : State :=
  match s.asker pkg with
  | none => s
  | some h =>
    let s := s.modHood h (fun k => { k with change := { k.change with
      lenders := k.change.lenders.erase pkg, grants := k.change.grants ++ [(pkg, id)]
      new := k.change.new.map (fun b => { b with ranges := fillGrant pkg id handle b.ranges }) } })
    (s.commitStaged h).serviceNext h

/-- DENY (R185): the command ends NO_SPACE. -/
def denyEff (pkg : Nat) (s : State) : State :=
  match s.asker pkg with
  | none => s
  | some h => (s.abortStaged h 4).serviceNext h

/-- Change every range, in whatever hood, and every move target, that a lease backs (R193). -/
def State.modLease (s : State) (pkg id : Nat) (f : Range → Range) (g : Target → Target) : State :=
  s.liveHoods.foldl (fun s h => s.modHood h (fun k => { k with block := { k.block with ranges := k.block.ranges.map (fun r =>
    let r := if r.borrowed && r.lender == pkg && r.leaseId == id then f r else r
    { r with target := r.target.map (fun t => if t.borrowed && t.lender == pkg && t.leaseId == id then g t else t) }) } })) s

/-- ACK (R186): the deadline follows the RENEW that has been answered, the oldest one sent and not answered, in every hood that holds the lease (R193). -/
def ackEff (pkg id : Nat) (s : State) : State :=
  s.modLease pkg id (fun r => { r with asked := r.renews.headD r.asked, renews := r.renews.drop 1 })
    (fun t => { t with asked := t.renews.headD t.asked, renews := t.renews.drop 1 })

/-- Send RENEW for a lease (R186). -/
def State.renewLease (s : State) (carrier lender id : Nat) : State :=
  let n := s.now
  (s.stlSend carrier lender none (.renew id)).modLease lender id (fun r => { r with sent := n, renews := r.renews ++ [n] })
    (fun t => { t with sent := n, renews := t.renews ++ [n] })

/-- LEASE_RENEW_TICK (R186, R193): send RENEW for the range's lease, and for the lease of its move target. -/
def renewTickEff (h i : Nat) (s : State) : State :=
  match (s.hood h).block.ranges[i]? with
  | none => s
  | some r =>
    let s := if r.borrowed && r.state != 4 then s.renewLease r.carrier r.lender r.leaseId else s
    match r.target with
    | some t => if t.borrowed then s.renewLease t.carrier t.lender t.leaseId else s
    | none => s

/-- LEASE_DEADLINE (R186, R189, R193): at s + D the range is LOST in every hood that holds the lease, and those hoods fail; a move whose
target's lease has run out ends on its source. -/
def leaseDeadlineEff (h i : Nat) (s : State) : State :=
  match (s.hood h).block.ranges[i]? with
  | none => s
  | some r =>
    let late := match r.target with | some t => t.borrowed && decide (t.asked + t.leaseMs * 1000000 ≤ s.now) | none => false
    let s := if late then s.endMove h else s
    if r.borrowed && r.state != 4 && decide (r.asked + r.leaseMs * 1000000 ≤ s.now) then
      let same := fun (q : Range) => q.borrowed && q.lender == r.lender && q.leaseId == r.leaseId
      let hs := s.liveHoods.filter (fun g => (s.hood g).block.ranges.any same)
      let s := hs.foldl (fun s g => s.modHood g (fun k => { k with block := { k.block with
        ranges := k.block.ranges.map (fun q => if same q then { q with state := 4 } else q) } })) s
      hs.foldl (fun s g => s.failHood g 1 (some r.lender)) s
    else s

/-- LEASE_ASK_TIMEOUT (R187): 10 ms after the ASK. -/
def askTimeoutEff (h : Nat) (s : State) : State :=
  let c := (s.hood h).change
  let due := match c.new with
    | some b => b.ranges.any (fun r => (r.borrowed && r.state == 1 && decide (r.sent + 10000000 ≤ s.now)) ||
        (match r.target with | some t => t.borrowed && decide (t.sent + 10000000 ≤ s.now) | none => false))
    | none => false
  if due && c.phase == .staged then (s.abortStaged h 5).serviceNext h else s

/-! ### The rows -/

def execAsk (pkg len : Nat) (ro : Bool) (dMs : Nat) (s : State) : Host.Outcome State Fault Refusal :=
  run (decide (pkg < 4096)) (askEff pkg len ro dMs) s
def execGrant (pkg leaseId : Nat) (loan : Loan) (s : State) : Host.Outcome State Fault Refusal :=
  run (decide (pkg < 4096)) (grantEff pkg leaseId loan.handle loan.g) s
def execDeny (pkg : Nat) (s : State) : Host.Outcome State Fault Refusal := run (decide (pkg < 4096)) (denyEff pkg) s
def execRenew (pkg leaseId : Nat) (s : State) : Host.Outcome State Fault Refusal := run (decide (pkg < 4096)) (renewEff pkg leaseId) s
def execAck (pkg leaseId : Nat) (s : State) : Host.Outcome State Fault Refusal := run (decide (pkg < 4096)) (ackEff pkg leaseId) s
def execReturnLease (pkg leaseId : Nat) (s : State) : Host.Outcome State Fault Refusal :=
  run (decide (pkg < 4096)) (returnEff pkg leaseId) s
def execLeaseRenewTick (h i : Nat) (s : State) : Host.Outcome State Fault Refusal :=
  run (decide (h < 16 ∧ i < 256)) (renewTickEff h i) s
def execLeaseDeadline (h i : Nat) (s : State) : Host.Outcome State Fault Refusal :=
  run (decide (h < 16 ∧ i < 256)) (leaseDeadlineEff h i) s
def execLeaseReclaim (leaseId : Nat) (s : State) : Host.Outcome State Fault Refusal := run true (reclaimEff leaseId) s
def execLeaseAskTimeout (h : Nat) (s : State) : Host.Outcome State Fault Refusal := run (decide (h < 16)) (askTimeoutEff h) s

end Sys2Proof.Machine
end

