-- ==== Sys2Proof/Machine/Rings.lean ====
section
/-!
DEFINITION. Machine/Rings.lean: the sleep protocol of rings (R243), the limit of 512 AWAKE rings and the wake queue (R244).
-/
namespace Sys2Proof.Machine

/-- Read PI from a ring's doorbell record; a ring whose record cannot be read stops or waits (R121). A distance from CI above the ring
size is clamped to it (row 2 of Table 14 of Contexts). -/
def State.readPi (s : State) (r : Nat) : State :=
  let k := s.ring r
  match s.rdVA (feEng k.hood k.ctx) k.dbrec 4 with
  | (d, s, none) =>
    let pi := leNat (bytesOf d)
    let past := decide (2 ^ k.log2n < (pi + 2 ^ 32 - k.ci) % 2 ^ 32)
    let pi := if past then (k.ci + 2 ^ k.log2n) % 2 ^ 32 else pi
    let s := if past then s.ctxClamp k.ctx 2 else s
    if pi = k.pi then s else s.modRing r (fun k => { k with pi := pi, piTime := s.now })
  | (_, s, some x) => s.ringStop r x

/-- Mark a ring asleep (Table 5 of Contexts): STATE and WGEN are written, then PI is read again; a moved PI wakes it at once. -/
def State.sleepRing (s : State) (r : Nat) : State :=
  let s := (s.modRing r (fun k => { k with state := 1, wgen := (k.wgen + 1) % 2 ^ 32 })).dbWrite r
  let s := s.readPi r
  let k := s.ring r
  if k.pi = k.ci ∨ k.xstop then s else (s.modRing r (fun k => { k with state := 0 })).dbWrite r

/-- AWAKE rings of the package. -/
def State.awakeRings (s : State) : List Nat := (s.rings.filter (fun e => e.2.live && e.2.state == 0)).map (fun e => e.1)

/-- Make a ring AWAKE (R243). -/
def State.setAwake (s : State) (r : Nat) : State :=
  ((s.modRing r (fun k => { k with state := 0, awake := s.now, idle := s.now, piTime := s.now })).dbWrite r).readPi r

/-- Put idle rings to sleep, the one whose PI advanced least recently first, until one stays asleep (R244). -/
def roomLoop : Nat → State → List Nat → State
  | 0, s, _ => s
  | n + 1, s, tried =>
    let idle := s.awakeRings.filter (fun r => !tried.contains r && (s.ring r).pi == (s.ring r).ci)
    match idle with
    | [] => s
    | r :: l =>
      let v := l.foldl (fun a b => if (s.ring b).piTime < (s.ring a).piTime then b else a) r
      let s := s.sleepRing v
      if (s.ring v).state = 0 then roomLoop n s (v :: tried) else s

/-- Make a ring AWAKE, or queue it while 512 rings are AWAKE and none is idle (R244). -/
def State.wakeRing (s : State) (r : Nat) : State :=
  let s := if s.awakeRings.length < 512 then s else roomLoop 512 s []
  if s.awakeRings.length < 512 then s.setAwake r
  else
    let s := if (s.ring r).state = 1 then s else (s.modRing r (fun k => { k with state := 1 })).dbWrite r
    if s.front.wakeQ.contains r then s else { s with front := { s.front with wakeQ := s.front.wakeQ ++ [r] } }

/-- Rings at the head of the wake queue take the places that have become free (R244). -/
def fillLoop : Nat → State → State
  | 0, s => s
  | n + 1, s =>
    match s.front.wakeQ with
    | [] => s
    | r :: q =>
      if s.awakeRings.length < 512 then
        let s := { s with front := { s.front with wakeQ := q } }
        fillLoop n (if (s.ring r).live && (s.ring r).state == 1 then s.setAwake r else s)
      else s

def State.fillAwake (s : State) : State := fillLoop (s.front.wakeQ.length) s

end Sys2Proof.Machine
end

