-- ==== Sys2Proof/Machine/Contexts.lean ====
section
/-!
DEFINITION. Machine/Contexts.lean: context and ring commands (R237 to R241, R294), teardown (R286 to R292), and the pattern store
commands (R257, R262).
-/
namespace Sys2Proof.Machine

/-- The PF gives a hood a range of contexts and of rings (R237). -/
def State.hasCtx (s : State) (h c : Nat) : Bool :=
  decide (s.reg rFE_CTX_BASE h ≤ c) && decide (c < s.reg rFE_CTX_BASE h + s.reg rFE_CTX_COUNT h)
def State.hasRing (s : State) (h r : Nat) : Bool :=
  decide (s.reg rFE_RING_BASE h ≤ r) && decide (r < s.reg rFE_RING_BASE h + s.reg rFE_RING_COUNT h)

/-- A context of the hood that exists. -/
def State.ctxOf (s : State) (h c : Nat) : Bool := s.hasCtx h c && (s.ctx c).state != 0 && (s.ctx c).hood == h

/-- The status of a context command (R239). -/
def State.ctxEnd (s : State) (h st : Nat) : State := s.setReg rCTX_CMD_STATUS h st

/-- Run a command of a hood's own function: nothing happens while the hood does not exist; a FAILED hood counts it (R374), under a class
B singe it completes INVALID (R369). -/
def hoodCmd (h : Nat) (invalid eff : State → State) (s : State) : State :=
  if !s.ready || !s.hoodExists h then s
  else if s.nap.classB then invalid s
  else if (s.hood h).failed then s.reject h
  else eff s

/-- A record in the hood's device memory, read once through the block (R238, R241); none where it lies outside it or is poisoned. -/
def State.objectAt (s : State) (h n : Nat) : Option (List Byte) × State :=
  let a := s.reg rCTX_CMD_ADDR h
  if !(s.hood h).block.holds a n then (none, s)
  else
    let (d, s) := s.rdHood ((feEng h 0).acc s 0) a n
    (if anyPsn d then none else some (bytesOf d), s)

/-- Table 1 of Contexts. -/
def ctxObjectOk (b : List Byte) : Bool :=
  rsvZero b [(0, 0, 64), (8, 0, 21), (0xC, 0, 16), (0x10, 0, 64), (0x18, 0, 5), (0x1C, 0, 32)] && decide (fld b 0 0 64 < 2 ^ 52) &&
    decide (1 ≤ fld b 0xC 0 16) && fld b 0x10 0 6 == 0 && decide (8 ≤ fld b 0x18 0 5) && decide (fld b 0x18 0 5 ≤ 16) &&
    decide (1 ≤ fld b 0x1C 0 32)

/-- CTX_CREATE (R238, R240, R269): the generation stays; CTX_INVALID and CTX_CLAMP are cleared (R265). -/
def ctxCreateEff (h c : Nat) (s : State) : State :=
  match (if s.hasCtx h c && (s.ctx c).state == 0 && (s.hood h).created then s.objectAt h 64 else (none, s)) with
  | (none, s) => s.ctxEnd h 3
  | (some b, s) =>
    if !ctxObjectOk b then s.ctxEnd h 3
    else
      let s := s.modCtx c (fun k => {
        state := 1, hood := h, gen := k.gen, ptroot := alignDown (fld b 0 0 64) 4096, pasid := fld b 8 0 20, pasidv := fldB b 8 20
        share := fld b 0xC 0 16, evbase := fld b 0x10 0 48, evlog2 := fld b 0x18 0 5, defto := fld b 0x1C 0 32 : Ctx })
      ((s.setReg rCTX_INVALID c 0).setReg rCTX_CLAMP c 0).ctxEnd h 2

/-- Table 3 of Contexts. -/
def ringRecordOk (b : List Byte) (r : Nat) : Bool :=
  rsvZero b [(0, 0, 64), (8, 0, 64), (0x10, 0, 13), (0x12, 0, 12), (0x14, 0, 7)] && fld b 0x10 0 13 == r &&
    decide (6 ≤ fld b 0x14 0 5) && decide (fld b 0x14 0 5 ≤ 16)

/-- RING_CREATE (R241): the ring starts AWAKE, or queues for a place (R244; log entry 24). A 257th ring of a context is NO_SPACE. -/
def ringCreateEff (h r : Nat) (s : State) : State :=
  let busy := (s.hood h).teardown.any (fun t => !t.isCtx && t.num == r)
  match (if s.hasRing h r && !(s.ring r).live && !busy && (s.hood h).created then s.objectAt h 32 else (none, s)) with
  | (none, s) => s.ctxEnd h 3
  | (some b, s) =>
    let c := fld b 0x12 0 12
    if !ringRecordOk b r || !s.ctxOf h c || (s.ctx c).state == 3 then s.ctxEnd h 3
    else if 256 ≤ (s.rings.filter (fun e => e.2.live && e.2.ctx == c)).length then s.ctxEnd h 4
    else
      let s := s.modRing r (fun k => {
        live := true, hood := h, ctx := c, dbase := alignDown (fld b 0 0 48) 4096, dbrec := alignDown (fld b 8 0 48) 64
        log2n := fld b 0x14 0 5, pfd := 16 * 2 ^ fld b 0x14 5 2, state := 1, rgen := k.rgen : Ring })
      let s := s.ctxEnd h 2
      if s.awakeRings.length < 512 then s.modRing r (fun k => { k with state := 0, awake := s.now, idle := s.now, piTime := s.now }) else s.wakeRing r

/-- SET_SHARE (R294): later charges use it. -/
def setShareEff (h c share : Nat) (s : State) : State :=
  if !s.ctxOf h c || (s.ctx c).state == 3 || share == 0 || 65536 ≤ share then s.ctxEnd h 3
  else (((s.accrueHood h).modCtx c (fun k => { k with share := share })).ctxEnd h 2).scheduleAll h

/-! ### Teardown -/

/-- Step 1 for one ring: its generation advances, fetching stops, signals on their way are discarded (R287). -/
def State.stopRing (s : State) (r : Nat) : State :=
  let mine := fun (g : Sig) => match g.work.bind s.work? with | some x => x.ring == r | none => false
  let s := { s with front := { s.front with sigs := s.front.sigs.filter (fun g => !mine g), wakeQ := s.front.wakeQ.filter (fun q => q != r) } }
  ((s.modRing r (fun k => { k with rgen := k.rgen + 1, state := 2 })).dbWrite r).fillAwake

/-- Is a destroy fence named rightly (R286)? -/
def State.dfenceOk (s : State) (h : Nat) (dying : Option Nat) : Bool :=
  s.reg rCTX_DFENCE_VA h == 0 || (s.ctxOf h (s.reg rCTX_DFENCE_CTX h) && some (s.reg rCTX_DFENCE_CTX h) != dying)

/-- Accept a teardown of a ring or a context (R286, R290): 16 at once, and a 17th is counted. -/
def State.startTeardown (s : State) (h : Nat) (isCtx : Bool) (num : Nat) (rings : List Nat) : State :=
  if 16 ≤ (s.hood h).teardown.length then (s.reject h).ctxEnd h 3
  else
    let t : Teardown := {
      isCtx := isCtx, num := num, dctx := s.reg rCTX_DFENCE_CTX h, dva := s.reg rCTX_DFENCE_VA h, dval := s.reg rCTX_DFENCE_VAL h }
    let s := rings.foldl (fun s r => s.stopRing r) s
    (s.modHood h (fun k => { k with teardown := k.teardown ++ [t] })).ctxEnd h 2

/-- CTX_DESTROY (R290). -/
def ctxDestroyEff (h c : Nat) (s : State) : State :=
  if !s.ctxOf h c || (s.ctx c).state == 3 || !s.dfenceOk h (some c) then s.ctxEnd h 3
  else
    let rs := (s.rings.filter (fun e => e.2.live && e.2.ctx == c)).map (fun e => e.1)
    let full := decide (16 ≤ (s.hood h).teardown.length)
    let s := s.startTeardown h true c rs
    if full then s else s.modCtx c (fun k => { k with state := 3 })

/-- RING_DESTROY (R286). -/
def ringDestroyEff (h r : Nat) (s : State) : State :=
  let busy := (s.hood h).teardown.any (fun t => (!t.isCtx && t.num == r) || (t.isCtx && t.num == (s.ring r).ctx))
  if !s.hasRing h r || !(s.ring r).live || (s.ring r).hood != h || busy || !s.dfenceOk h none then s.ctxEnd h 3
  else s.startTeardown h false r [r]

/-- Patterns whose last launch is gone are freed (R262). -/
def State.reapAll (s : State) : State := ((s.pats.filter (fun e => e.2.dying)).map (fun e => e.1)).foldl (fun s p => s.reapPattern p) s

/-- Fences that another context waits on and that name a dying context receive CONTEXT_LOST (R290). -/
def State.codeOwned (s : State) (c : Nat) : State :=
  (s.waits.filter (fun w => w.ctx != c)).foldl (fun s w =>
    let f := bytesOf (s.fenceRd w.loc)
    if s.ownFence w.loc f && fcOwnCtx f == c && fcOwnGen f == (s.ctx c).gen then s.attachFence w.loc false w.va 2 else s) s

/-- Steps 2 to 5 for rings: their work is cancelled, their waits end with no code, and their pending sets are coded. -/
def State.endRings (s : State) (h : Nat) (rs : List Nat) (code : Nat) (rec : Bool) : State :=
  let snaps := rs.map (fun r => s.snapSet r code none)
  let s := s.cancel (fun x => rs.contains x.ring && x.hood == h) 2 rec
  let s := s.modHood h (fun k => { k with faults := k.faults.filter (fun f => !(match f.ring with | some r => rs.contains r | none => false)) })
  (s.attachSnaps snaps).reapAll

/-- Step 6 for rings: STATE = DESTROYED; the number is free again with the generation it reached. -/
def State.freeRings (s : State) (rs : List Nat) : State :=
  rs.foldl (fun s r => ((s.modRing r (fun k => { k with state := 3 })).dbWrite r).modRing r (fun k => { rgen := k.rgen : Ring })) s

/-- The cached translations of a context are gone with it (R291). -/
def State.xltDropCtx (s : State) (h c : Nat) : State :=
  { s with xlt := { s.xlt with
    tlbs := s.xlt.tlbs.filter (fun e => !(e.hood == h && e.ctx == c)), walks := s.xlt.walks.filter (fun e => !(e.hood == h && e.ctx == c))
    ats := s.xlt.ats.filter (fun e => !(e.hood == h && e.ctx == c)) } }

/-- Has all that the works of rings sent to borrowed ranges been acknowledged, or left flight (step 4 of Table 5 of Fences)? -/
def State.ringsQuiet (s : State) (rs : List Nat) : Bool :=
  !s.stl.mreqs.any (fun m => match m.who.work.bind s.work? with | some x => rs.contains x.ring | none => false)

/-- TEARDOWN_RELEASE (R287, R288, R290), once the writes of the work have been acknowledged. Invalidation requests of a dying context complete first, in
the order of the hood's requests (R291, R129; log entry 99). -/
def teardownEff (h : Nat) (isCtx : Bool) (num : Nat) (s : State) : State :=
  match (s.hood h).teardown.find? (fun t => t.isCtx == isCtx && t.num == num && !(isCtx && (s.hood h).invals.any (fun v => v.ctx == num))) with
  | none => s
  | some t =>
    let rs := if isCtx then (s.rings.filter (fun e => e.2.live && e.2.ctx == num && e.2.hood == h)).map (fun e => e.1) else [num]
    if !s.ringsQuiet rs then s
    else
    let s := s.endRings h rs (if isCtx then 2 else 6) (!isCtx)
    let s := if isCtx then
        let s := ((s.rots.filter (fun e => e.2.hood == h + 1 && e.2.ctx == num)).map (fun e => e.1)).foldl (fun s e => s.freeRot e) s
        s.codeOwned num
      else s
    let s := s.freeRings rs
    let s := s.modHood h (fun k => { k with teardown := k.teardown.filter (fun u => !(u.isCtx == isCtx && u.num == num)) })
    let s := s.signalVa h t.dctx t.dva t.dval
    let s := if isCtx then
        let s := s.dropCtx num
        s.xltDropCtx h num
      else s
    s.scheduleAll h

/-! ### The pattern store (R257, R262) -/

def State.patEnd (s : State) (h st pid : Nat) : State := s.setReg rFE_PAT_STATUS h (st + pid * 2 ^ 16)

/-- Store a pattern: the lowest free number, within the hood's share and the store's 64 MiB. -/
def State.storePattern (s : State) (h : Nat) (p : Pattern) : State :=
  let total := fun (q : Pattern → Bool) => ((s.pats.filter (fun e => q e.2)).map (fun e => e.2.bytes)).foldl (· + ·) p.bytes
  match (List.range 1024).find? (fun n => !(s.pat n).live) with
  | some n =>
    if s.reg rFE_PAT_QUOTA h * 2 ^ 20 < total (fun q => q.hood == h) || 2 ^ 26 < total (fun _ => true) then s.patEnd h 4 0
    else (s.modPat n (fun _ => { p with hood := h })).patEnd h 2 n
  | none => s.patEnd h 4 0

/-- Read and check the image; what waits on the host stays BUSY, what cannot be read is INVALID (log entry 25). -/
def State.tryRegister (s : State) (h : Nat) : State :=
  let c := s.reg rFE_PAT_CTX h
  let va := s.reg rFE_PAT_ADDR h
  let e := feEng h c
  let wait := fun (s : State) (x : Stop) => match x with
    | .fault .. => s.patEnd h 3 0
    | .lost => s.patEnd h 3 0
    | x =>
      let s := s.askAts e x none
      ({ s with front := { s.front with patWait := h :: s.front.patWait.filter (fun g => g != h) } }).patEnd h 1 0
  let s := { s with front := { s.front with patWait := s.front.patWait.filter (fun g => g != h) } }
  if !s.ctxOf h c then s.patEnd h 3 0
  else match s.rdVA e va 64 with
    | (hd, s, none) =>
      if anyPsn hd || !patHeaderOk (bytesOf hd) then s.patEnd h 3 0
      else match s.rdVA e va (patBytes (bytesOf hd)) with
        | (d, s, none) =>
          match (if anyPsn d then none else parsePattern (bytesOf d)) with
          | some p => s.storePattern h p
          | none => s.patEnd h 3 0
        | (_, s, some x) => wait s x
    | (_, s, some x) => wait s x

/-- Is a pattern command in progress? -/
def State.patBusy (s : State) (h : Nat) : Bool := s.reg rFE_PAT_STATUS h % 8 == 1

/-- REGISTER: one pattern command of a hood at a time (log entry 21). -/
def registerEff (h : Nat) (s : State) : State := if s.patBusy h then s.reject h else s.tryRegister h

/-- UNREGISTER (R262): DONE once every launch that started before has completed. -/
def unregisterEff (h pid : Nat) (s : State) : State :=
  let p := s.pat pid
  if s.patBusy h then s.reject h
  else if !p.live || p.hood != h || p.dying then s.patEnd h 3 pid
  else ((s.patEnd h 1 pid).modPat pid (fun p => { p with dying := true, dieSeq := s.front.nextS })).reapPattern pid

/-! ### The rows -/

def execCtxCreate (h c : Nat) (s : State) : Host.Outcome State Fault Refusal :=
  run (decide (h < 16)) (hoodCmd h (fun s => s.ctxEnd h 3) (ctxCreateEff h c)) s
def execCtxDestroy (h c : Nat) (s : State) : Host.Outcome State Fault Refusal :=
  run (decide (h < 16)) (hoodCmd h (fun s => s.ctxEnd h 3) (ctxDestroyEff h c)) s
def execRingCreate (h r : Nat) (s : State) : Host.Outcome State Fault Refusal :=
  run (decide (h < 16)) (hoodCmd h (fun s => s.ctxEnd h 3) (ringCreateEff h r)) s
def execRingDestroy (h r : Nat) (s : State) : Host.Outcome State Fault Refusal :=
  run (decide (h < 16)) (hoodCmd h (fun s => s.ctxEnd h 3) (ringDestroyEff h r)) s
def execSetShare (h c share : Nat) (s : State) : Host.Outcome State Fault Refusal :=
  run (decide (h < 16)) (hoodCmd h (fun s => s.ctxEnd h 3) (setShareEff h c share)) s
def execTeardownRelease (h : Nat) (isCtx : Bool) (num : Nat) (s : State) : Host.Outcome State Fault Refusal :=
  run (decide (h < 16)) (teardownEff h isCtx num) s
def execRegister (h : Nat) (s : State) : Host.Outcome State Fault Refusal :=
  run (decide (h < 16)) (hoodCmd h (fun s => s.patEnd h 3 0) (registerEff h)) s
def execUnregister (h pid : Nat) (s : State) : Host.Outcome State Fault Refusal :=
  run (decide (h < 16)) (hoodCmd h (fun s => s.patEnd h 3 0) (unregisterEff h pid)) s

end Sys2Proof.Machine
end

