-- ==== Sys2Proof/Machine/XltCmds.lean ====
section
/-!
DEFINITION. Machine/XltCmds.lean: answers to translation faults (R118, R122), the fault queue (R116, R117), invalidations (R125 to R129)
and host translations (R113, R114). The pieces of a transfer to local channels and to the host move within the command that moves them; in flight
between commands are requests to borrowed ranges and coherence transactions (log entry 14).
-/
namespace Sys2Proof.Machine

/-- A command of a hood's translation registers: nothing happens while the hood does not exist, and a FAILED hood only counts it
(R374). -/
def xltCmd (h : Nat) (eff : State → State) (s : State) : State :=
  if !s.ready || !s.hoodExists h then s
  else if (s.hood h).failed then s.reject h
  else eff s

/-- XLT_DROP_COUNT: a command without effect (R118, R122, R125). -/
def State.xltDrop (s : State) (h : Nat) : State := s.countReg rXLT_DROP_COUNT h 1

/-- An outstanding fault that has not been answered. -/
def State.faultOf (s : State) (h seq : Nat) : Option XFault := (s.hood h).faults.find? (fun f => f.seq == seq && f.mig.isNone)

/-- Take a fault out of the outstanding ones. -/
def State.dropFault (s : State) (h seq : Nat) : State :=
  s.modHood h (fun k => { k with faults := k.faults.filter (fun f => f.seq != seq) })

/-- The translation cache that served the engine of a fault. -/
def XFault.loc (f : XFault) : Nat := match f.cls with | 0 => plankOf f.eng | 2 => 129 + f.eng / 8 | _ => 128

/-- The replayed access walks again (R118, R119): the engine's cached translation of its address is not used. -/
def State.walkAgain (s : State) (h : Nat) (f : XFault) : State :=
  { s with xlt := { s.xlt with tlbs := s.xlt.tlbs.filter (fun e =>
    !(e.hood == h && e.ctx == f.ctx && e.loc == f.loc && decide (e.page ≤ f.va % 2 ^ 48) && decide (f.va % 2 ^ 48 < e.page + e.size))) } }

/-- Work may run again once no fault stalls it. -/
def State.unstall (s : State) (h w : Nat) : State :=
  let more := (s.hood h).faults.any (fun g => (g.work == some w && !g.switch) || g.due == some w)
  s.modWork w (fun x => if more || x.phase != .stalled then x else { x with phase := if x.ran then .finished else .started })

/-- What waited on a fault goes on (R118 to R121): a tile switched out becomes ready to return, an engine that stalled may run
again, a stopped ring fetches again, an atomic is executed (for a tile switched out too: log entry 98). -/
def State.replay (s : State) (h : Nat) (f : XFault) : State :=
  let s := (s.dropFault h f.seq).walkAgain h f
  let s := match f.ring with
    | some r => if (s.hood h).faults.any (fun g => g.ring == some r) then s else s.modRing r (fun k => { k with xstop := false })
    | none => s
  let s := match f.work with
    | some w =>
      if f.switch && ((s.work? w).map (fun x => (x.outT.find f.tile).isSome)).getD false then s.modWork w (fun x => { x with backT := x.backT ++ [f.tile] })
      else s.unstall h (f.due.getD w)
    | none => s
  let s := match f.atom with | some a => atomEff a.1 a.2 s | none => s
  ((s.dbRetry h).retryDone h).scheduleAll h

/-- RETRY. -/
def retryEff (h seq : Nat) (s : State) : State :=
  match s.faultOf h seq with
  | some f => s.replay h f
  | none => s.xltDrop h

/-- FAIL (R118, R240): the context stops, its work ends FAULTED, its rings stop, and TRANSLATION_FATAL is attached to the pending set of each
of its rings. -/
def State.failCtx (s : State) (h : Nat) (f : XFault) : State :=
  let c := f.ctx
  let s := s.dropFault h f.seq
  let rs := (s.rings.filter (fun e => e.2.live && e.2.ctx == c)).map (fun e => e.1)
  let snaps := rs.map (fun r => s.snapSet r 4 none)
  let s := if (s.ctx c).state = 1 then s.modCtx c (fun k => { k with state := 2 }) else s
  let s := s.cancel (fun x => x.ctx == c && x.hood == h) 4 true
  let s := s.modHood h (fun k => { k with faults := k.faults.filter (fun g => g.ctx != c || g.cls == 2) })
  let s := rs.foldl (fun s r => if (s.ring r).state < 2 then (s.modRing r (fun k => { k with state := 2 })).dbWrite r else s) s
  let s := if f.cls = 2 then s.modRot f.eng Rot.stop else s
  ((s.attachSnaps snaps).fillAwake.reapAll).scheduleAll h

def failEff (h seq : Nat) (s : State) : State :=
  match s.faultOf h seq with
  | some f => s.failCtx h f
  | none => s.xltDrop h

/-- The hood address of the L0 entry that a walk reaches, whatever that entry holds (R122). -/
def entryAt (a : Acc) (b : Block) (va : Nat) : State → Nat → Nat → Option Nat × State
  | s, l, table =>
    let ea := table + 8 * lvlIndex l va
    if (b.rangeAt ea).isNone then (none, s)
    else match l with
      | 0 => (some ea, s)
      | l' + 1 =>
        let (e, s) := s.rdB a b ea 8
        let v := BitVec.ofNat 64 (leNat (bytesOf e))
        if anyPsn e || !v.getLsbD 0 || isLeaf (l' + 1) v then (none, s)
        else entryAt a b va s l' (tableAddr (l' + 1) v)

/-- Does an access of a hood in flight belong to a request? -/
def CReq.ofHood (r : CReq) (h : Nat) : Bool := r.who.hood == h

/-- The requests of a hood at homes that are not complete. -/
def State.openReqs (s : State) (h : Nat) : List (Nat × CReq) :=
  (s.coh.txns.flatMap (fun e => (e.2.req :: e.2.queue).map (fun r => (e.1, r))) ++ s.coh.waiting).filter (fun p => p.2.ofHood h)

/-- Step 3 of Table 10: the entries drop (R126). -/
def State.dropNow (s : State) (h : Nat) (v : Inval) : State :=
  s.tlbDropRange h v.ctx (alignDown v.va 65536) (alignUp (v.va + v.len) 65536 - alignDown v.va 65536)

/-- A request at its step 3: what is in flight of the hood is what its fence waits for (R127). -/
def State.noteFlight (s : State) (h : Nat) (v : Inval) : Inval :=
  { v with far := (s.stl.mreqs.filter (fun m => m.who.hood == h)).map (fun m => (m.die, m.dst, m.tag)), reqs := s.openReqs h }

/-- Has everything that was in flight at step 3 left flight? -/
def State.flown (s : State) (h : Nat) (v : Inval) : Bool :=
  v.far.all (fun p => !s.stl.mreqs.any (fun m => (m.die, m.dst, m.tag) == p)) && v.reqs.all (fun r => !(s.openReqs h).contains r)

/-- A MIGRATE ends: the requests that waited for it go on, and the access is replayed. -/
def State.migEnd (s : State) (h : Nat) (f : XFault) : State :=
  let go := (s.hood h).invals.filter (fun v => v.after == [f.seq])
  let s := s.modHood h (fun k => { k with invals := k.invals.map (fun v =>
    if v.after == [f.seq] then s.noteFlight h { v with after := [] } else { v with after := v.after.filter (fun q => q != f.seq) }) })
  (go.foldl (fun s v => s.dropNow h v) s).replay h f

/-- The copy engine that moves a granule and writes its entry: charged to the hood (R122). -/
def migEng (h c : Nat) : Eng := { hood := h, ctx := c, loc := 128, cls := 2, kind := 1, num := 0 }

/-- Copy the granule and write the L0 entry (R122). Without an L0 entry it acts as RETRY; where ATS, PASID or PASIDV is off, or the target
lies outside the byte space, it acts as RETRY and is counted. A page whose translation is not held is asked for, and the command waits. -/
def State.tryMigrate (s : State) (h : Nat) (f : XFault) : State :=
  match f.mig with
  | none => s
  | some (src, dst, pte) =>
    let c := s.ctx f.ctx
    let b := (s.hood h).block
    let e := migEng h f.ctx
    match entryAt (e.acc s 0) b f.va s 3 c.ptroot with
    | (none, s) => s.migEnd h f
    | (some ea, s) =>
      if !((s.fn (h + 1)).ats && (s.fn 0).pasid && c.pasidv) || !b.holds dst 65536 then (s.xltDrop h).migEnd h f
      else if !s.portOpen h then s
      else
        let pages := (List.range (if src % 4096 = 0 then 16 else 17)).map (fun i => src / 4096 + i)
        match pages.find? (fun p => match s.atsHit h f.ctx c.pasid p with | some a => !a.r | none => true) with
        | some p =>
          match s.takeDenied e c.pasid p with
          | some s => (s.xltDrop h).migEnd h f
          | none => s.askAts e (.ats c.pasid p false) none
        | none =>
          let data := (List.range 65536).map (fun i =>
            let a := src + i
            (s.hostRd (((s.atsHit h f.ctx c.pasid (a / 4096)).map (fun x => x.hostOf (a / 4096))).getD 0 * 4096 + a % 4096) 1).headD 0)
          let s := s.wrHood (e.acc s (bits pte 6 2)) dst (clean data)
          (s.wrHood (e.acc s 0) ea (clean (leBytes 8 pte))).migEnd h f

/-- MIGRATE: its operands are those of XLT_RESP_SRC, XLT_RESP_DST and XLT_RESP_PTE. -/
def migrateEff (h seq : Nat) (s : State) : State :=
  match s.faultOf h seq with
  | none => s.xltDrop h
  | some f =>
    let op := some (s.reg rXLT_RESP_SRC h, s.reg rXLT_RESP_DST h, s.reg rXLT_RESP_PTE h)
    let s := s.modHood h (fun k => { k with faults := k.faults.map (fun g => if g.seq == seq then { g with mig := op } else g) })
    s.tryMigrate h { f with mig := op }

/-- A write of XLT_RESP_CMD (R118): ACTION 0 has no effect and is counted. -/
def respCmd (h v : Nat) (s : State) : State :=
  let seq := v % 2 ^ 32
  match bits v 32 2 with
  | 1 => retryEff h seq s
  | 2 => failEff h seq s
  | 3 => migrateEff h seq s
  | _ => s.xltDrop h

/-- FAULT_TIMEOUT (R118): counted from the write of the record; FAIL is applied, with XLT_TO_SEQ and FAULTTO. -/
def faultTimeoutEff (h seq : Nat) (s : State) : State :=
  match s.faultOf h seq with
  | some f =>
    if f.written && decide (f.wtime + s.reg rXLT_FQ_TIMEOUT h * 1000 ≤ s.now) then
      (s.failCtx h f).causeV rXLT_CAUSE (h + 1) 1 rXLT_TO_SEQ seq
    else s
  | none => s

/-- The 64 bytes of a fault record (Table 7 of Birier Memory). -/
def XFault.record (f : XFault) (h : Nat) : List Byte :=
  leBytes 8 f.va ++
  leBytes 8 (f.ctx % 2 ^ 16 + f.gen % 2 ^ 16 * 2 ^ 16 + h * 2 ^ 32 + f.typ * 2 ^ 36 + f.access * 2 ^ 40 +
    (if f.switch then 2 ^ 42 else 0) + (if f.straddle then 2 ^ 43 else 0)) ++
  leBytes 4 f.seq ++ leBytes 4 f.epoch ++ leBytes 4 f.remain ++ leBytes 4 (f.eng % 4096 + f.cls * 4096 + f.level * 65536) ++
  leBytes 8 f.time ++ leBytes 8 f.entry.toNat ++ leBytes 16 0

/-- A tile that waited for room in the fault queue is switched out now that its record is written (R116, R120). -/
def State.switchDue (s : State) (h : Nat) (f : XFault) : State :=
  match f.due with
  | none => s
  | some w =>
    let s := s.modHood h (fun k => { k with faults := k.faults.map (fun g => if g.seq == f.seq then { g with due := none } else g) })
    ((s.switchOut w f.tile).unstall h w).scheduleAll h

/-- FAULT_RECORD_WRITE (R116): the oldest record not yet written, once there is room and while requests of the hood cross the port (R225, R227). -/
def faultRecordEff (h : Nat) (s : State) : State :=
  let pi := s.reg rXLT_FQ_PI h
  let n := 2 ^ s.reg rXLT_FQ_CFG h
  match (s.hood h).faults.find? (fun f => !f.written) with
  | none => s
  | some f =>
    if !s.hoodExists h || !s.portOpen h || s.faultFull h then s
    else
      let s := s.hostWr (s.reg rXLT_FQ_BASE h + 64 * (pi % n)) (f.record h)
      let s := (s.setReg rXLT_FQ_PI h ((pi + 1) % 2 ^ 32)).modHood h (fun k => { k with
        faults := k.faults.map (fun g => if g.seq == f.seq then { g with written := true, wtime := s.now } else g) })
      (s.cause rXLT_CAUSE (h + 1) 0).switchDue h f

/-- An invalidation request (R125, R126): its range is that of XLT_INV_VA and XLT_INV_LEN rounded outward. -/
def invalEff (h c : Nat) (s : State) : State :=
  if 64 ≤ (s.hood h).invals.length || !s.ctxOf h c then s.xltDrop h
  else
    let v : Inval := {
      ctx := c, va := s.reg rXLT_INV_VA h, len := s.reg rXLT_INV_LEN h, fva := s.reg rXLT_INV_FENCE h, val := s.reg rXLT_INV_FVAL h
      after := ((s.hood h).faults.filter (fun f => f.ctx == c && f.mig.isSome)).map (fun f => f.seq) }
    let now := v.after.isEmpty
    let s := s.modHood h (fun k => { k with invals := k.invals ++ [if now then s.noteFlight h v else v] })
    if now then s.dropNow h v else s

/-- INVALIDATION_FENCE (R127, R129): the oldest request signals its fence once what was in flight at its step 3 has left flight. -/
def invalFenceEff (h : Nat) (s : State) : State :=
  match (s.hood h).invals with
  | v :: l => if v.after.isEmpty && s.flown h v then (s.modHood h (fun k => { k with invals := l })).signalAt h v.ctx v.fva v.val else s
  | [] => s

/-! ### Host translations (R113, R114) -/

/-- What waited for the host goes on: a REGISTER, MIGRATEs, event entries, doorbell records, writes of completion records. -/
def State.hostBack (s : State) (h : Nat) : State :=
  let s := if s.front.patWait.contains h then s.tryRegister h else s
  let s := ((s.hood h).faults.filter (fun f => f.mig.isSome)).foldl (fun s f => s.tryMigrate h f) s
  ((s.evRetry h).dbRetry h).retryDone h

/-- The accesses that wait on pages of a hood that `p` names. -/
def State.waitersOf (s : State) (h pasid : Nat) (p : Nat → Bool) : List PageWait :=
  s.xlt.waiters.filter (fun q => q.hood == h && q.pasid == pasid && p q.page)

/-- Those accesses wait no longer; tiles switched out for them become ready to return (R114, R120). -/
def State.wakePage (s : State) (h pasid : Nat) (p : Nat → Bool) : State :=
  let l := s.waitersOf h pasid p
  let s := { s with xlt := { s.xlt with waiters := s.xlt.waiters.filter (fun q => !l.contains q) } }
  l.foldl (fun s q =>
    match q.work.bind (fun w => (s.work? w).map (fun x => (w, x))), q.tile with
    | some (w, x), some t =>
      let lt := s.claimTile w x t
      s.modWork (x.parent.getD w) (fun y => if (y.outT.find lt).isSome && !y.backT.contains lt then { y with backT := y.backT ++ [lt] } else y)
    | _, _ => s) s

/-- Pages that an ATS answer may cover: 4 KiB to 1 GiB, a power of two (R224). -/
def atsSizeOk (pages : Nat) : Bool := (List.range 19).any (fun i => pages == 2 ^ i)

/-- Keep an answer in the ATS cache of 4,096 entries, for a context of its PASID (R112). -/
def State.atsPut (s : State) (a : Ats) : State :=
  let l := s.xlt.ats.filter (fun b => !(b.hood == a.hood && b.ctx == a.ctx && b.pasid == a.pasid && overlaps a.page a.pages b.page b.pages))
  if l.length < 4096 then { s with xlt := { s.xlt with ats := a :: l } }
  else
    let (f, s) := s.draw
    { s with xlt := { s.xlt with ats := cachePut 4096 f (fun _ => true) a l } }

/-- ATS_TRANSLATION_COMPLETION (R113, R224): the answer is cached with its permissions. One that denies the access leads to a PRI Page Request, and tiles
of a hood of 193 tiles or more that wait are switched out (R114, R115). -/
def atsDoneEff (h pasid page pages hostPage : Nat) (r w : Bool) (s : State) : State :=
  if !s.xlt.atsReq.contains (h, pasid, page) then s
  else
    let base := alignDown page pages
    let inn := fun (p : Nat) => decide (base ≤ p) && decide (p < base + pages)
    let s := { s with xlt := { s.xlt with
      atsReq := s.xlt.atsReq.filter (fun t => !(t.1 == h && t.2.1 == pasid && inn t.2.2))
      priWait := if r || w then s.xlt.priWait else s.xlt.priWait ++ [(h, pasid, page)] } }
    let cs := (s.ctxs.filter (fun e => e.2.hood == h && e.2.state != 0 && e.2.pasidv && e.2.pasid == pasid)).map (fun e => e.1)
    let s := cs.foldl (fun s c => s.atsPut {
      hood := h, pasid := pasid, ctx := c, gen := (s.hood h).gen, page := base, pages := pages, host := alignDown hostPage pages, r := r, w := w }) s
    let s := if r || w then s.wakePage h pasid inn
      else (s.waitersOf h pasid (fun p => p == page)).foldl (fun s q =>
        match q.work.bind (fun w => (s.work? w).map (fun x => (w, x))), q.tile with
        | some (w, x), some t =>
          let lt := s.claimTile w x t
          if s.switches h q.tile && !s.tileSaved (x.parent.getD w) lt then s.switchOut w lt else s
        | _, _ => s) s
    (s.hostBack h).scheduleAll h

/-- PRI_PAGE_REQUEST (R114): at most 1,024 outstanding, and none while requests are held (R225, R227) or PRI Enable is clear (R224, log entry 94). -/
def priReqEff (h pasid page : Nat) (s : State) : State :=
  if !s.xlt.priWait.contains (h, pasid, page) || 1024 ≤ s.xlt.pri.length || !s.portOpen h || !(s.fn 0).pri then s
  else
    let x := s.xlt
    ({ s with xlt := { x with priWait := x.priWait.filter (fun t => t != (h, pasid, page)), pri := x.pri ++ [(h, pasid, page)] } }).toHost
      (.priReq h pasid page)

/-- PRI_RESPONSE (R114): Success (0) replays the access, which asks for the translation again; any other code raises HOST_DENIED in the accesses that
waited. -/
def priRespEff (h pasid page code : Nat) (s : State) : State :=
  if !s.xlt.pri.contains (h, pasid, page) then s
  else
    let inn := fun (p : Nat) => p == page
    let l := s.waitersOf h pasid inn
    let s := { s with xlt := { s.xlt with
      pri := s.xlt.pri.filter (fun t => t != (h, pasid, page))
      ats := s.xlt.ats.filter (fun b => !(b.hood == h && b.pasid == pasid && decide (b.page ≤ page) && decide (page < b.page + b.pages)))
      denied := if code = 0 then s.xlt.denied else s.xlt.denied ++ l } }
    ((s.wakePage h pasid inn).hostBack h).scheduleAll h

/-- ATS_INVALIDATE_REQUEST: the cached translations of the range are dropped; no piece to the host is in flight, so it completes (R114, R127). -/
def atsInvEff (h pasid page pages : Nat) (s : State) : State :=
  let s := { s with xlt := { s.xlt with ats := s.xlt.ats.filter (fun a => !(a.hood == h && a.pasid == pasid && overlaps a.page a.pages page pages)) } }
  s.toHost (.atsInvDone h pasid page pages)

/-! ### The rows -/

def execRetry (h seq : Nat) (s : State) : Host.Outcome State Fault Refusal := run (decide (h < 16)) (xltCmd h (retryEff h seq)) s
def execFail (h seq : Nat) (s : State) : Host.Outcome State Fault Refusal := run (decide (h < 16)) (xltCmd h (failEff h seq)) s
def execMigrate (h seq : Nat) (s : State) : Host.Outcome State Fault Refusal := run (decide (h < 16)) (xltCmd h (migrateEff h seq)) s
def execFaultTimeout (h seq : Nat) (s : State) : Host.Outcome State Fault Refusal := run (decide (h < 16)) (faultTimeoutEff h seq) s
def execFaultRecordWrite (h : Nat) (s : State) : Host.Outcome State Fault Refusal := run (decide (h < 16)) (faultRecordEff h) s
def execInvalidationRequest (h c : Nat) (s : State) : Host.Outcome State Fault Refusal :=
  run (decide (h < 16)) (xltCmd h (invalEff h c)) s
def execInvalidationFence (h : Nat) (s : State) : Host.Outcome State Fault Refusal := run (decide (h < 16)) (invalFenceEff h) s
def execAtsTranslationCompletion (h pasid : Nat) (pgs : PageRun) (hostPage : Nat) (r w : Bool) (s : State) : Host.Outcome State Fault Refusal :=
  run (decide (h < 16) && atsSizeOk pgs.pages) (atsDoneEff h pasid pgs.page pgs.pages hostPage r w) s
def execPriPageRequest (h pasid page : Nat) (s : State) : Host.Outcome State Fault Refusal :=
  run (decide (h < 16)) (priReqEff h pasid page) s
def execPriResponse (h pasid page code : Nat) (s : State) : Host.Outcome State Fault Refusal :=
  run (decide (h < 16)) (priRespEff h pasid page code) s
def execAtsInvalidateRequest (h pasid page pages : Nat) (s : State) : Host.Outcome State Fault Refusal :=
  run (decide (h < 16)) (atsInvEff h pasid page pages) s

end Sys2Proof.Machine
end

