-- ==== Sys2Proof/Machine/Submit.lean ====
section
/-!
DEFINITION. Machine/Submit.lean: rings as the front end serves them (R243 to R246), the descriptors it executes itself (R247 to R249,
R255, R260, R261), signals and waits (R268 to R275, R285), wait cycles (R283), quanta (R300), saves (R304) and parity errors (R55).
-/
namespace Sys2Proof.Machine

/-! ### Fetching -/

/-- A ring the front end may fetch from: AWAKE, not stopped on a fault, of an ACTIVE context of a hood that serves and is not frozen. -/
def State.fetchable (s : State) (r : Nat) : Bool :=
  let k := s.ring r
  let h := s.hood k.hood
  k.live && k.state == 0 && !k.xstop && (s.ctx k.ctx).state == 1 && h.created && !h.failed && !h.frozen

/-- Descriptors waiting to be fetched (R242). -/
def State.waiting (s : State) (r : Nat) : Nat := ((s.ring r).pi + 2 ^ 32 - (s.ring r).ci) % 2 ^ 32

/-- The argument record of a KERNEL descriptor; empty for an unlisted OP. -/
def State.readArgs (s : State) (e : Eng) (d : List Byte) : List Byte × State × Option Stop :=
  if dKind d = 1 && descOk d && argBytes (dOp d) != 0 then
    let (a, s, x) := s.rdVA e (kArgs d) (argBytes (dOp d))
    (bytesOf a, s, x)
  else ([], s, none)

/-- The elements of a command buffer with their argument records (R246; all are read when the CHAIN is fetched, log entry 15). -/
def readElems (e : Eng) (cb : Nat) : Nat → Nat → State → List (List Byte × List Byte) → List (List Byte × List Byte) × State × Option Stop
  | 0, _, s, acc => (acc, s, none)
  | k + 1, i, s, acc =>
    match s.rdVA e (cb + 64 * i) 64 with
    | (_, s, some x) => (acc, s, some x)
    | (d, s, none) =>
      match s.readArgs e (bytesOf d) with
      | (_, s, some x) => (acc, s, some x)
      | (a, s, none) => readElems e cb k (i + 1) s (acc ++ [(bytesOf d, a)])

/-- What a descriptor names as input (R246): argument record or parameter block, and elements. -/
def State.readInputs (s : State) (e : Eng) (d : List Byte) : List Byte × List (List Byte × List Byte) × State × Option Stop :=
  if !descOk d then ([], [], s, none)
  else if dKind d = 7 then
    let (l, s, x) := readElems e (chCb d) (chCount d) 0 s []
    ([], l, s, x)
  else if dKind d = 2 then
    let p := s.pat (lPid d)
    let n := if p.live && p.hood == e.hood then min (lPlen d) p.plenMax else 0
    let (a, s, x) := s.rdVA e (lParam d) n
    (bytesOf a, [], s, x)
  else
    let (a, s, x) := s.readArgs e d
    (a, [], s, x)

/-- Fetch up to `n` descriptors from CI; a read that stops leaves the ring at the descriptor it stopped on (R121, R266). -/
def fetchLoop : Nat → State → Nat → State
  | 0, s, _ => s
  | n + 1, s, r =>
    let k := s.ring r
    let e := feEng k.hood k.ctx
    match s.rdVA e (k.dbase + 64 * (k.ci % 2 ^ k.log2n)) 64 with
    | (_, s, some x) => s.ringStop r x
    | (d, s, none) =>
      match s.readInputs e (bytesOf d) with
      | (_, _, s, some x) => s.ringStop r x
      | (a, l, s, none) =>
        let w := s.front.nextW
        let x : Work := {
          ring := r, ctx := k.ctx, hood := k.hood, hgen := (s.hood k.hood).gen, rgen := k.rgen, desc := bytesOf d, args := a, elems := l }
        let s := { s with works := s.works.insert w x, front := { s.front with nextW := w + 1 } }
        let ci := (k.ci + 1) % 2 ^ 32
        fetchLoop n (s.modRing r (fun k => { k with
          ci := ci, queue := k.queue ++ [w], idle := if ci = k.pi then s.now else k.idle })) r

/-- DESCRIPTOR_FETCH (R246): one read of up to 16 descriptors, never more than PFD ahead of the next start; CI is written (R242). -/
def fetchEff (r : Nat) (s : State) : State :=
  let k := s.ring r
  let n := min (min 16 (k.pfd - k.queue.length)) (s.waiting r)
  if !s.fetchable r || n = 0 then s
  else ((fetchLoop n s r).dbWrite r).scheduleAll k.hood

def execDescriptorFetch (r : Nat) (s : State) : Host.Outcome State Fault Refusal := run (decide (r < 8192)) (fetchEff r) s

/-- DOORBELL_POLL (R243): the record of an AWAKE ring with nothing unfetched is read. -/
def pollEff (r : Nat) (s : State) : State := if s.fetchable r && s.waiting r == 0 then s.readPi r else s

def execDoorbellPoll (r : Nat) (s : State) : Host.Outcome State Fault Refusal := run (decide (r < 8192)) (pollEff r) s

/-- RING_SLEEP (R243): PI has equalled CI for FE_SLEEP_IDLE. A place that becomes free goes to the wake queue (R244). -/
def sleepEff (r : Nat) (s : State) : State :=
  let k := s.ring r
  if s.fetchable r && s.waiting r == 0 && decide (k.idle + s.reg rFE_SLEEP_IDLE k.hood * 1000 ≤ s.now) then (s.sleepRing r).fillAwake else s

def execRingSleep (r : Nat) (s : State) : Host.Outcome State Fault Refusal := run (decide (r < 8192)) (sleepEff r) s

/-- RING_ROTATE (R244): out after 100 µs with unfetched descriptors while rings queue. -/
def rotateEff (r : Nat) (s : State) : State :=
  if s.fetchable r && s.waiting r != 0 && !s.front.wakeQ.isEmpty && decide ((s.ring r).awake + 100000 ≤ s.now) then
    let s := (s.modRing r (fun k => { k with state := 1, wgen := (k.wgen + 1) % 2 ^ 32 })).dbWrite r
    ({ s with front := { s.front with wakeQ := s.front.wakeQ ++ [r] } }).fillAwake
  else s

def execRingRotate (r : Nat) (s : State) : Host.Outcome State Fault Refusal := run (decide (r < 8192)) (rotateEff r) s

/-! ### Descriptors of the front end -/

/-- A started descriptor, element or node of a kind whose effect has not yet happened, in a hood that serves and is not frozen. -/
def State.begun (s : State) (w : Nat) (kind : Nat → Bool) : Option Work :=
  (s.work? w).filter (fun x =>
    let k := s.hood x.hood
    kind x.kind && x.phase == .started && !x.ran && s.current x && k.created && !k.failed && !k.frozen)

/-- Complete a work INVALID (R249). -/
def State.endInvalid (s : State) (w : Nat) : State := (s.setInvalid w).complete w

/-- NOP completes at once; a KIND that is not listed completes INVALID (R247, R249). -/
def nopEff (w : Nat) (s : State) : State :=
  match s.begun w (fun k => k == 0 || decide (8 ≤ k)) with
  | none => s
  | some x => if descOk x.desc then s.completeAs w 0 else s.endInvalid w

def execNop (w : Nat) (s : State) : Host.Outcome State Fault Refusal := run true (nopEff w) s

/-- The pattern that a work names, if it may use it: one of its hood's, not unregistered before the work started (R257, R262). -/
def State.patFor (s : State) (x : Work) (pid : Nat) : Option Pattern :=
  let p := s.pat pid
  if p.live && p.hood == x.hood && (!p.dying || decide (x.seqNo < p.dieSeq)) then some p else none

/-- PATTERN_LAUNCH (R260): the slot values are formed and clamped, and the root nodes start. -/
def launchEff (w : Nat) (s : State) : State :=
  match s.begun w (fun k => k == 2) with
  | none => s
  | some x =>
    match (if descOk x.desc && x.parent.isNone then s.patFor x (lPid x.desc) else none) with
    | none => s.endInvalid w
    | some p =>
      let long := decide (p.plenMax < lPlen x.desc)
      let s := if long then s.ctxClamp x.ctx 1 else s
      let (vals, n) := p.launchVals (x.args.take (min (lPlen x.desc) p.plenMax))
      let s := forN n s (fun s _ => s.ctxClamp x.ctx 3)
      let s := s.modWork w (fun x => { x with vals := vals, ran := true, pid := lPid x.desc, clamped := x.clamped || long || n != 0 })
      (s.advance w).scheduleAll x.hood

def execPatternLaunch (w : Nat) (s : State) : Host.Outcome State Fault Refusal := run true (launchEff w) s

/-- The slots that a PATCH writes, with their values (R261). -/
def patchWrites (d : List Byte) : List (Nat × BitVec 64) :=
  (List.range (fld d 0x12 0 2 + 1)).map (fun i => (fld d (0x14 + 2 * i) 0 9, BitVec.ofNat 64 (fld d (0x20 + 8 * i) 0 64)))

/-- Does an entry of a pattern use a slot? -/
def Pattern.uses (p : Pattern) (n : Nat) : Bool := p.slots.any (fun e => e.slot == n)

/-- Has a launch that its ring started before a work not formed its values yet (R261)? -/
def State.launchBefore (s : State) (x : Work) : Bool :=
  ((s.ring x.ring).started.filterMap s.work?).any (fun y => y.kind == 2 && !y.ran && decide (y.seqNo < x.seqNo))

/-- PATCH (R261): after every earlier launch of its ring has formed its values. A slot that no entry uses drops its write and makes the PATCH
INVALID. -/
def patchEff (w : Nat) (s : State) : State :=
  match s.begun w (fun k => k == 3) with
  | none => s
  | some x =>
    match (if descOk x.desc && x.parent.isNone then s.patFor x (fld x.desc 0x10 0 10) else none) with
    | none => s.endInvalid w
    | some p =>
      if s.launchBefore x then s
      else
        let ws := patchWrites x.desc
        let s := s.modPat (fld x.desc 0x10 0 10) (fun p => { p with
          res := (ws.filter (fun e => p.uses e.1)).foldl (fun m e => m.put (fun _ => 0) e.1 e.2) p.res })
        if ws.all (fun e => p.uses e.1) then s.completeAs w 0 else s.endInvalid w

def execPatch (w : Nat) (s : State) : Host.Outcome State Fault Refusal := run true (patchEff w) s

/-- CHAIN (R255): its first element starts; inside a chain or pattern it is INVALID. -/
def chainEff (w : Nat) (s : State) : State :=
  match s.begun w (fun k => k == 7) with
  | none => s
  | some x =>
    if !descOk x.desc || x.parent.isSome then s.endInvalid w
    else ((s.modWork w (fun x => { x with ran := true })).advance w).scheduleAll x.hood

def execChain (w : Nat) (s : State) : Host.Outcome State Fault Refusal := run true (chainEff w) s

/-! ### Signals and waits -/

/-- The poison mark that a FENCE_SIGNAL finds (R272). -/
def State.markOf (s : State) (x : Work) : Bool :=
  match x.parent with
  | none => (s.ring x.ring).psn
  | some p =>
    match s.work? p with
    | none => false
    | some y =>
      if y.kind = 2 then
        let pt := s.pat y.pid
        (pt.before pt.nodes.length [x.idx]).any (fun n => y.psnN.contains n)
      else y.psn

/-- FENCE_SIGNAL (R248, R268 to R272): its signal event leaves for the fence unit; the value above the ceiling is clamped (row 6). -/
def signalEff (w : Nat) (s : State) : State :=
  match s.begun w (fun k => k == 4) with
  | none => s
  | some x =>
    if (s.ring x.ring).xstop then s
    else if !descOk x.desc then s.endInvalid w
    else
      match s.fenceAt x.hood x.ctx (fVa x.desc) 1 with
      | (.bad, s) => s.endInvalid w
      | (.stop y, s) => s.ringStop x.ring y
      | (.at l ro, s) =>
        let top := fValue x.desc == 2 ^ 64 - 1
        let s := if top then s.ctxClamp x.ctx 6 else s
        let s := s.modWork w (fun x => { x with ran := true, clamped := x.clamped || top })
        let v := min (fValue x.desc) (2 ^ 64 - 2)
        let s := if l.1 = 0 then s
          else (s.noteLender (some w) (some x.ring) (tagPkg l.1)).fenceMreq x.hood l (fun id => .fence id l.2 v)
        s.sendSignal {
          loc := l, va := fVa x.desc, ctx := x.ctx, ring := x.ring, hood := x.hood, hgen := x.hgen, value := v
          psn := s.markOf x, ro := ro, work := some w }

def execFenceSignal (w : Nat) (s : State) : Host.Outcome State Fault Refusal := run true (signalEff w) s

/-- Test a wait against its fence (R268, R269, R273). -/
def State.testWait (s : State) (wt : Wait) : State :=
  let d := s.fenceRd wt.loc
  let f := bytesOf d
  let rel := fun (code : Nat) => let (s, q) := s.releaseWait wt code; s.attachSets q
  if anyPsn d then rel 10
  else if fcErr f ≠ 0 then rel (fcErr f)
  else if s.orphan wt.loc f then s.attachFence wt.loc false wt.va 2
  else if wt.thr ≤ fcValue f ∧ wt.thr ≠ 2 ^ 64 - 1 then rel 0
  else s

/-- The wait of a FENCE_WAIT (R273); a TIMEOUT of zero is the context's default (R274). -/
def State.newWait (s : State) (w : Nat) (x : Work) (l : FLoc) : Wait :=
  { work := w, ctx := x.ctx, ring := x.ring, hood := x.hood, loc := l, va := fVa x.desc, thr := fValue x.desc, start := s.now
    timeout := if fTimeout x.desc = 0 then (s.ctx x.ctx).defto else fTimeout x.desc }

/-- The wait starts. -/
def State.startWait (s : State) (w : Nat) (x : Work) (l : FLoc) : State :=
  let t := (if l.1 = 0 then s else s.noteLender (some w) (some x.ring) (tagPkg l.1)).modWork w (fun x => { x with phase := .waiting, ran := true })
  { t with waits := s.waits ++ [s.newWait w x l] }

/-- FENCE_WAIT (R273, R274): the wait starts, and is tested at once. -/
def waitEff (w : Nat) (s : State) : State :=
  match s.begun w (fun k => k == 5) with
  | none => s
  | some x =>
    if (s.ring x.ring).xstop then s
    else if !descOk x.desc then s.endInvalid w
    else
      match s.fenceAt x.hood x.ctx (fVa x.desc) 0 with
      | (.bad, s) => s.endInvalid w
      | (.stop y, s) => s.ringStop x.ring y
      | (.at l _, s) => (s.startWait w x l).testWait (s.newWait w x l)

def execFenceWait (w : Nat) (s : State) : Host.Outcome State Fault Refusal := run true (waitEff w) s

/-- SIGNAL_APPLY (R270): the oldest signal event on its way. -/
def applyFirst (s : State) : State :=
  match s.front.sigs with
  | [] => s
  | g :: l => ({ s with front := { s.front with sigs := l } }).applySignal g

def execSignalApply (s : State) : Host.Outcome State Fault Refusal := run true applyFirst s

/-- A wait on a barrier is broken (R343): fulling ends, and the issue ramp applies where it had been lowered. -/
def State.barBroken (s : State) (wt : Wait) : State :=
  match s.work? wt.work with
  | some x =>
    if wt.kind = 2 then
      let u := 64 * x.hood + fld x.args 0 0 6
      let ts := (List.range x.cnt).map (fun t => x.lo + t)
      let low := (s.bar u).fulling == 2
      let s := s.modBar u (fun b => { b with arrived := b.arrived.filter (fun t => !ts.contains t), times := b.times.filter (fun p => !ts.contains p.1), fulling := 0 })
      if low then s.startRamp ((ts.map (fun t => plankOf (s.siteOf x.hood t))).eraseDups) else s
    else s
  | none => s

/-- WAIT_TIMEOUT (R274): the wait of a work is released with TIMEOUT once its time is over. -/
def timeoutEff (w : Nat) (s : State) : State :=
  match s.waits.find? (fun x => x.work == w) with
  | some wt =>
    if wt.start + wt.timeout * 1000 ≤ s.now then
      let (s, q) := (s.barBroken wt).releaseWait wt 9
      s.attachSets q
    else s
  | none => s

def execWaitTimeout (w : Nat) (s : State) : Host.Outcome State Fault Refusal := run true (timeoutEff w) s

/-- FENCE_POLL (R285): a wait on a fence in a borrowed range reads it by RdU. What this package last saw of the lender's memory answers
at once (log entry 3); the lender's own answer is taken when it arrives. -/
def fencePollEff (w : Nat) (s : State) : State :=
  match s.waits.find? (fun x => x.work == w) with
  | some wt =>
    if wt.kind = 0 ∧ wt.loc.1 ≠ 0 then
      (s.fenceMreq wt.hood wt.loc (fun id => .rdU id wt.loc.2 64)).testWait wt
    else s
  | none => s

def execFencePoll (w : Nat) (s : State) : Host.Outcome State Fault Refusal := run true (fencePollEff w) s

/-! ### Wait cycles (R283) -/

/-- A pending signal: its fence, its value, and the waits (by work) after which alone it can start. -/
structure PSig where
  loc   : FLoc
  value : Nat
  after : List Nat
  deriving DecidableEq, Repr

/-- The fence an address names, if any. -/
def State.fenceLoc (s : State) (h c va : Nat) : Option FLoc :=
  match s.fenceAt h c va 1 with
  | (.at l _, _) => some l
  | _ => none

/-- Waits of the works that satisfy `p`. -/
def State.waitsOf (s : State) (p : Work → Bool) : List Nat :=
  (s.waits.filter (fun wt => match s.work? wt.work with | some x => p x | none => false)).map (fun wt => wt.work)

/-- The signals of one work of a ring that have not been applied. -/
def State.sigsOfWork (s : State) (w : Nat) (x : Work) : List PSig :=
  let mk := fun (d : List Byte) (after : List Nat) => (s.fenceLoc x.hood x.ctx (fVa d)).map (fun l => PSig.mk l (fValue d) after)
  let ring := if x.phase == .queued then s.waitsOf (fun y => y.ring == x.ring && y.hood == x.hood) else []
  match x.kind with
  | 4 => (mk x.desc ring).toList
  | 7 =>
    let own := s.waitsOf (fun y => y.parent == some w)
    ((x.elems.drop x.doneN.length).filter (fun e => dKind e.1 == 4)).filterMap (fun e => mk e.1 (ring ++ own))
  | 2 =>
    let p := s.pat (lPid x.desc)
    let vals := if x.ran then x.vals else (p.launchVals (x.args.take p.plenMax)).1
    if p.hood != x.hood then []
    else (List.range p.nodes.length).filterMap (fun n =>
      let d := (p.node vals n).1
      if dKind d = 4 && !x.doneN.contains n then
        let pre := p.before p.nodes.length [n]
        mk d (ring ++ s.waitsOf (fun y => y.parent == some w && pre.contains y.idx))
      else none)
  | _ => []

/-- The signals of a ring's descriptors from CI to the PI it last read. -/
def State.sigsUnfetched (s : State) (r : Nat) : List PSig :=
  let k := s.ring r
  let ring := s.waitsOf (fun y => y.ring == r && y.hood == k.hood)
  let ds := (List.range (min (s.waiting r) (2 ^ k.log2n))).filterMap (fun i => s.peek k.hood k.ctx (k.dbase + 64 * ((k.ci + i) % 2 ^ k.log2n)) 64)
  (ds.flatMap (s.signalsIn k.hood k.ctx)).filterMap (fun d => (s.fenceLoc k.hood k.ctx (fVa d)).map (fun l => PSig.mk l (fValue d) ring))

/-- Every pending signal of the package. -/
def State.allSigs (s : State) : List PSig :=
  ((s.works.filter (fun e => e.2.parent.isNone && s.current e.2)).flatMap (fun e => s.sigsOfWork e.1 e.2)) ++
    ((s.rings.filter (fun e => e.2.live)).flatMap (fun e => s.sigsUnfetched e.1))

/-- Is a wait stuck within a set of waits: some pending signal meets it, each such signal starts only after a wait of the set, and no
ring of the fence's hood that no wait of the set blocks has work to fetch? -/
def State.stuckIn (s : State) (sigs : List PSig) (set : List Nat) (wt : Wait) : Bool :=
  let mine := sigs.filter (fun g => g.loc == wt.loc && decide (wt.thr ≤ g.value))
  wt.kind == 0 && wt.loc.1 == 0 && !mine.isEmpty && mine.all (fun g => g.after.any set.contains) &&
    (match s.fenceHood wt.loc with
     | some h => (s.hoodRings h).all (fun r => s.waiting r == 0 || (s.waitsOf (fun y => y.ring == r)).any set.contains)
     | none => true)

/-- Shrink a set of waits until every one of them is stuck within it. -/
def stuckLoop : Nat → State → List PSig → List Wait → List Wait
  | 0, _, _, l => l
  | n + 1, s, sigs, l => stuckLoop n s sigs (l.filter (s.stuckIn sigs (l.map (fun w => w.work))))

/-- The waits of a set that a wait depends on, directly or through others. -/
def reachLoop : Nat → (Nat → List Nat) → List Nat → List Nat
  | 0, _, l => l
  | n + 1, f, l => reachLoop n f (l ++ ((l.flatMap f).filter (fun x => !l.contains x)).eraseDups)

/-- DEADLOCK_SCAN (R283): each cycle found at two consecutive scans loses the wait that started last, the higher ring number winning a
tie. The wait-for table holds 16,384 waits. -/
def scanEff (s : State) : State :=
  let sigs := s.allSigs
  let tbl := s.waits.take 16384
  let set := stuckLoop tbl.length s sigs tbl
  let ids := set.map (fun w => w.work)
  let dep := fun (w : Nat) => match set.find? (fun x => x.work == w) with
    | some wt => ((sigs.filter (fun g => g.loc == wt.loc && decide (wt.thr ≤ g.value))).flatMap (fun g => g.after)).filter ids.contains
    | none => []
  let reach := fun (w : Nat) => reachLoop set.length dep (dep w).eraseDups
  let cyc := set.filter (fun w => (reach w.work).contains w.work)
  let later := fun (a b : Wait) => decide (b.start < a.start) || (a.start == b.start && decide (b.ring < a.ring))
  let brk := cyc.filter (fun w => decide (1 ≤ w.scans) &&
    cyc.all (fun v => v.work == w.work || !((reach w.work).contains v.work && (reach v.work).contains w.work) || later w v))
  let s := { s with waits := s.waits.map (fun w => { w with scans := if cyc.any (fun v => v.work == w.work) then w.scans + 1 else 0 }) }
  brk.foldl (fun s w =>
    let s := s.causeV rFE_CAUSE (w.hood + 1) 1 rFE_DL_RING w.ring
    (s.releaseWait w 3).1) s

def execDeadlockScan (s : State) : Host.Outcome State Fault Refusal := run true scanEff s

/-! ### Quanta and saves -/

/-- Does a descriptor qualify to be preempted under R300: a ready one of another context with lower vt waits on its tiles, and R305 allows
the change? -/
def State.qualifies (s : State) (x : Work) : Bool :=
  let h := x.hood
  decide (x.claimed + s.quantum h ≤ s.now) && x.holds && x.phase != .saving && s.current x &&
    (s.ctxOrder h).any (fun c =>
      c != x.ctx && decide ((s.ctx c).vt < (s.ctx x.ctx).vt) &&
      !s.works.any (fun e => e.2.ctx == c && e.2.phase == .saved && e.2.parent.isNone && decide (e.2.cnt ≤ s.ntile h)) &&
      (s.ringsOf c).any (fun r => match (s.headReady r).bind s.work? with
        | some y =>
          let (lo, n) := s.claimOf y
          let k := clipSpan (s.ntile h) lo n
          k != 0 && x.heldTiles.any (fun t => decide (lo ≤ x.lo + t) && decide (x.lo + t < lo + k)) &&
            decide (s.savedCount h + s.heldCount h + k ≤ s.slotCount h)
        | none => false))

/-- QUANTUM_EXPIRY (R300): the descriptor is preempted if it is the one chosen: the highest vt, then the later start. -/
def quantumEff (w : Nat) (s : State) : State :=
  match s.work? w with
  | none => s
  | some x =>
    let s := s.accrueHood x.hood
    let better := fun (a b : Work) => decide ((s.ctx b.ctx).vt < (s.ctx a.ctx).vt) || ((s.ctx b.ctx).vt == (s.ctx a.ctx).vt && decide (b.seqNo < a.seqNo))
    if s.mayRun x.hood && s.qualifies x && (s.worksOf (fun y => y.hood == x.hood && s.qualifies y)).all (fun e => e.1 == w || better x e.2) then
      s.preempt w
    else s

def execQuantumExpiry (w : Nat) (s : State) : Host.Outcome State Fault Refusal := run true (quantumEff w) s

/-- SAVE_COMPLETE (R304, R309): every tile's state is acknowledged, and what was in flight of the descriptor has completed (R128); what waited for the
save goes on. -/
def saveCompleteEff (w : Nat) (s : State) : State :=
  match s.work? w with
  | none => s
  | some x =>
    if (x.phase != .saving && x.moveT.isEmpty) || !s.noneFlying w then s else ((s.saveEnd w).afterSave x.hood).scheduleAll x.hood

def execSaveComplete (w : Nat) (s : State) : Host.Outcome State Fault Refusal := run true (saveCompleteEff w) s

/-- SCRATCHPAD_PARITY_ERROR (R55): the site is isolated and its hood fails (R25, R27). -/
def parityEff (i : Nat) (s : State) : State := if (s.site i).isol then s else s.isolateSite i

def execScratchpadParityError (site : Nat) (s : State) : Host.Outcome State Fault Refusal :=
  run (decide (site < 1664)) (parityEff site) s

end Sys2Proof.Machine
end

