-- ==== Sys2Proof/Machine/Copy.lean ====
section
/-!
DEFINITION. Machine/Copy.lean: the four COPY modes (R254) with their completion (R247). A COPY moves its rows in an order the spec leaves open
(log entry 6).
-/
namespace Sys2Proof.Machine

/-! ### Copies -/

/-- Put a row number at its place by a key. -/
def insertBy (key : Nat → Nat) (r : Nat) : List Nat → List Nat
  | [] => [r]
  | q :: l => if key r < key q then r :: q :: l else q :: insertBy key r l

/-- The order in which the rows of a copy run: any order (R254, log entry 6). -/
def rowOrder (seed n : Nat) : List Nat :=
  (List.range n).foldl (fun l r => insertBy (fun i => Config.choice (seed * 2 ^ 32 + i)) r l) []

/-- Move one row, from `off` on: bytes moved, poison seen, and why it stopped. -/
def State.copyRow (s : State) (e : Eng) (x : Work) (row off : Nat) : Nat × Bool × State × Option Stop :=
  let d := x.desc
  let m := cMode d
  let n := cLen d - off
  let idx : List PB × State × Option Stop := if m = 1 || m = 2 then s.rdVA e (cIdx d + 4 * row) 4 else ([], s, none)
  match idx with
  | (_, s, some y) => (0, false, s, some y)
  | (ib, s, none) =>
    let i := leNat (bytesOf ib)
    let bad := anyPsn ib
    let src := cSrc d + (if m = 1 then i else row) * cSstride d + off
    let dst := cDst d + (if m = 2 then i else row) * cDstride d + off
    let rd : List PB × State × Option Stop :=
      if m = 3 then (clean ((List.range n).map (fun j => (leBytes 8 (cSrc d)).getD ((off + j) % 8) 0)), s, none) else s.rdVA e src n
    let (data, s, y) := rd
    let data := if bad then data.map (fun p => (p.1, true)) else data
    let (k, s, z) := s.wrVA e dst data
    (k, anyPsn (data.take k), s, z.orElse (fun _ => y))

/-- Move the rows that are left. `done` counts the bytes moved before the first row of the list. -/
def copyRows (e : Eng) (w : Nat) (x : Work) : List Nat → Nat → State → State
  | [], _, s => (s.unholdWork w).modWork w (fun x => { x with ran := true, phase := .finished })
  | r :: l, done, s =>
    let n := cLen x.desc
    let pos := ((s.work? w).map (fun y => (y.prog.find 0).getD 0)).getD 0
    if done + n ≤ pos then copyRows e w x l (done + n) s
    else
      let (k, psn, s, y) := s.copyRow e x r (pos - done)
      let s := s.modWork w (fun x => { x with prog := x.prog.insert 0 (pos + k), psnw := x.psnw || psn })
      match y with
      | none => copyRows e w x l (done + n) s
      | some y => s.stopWork w x e y none (decide (done < pos + k))

/-- One COPY, in the mode its row names (R254): LEN 0 completes at once. -/
def copyEff (mode w : Nat) (s : State) : State :=
  match s.begun w (fun k => k == 6) with
  | none => s
  | some x =>
    match x.engine with
    | none => s
    | some n =>
      if cMode x.desc != mode then s
      else if !descOk x.desc then s.endInvalid w
      else if cLen x.desc = 0 then s.completeAs w 0
      else
        let (seed, s) := match x.prog.find 1 with | some v => (v, s) | none => s.draw
        let s := s.modWork w (fun x => { x with prog := x.prog.insert 1 seed })
        copyRows ((copyEng x.hood x.ctx n x.ring).of w) w x (rowOrder seed (cRows x.desc)) 0 s

def execStrided (w : Nat) (s : State) : Host.Outcome State Fault Refusal := run true (copyEff 0 w) s
def execGather (w : Nat) (s : State) : Host.Outcome State Fault Refusal := run true (copyEff 1 w) s
def execScatter (w : Nat) (s : State) : Host.Outcome State Fault Refusal := run true (copyEff 2 w) s
def execFill (w : Nat) (s : State) : Host.Outcome State Fault Refusal := run true (copyEff 3 w) s

/-- COPY_COMPLETE (R247, R141): every write is acknowledged; the copy's record is written, its engine is free and what it held back starts. -/
def copyCompleteEff (w : Nat) (s : State) : State :=
  match s.work? w with
  | none => s
  | some x => if x.kind = 6 && x.phase == .finished && s.current x && s.allAcked w then s.complete w else s

def execCopyComplete (w : Nat) (s : State) : Host.Outcome State Fault Refusal := run true (copyCompleteEff w) s

end Sys2Proof.Machine
end

