-- ==== Sys2Proof/Machine/Matrix.lean ====
section
/-!
DEFINITION. Machine/Matrix.lean: operands in the scratchpad (R33 to R35), the WA112 element (R36), anchors (R37, R39), products (R40,
R42), merges (R44, R45) and the conversion of elements (R46 to R48).
-/
namespace Sys2Proof.Machine

/-! ### The element (R36) -/

abbrev Elem := BitVec 128

def Elem.flags (x : Elem) : EFlags := BitVec.ofNat 6 (bits x.toNat 122 6)
def Elem.anchor (x : Elem) : Nat := bits x.toNat 112 10
def Elem.lam (x : Elem) : Int := (x.anchor : Int) - 512
def Elem.win (x : Elem) : Int := toSigned 112 (bits x.toNat 0 112)

/-- Build an element; the window is kept modulo 2^112 and no flag tells that it wrapped (log entry 79: R40 says only that global mode never
overflows it). -/
def mkElem (fl : EFlags) (anchor : Nat) (win : Int) : Elem :=
  BitVec.ofNat 128 (fl.toNat * 2 ^ 122 + anchor % 1024 * 2 ^ 112 + (win % 2 ^ (112 : Nat)).toNat)

def anchorOf (lam : Int) : Nat := (lam + 512).toNat

/-- Element (i, j) of bank b in the element table. -/
def elKey (b i j : Nat) : Nat := 2048 * b + 64 * i + j

def Tile.el (t : Tile) (k : Nat) : Elem := (t.acc.find k).getD 0
def Tile.setEl (t : Tile) (k : Nat) (v : Elem) : Tile := { t with acc := t.acc.put (fun _ => 0) k v }

/-! ### Formats of operands (Tables 2 and 3 of The Tile) -/

/-- E2M1, E2M3 or E3M2, which always carry scales. -/
def isMx (f : Nat) : Bool := decide (f ≤ 2)
def isFp8 (f : Nat) : Bool := f == 3 || f == 4

/-- The pair appears in Table 2. -/
def pairOk (a b : Nat) : Bool :=
  (isMx a && isMx b) || (isFp8 a && (isFp8 b || isMx b)) || (isMx a && isFp8 b) || (a == b && (a == 5 || a == 6 || a == 7))

/-- Bytes of a block of 32 elements (R33). -/
def blockBytes (f : Nat) : Nat := 4 * elBits f

/-- T of Table 3. -/
def topExp (f : Nat) : Int :=
  match f with
  | 0 => 3 | 1 => 3 | 2 => 5 | 3 => 9 | 4 => 16 | 5 => 8 | 6 => 16 | _ => 1

/-- Element `x` of a packed run at a scratchpad address, with its poison: little-endian bit order covers every packing of R33. -/
def Tile.elAt (t : Tile) (f a x : Nat) : Nat × Bool :=
  let w := elBits f
  let lo := x * w
  let d := t.rdN (a + lo / 8) ((lo % 8 + w + 7) / 8)
  (bits (leNat (bytesOf d)) (lo % 8) w, anyPsn d)

/-- An operand element as the matrix engine sees it. -/
structure Opnd where
  v    : FVal
  s    : Int                        -- scale exponent of its block
  nanS : Bool                       -- its block's scale, or its declared bound, is 0xFF
  ovf  : Bool                       -- it reaches its declared bound (BF16 global)
  psn  : Bool
  deriving DecidableEq, Repr

/-- Does a magnitude reach 2^(e + 1)? -/
def reaches (v : FVal) (e : Int) : Bool :=
  match v with
  | .fin _ m g => m != 0 && decide (e + 1 ≤ g + bitLen m - 1)
  | .inf _ => true
  | .nan _ => false

/-- Add one product to a window (R40, R42). An element beyond its declared bound sets OVF whatever the other element is, an Inf element
among them (log entry 79). -/
def macStep (lam : Int) (acc : Int × EFlags) (a b : Opnd) : Int × EFlags :=
  let (w, fl) := acc
  let fl := fl ||| eflagIf (a.psn || b.psn) ePsn ||| eflagIf (a.ovf || b.ovf) eOvf
  if a.nanS || b.nanS || isNan a.v || isNan b.v then (w, fl ||| eNan)
  else
    match a.v, b.v with
    | .fin _ m _, .inf t => if m = 0 then (w, fl ||| eNan) else
        let s := match a.v with | .fin s _ _ => s | _ => false
        (w, fl ||| (if s != t then eNinf else ePinf))
    | .inf s, .fin t m _ => if m = 0 then (w, fl ||| eNan) else (w, fl ||| (if s != t then eNinf else ePinf))
    | .inf s, .inf t => (w, fl ||| (if s != t then eNinf else ePinf))
    | .fin s m e, .fin t n g =>
      if a.ovf || b.ovf || m * n = 0 then (w, fl)
      else
        let x : Int := if s != t then -((m * n : Nat) : Int) else (m * n : Nat)
        let sh := e + g + a.s + b.s - lam
        if 0 ≤ sh then (w + x * 2 ^ sh.toNat, fl)
        else let d : Int := 2 ^ (-sh).toNat; (w + x / d, fl ||| eflagIf (x % d != 0) eStk)
    | _, _ => (w, fl)

/-- Add a list of products. -/
def macAll (lam : Int) (acc : Int × EFlags) (l : List (Opnd × Opnd)) : Int × EFlags := l.foldl (fun r p => macStep lam r p.1 p.2) acc

/-- The largest scale or bound of a run of bytes, bytes of 0xFF left out; 0 where none is left (R37). -/
def maxScale (l : List Byte) : Int :=
  ((l.filter (fun b => b != 0xFF)).map (fun b => (b.toNat : Int) - 127)).foldl
    (fun (m : Option Int) x => some (match m with | none => x | some y => max x y)) none |>.getD 0

/-- The bound byte of a block of BF16 elements over its finite elements (R35, R39). -/
def boundByte (l : List FVal) : Nat :=
  l.foldl (fun r v => match v with
    | .fin _ m e => if m = 0 then r else max r (e + bitLen m - 1 + 127).toNat
    | _ => r) 0

/-- The bound byte that STB writes (R35): 0xFF for a block with an Inf or a NaN. -/
def stbByte (l : List FVal) : Nat := if l.any (fun v => match v with | .fin .. => false | _ => true) then 0xFF else boundByte l

/-! ### One side of a matrix operation -/

/-- Where one operand lies: format, base of the slice, address of the scales or bounds, slice [k0, k1) and declared blocks. -/
structure Side where
  f     : Nat
  base  : Nat
  scl   : Option Nat
  k0    : Nat
  k1    : Nat
  kd    : Nat
  localMode : Bool
  deriving DecidableEq, Repr

/-- The elements of block kb of a row or column, as the engine sees them. -/
def Tile.block (t : Tile) (d : Side) (row kb : Nat) : List Opnd :=
  let a := d.base + row * (d.k1 - d.k0) * blockBytes d.f + (kb - d.k0) * blockBytes d.f
  let sb : Option PB := d.scl.map (fun c => let x := c + row * d.kd + kb; (t.rd x, t.psnAt x))
  let byte := (sb.map (fun p => p.1.toNat)).getD 127
  let spsn := (sb.map (fun p => p.2)).getD false
  (List.range 32).map (fun x =>
    let (c, p) := t.elAt d.f a x
    let v := elVal d.f c
    if d.f = 7 then
      if d.localMode then { v := v, s := 0, nanS := false, ovf := false, psn := p }
      else { v := v, s := 0, nanS := byte == 255, ovf := byte != 255 && reaches v ((byte : Int) - 127), psn := p || spsn }
    else { v := v, s := (byte : Int) - 127, nanS := byte == 255, ovf := false, psn := p || spsn })

/-- The maximum that enters S for a row or column (R37, R39). -/
def Tile.sideMax (t : Tile) (d : Side) (row : Nat) : Int :=
  if d.localMode then
    maxScale ((List.range (d.k1 - d.k0)).map (fun i => BitVec.ofNat 8 (boundByte ((t.block d row (d.k0 + i)).map (fun o => o.v)))))
  else match d.scl with
    | some c => maxScale ((List.range d.kd).map (fun kb => t.rd (c + row * d.kd + kb)))
    | none => 0

/-- λ for an element (R37). -/
def lamFor (fa fb : Nat) (s : Int) : Int := s + topExp fa + topExp fb - 91

/-- The slices of a row and a column, product by product. -/
def Tile.products (t : Tile) (a b : Side) (i j : Nat) : List (Opnd × Opnd) :=
  (List.range (a.k1 - a.k0)).flatMap (fun n => (t.block a i (a.k0 + n)).zip (t.block b j (b.k0 + n)))

/-- One matrix operation on a bank (R37 to R42). -/
def Tile.mma (t : Tile) (bank : Nat) (init : Bool) (a b : Side) : Tile :=
  (List.range 2048).foldl (fun u e =>
    let i := e / 64
    let j := e % 64
    let old := t.el (elKey bank i j)
    let lam := if init then lamFor a.f b.f (t.sideMax a i + t.sideMax b j) else old.lam
    let start : Int × EFlags := if init then (0, 0) else (old.win, old.flags)
    let (w, fl) := macAll lam start (t.products a b i j)
    u.setEl (elKey bank i j) (mkElem fl (anchorOf lam) w)) t

/-! ### Merge (R44) -/

/-- Add an incoming element to a resident one. -/
def mergeEl (x y : Elem) : Elem :=
  let fl := x.flags ||| y.flags
  if x.anchor = y.anchor then mkElem fl x.anchor (x.win + y.win)
  else
    let (lo, hi) := if x.anchor < y.anchor then (x, y) else (y, x)
    let d : Int := 2 ^ (hi.anchor - lo.anchor)
    mkElem (fl ||| eflagIf (lo.win % d != 0) eStk) hi.anchor (hi.win + lo.win / d)

/-! ### Conversion (R46, R47) -/

/-- The format of OFMT of a WB descriptor. -/
def wbFmt : Nat → Fmt
  | 0 => fFP32 | 1 => fBF16 | 2 => fE4M3 | _ => fE5M2

/-- An element converted: its code and whether the location is poisoned (Table 6). -/
def convEl (f : Fmt) (rnd : Nat) (sat : Bool) (osc : Int) (x : Elem) : Nat × Bool :=
  let fl := x.flags
  if fl &&& ePsn ≠ 0 then (f.nan.getD 0, true)
  else if fl &&& (eNan ||| eOvf) ≠ 0 || fl &&& (ePinf ||| eNinf) = (ePinf ||| eNinf) then (f.nan.getD 0, false)
  else if fl &&& ePinf ≠ 0 then (f.packInf sat false, false)
  else if fl &&& eNinf ≠ 0 then (f.packInf sat true, false)
  else if x.win = 0 then (0, false)
  else ((f.pack rnd sat (decide (x.win < 0)) x.win.natAbs (x.lam + osc) false).1, false)

/-- What the conversion of an element raises in the vector status word (R52): the flags of the rounding, where it rounds. -/
def convFlags (f : Fmt) (rnd : Nat) (sat : Bool) (osc : Int) (x : Elem) : VFlags :=
  if x.flags &&& (ePsn ||| eNan ||| eOvf ||| ePinf ||| eNinf) ≠ 0 || x.win = 0 then 0
  else (f.pack rnd sat (decide (x.win < 0)) x.win.natAbs (x.lam + osc) false).2

/-- fp32 of an element, as the attention sequence and ACCRD use it. -/
def fp32El (x : Elem) : Nat × Bool := convEl fFP32 0 true 0 x

end Sys2Proof.Machine
end

