-- ==== Sys2Proof/Machine/Kernels.lean ====
section
/-!
DEFINITION. Machine/Kernels.lean: how a KERNEL runs on the tiles of its span (R251), the operations MMA, WB, MERGE, LOAD, STORE and BAR,
and the completion of kernels (R247 to R250).
-/
namespace Sys2Proof.Machine

/-! ### The kernel and its tiles -/

/-- The work that holds a kernel's claim. -/
def State.holderOf (_s : State) (w : Nat) (x : Work) : Nat := x.parent.getD w

/-- A started KERNEL of an OP that may run: its hood serves, and what holds its claim is not being saved. -/
def State.kernel (s : State) (w op : Nat) : Option Work :=
  (s.begun w (fun k => k == 1)).filter (fun x =>
    x.op == op && (match x.parent.bind s.work? with | some p => p.phase == .started | none => x.parent.isNone))

/-- Descriptor and argument record as R249 wants them. -/
def Work.recordsOk (x : Work) : Bool := descOk x.desc && argsOk x.op x.args

/-- The commands of a dispatch reach the die sequencers (R173): they are taken if they carry the current epoch. If the hood's block has changed since the
dispatch, whether they came before the change is open (log entry 93); those that came after it complete without effect under R19, and are counted. -/
def State.arrive (s : State) (w op : Nat) (mine : List Byte → Bool) : State :=
  match s.kernel w op with
  | none => s
  | some x =>
    if !mine x.args || x.taken then s
    else if x.epoch == s.reg rHOOD_EPOCH x.hood then s.modWork w (fun x => { x with taken := true })
    else
      let (c, s) := s.draw
      if Config.choice c % 2 = 0 then s.modWork w (fun x => { x with taken := true })
      else (s.countReg rHOOD_REJECT_COUNT x.hood x.cnt).modWork w (fun x => { x with doneT := List.range x.cnt, ran := true, phase := .finished })

/-- Is a tile of the span switched out (R120), or leaving for another site (R175)? -/
def State.tileOut (s : State) (w : Nat) (x : Work) (t : Nat) : Bool :=
  match s.work? (s.holderOf w x) with
  | some p => let k := x.lo + t - p.lo; (p.outT.find k).isSome || (p.moveT.find k).isSome
  | none => false

/-- Tiles of the span that have still to run here. -/
def State.tilesLeft (s : State) (w : Nat) (x : Work) : List Nat :=
  (List.range x.cnt).filter (fun t => !x.doneT.contains t && !s.tileOut w x t)

/-- A site that takes no command: isolated itself or with its plank (R19, R26). -/
def State.siteDown (s : State) (i : Nat) : Bool := (s.site i).isol || (s.plank (plankOf i)).isol

def State.tileDone (s : State) (w t : Nat) : State := s.modWork w (fun x => { x with doneT := x.doneT ++ [t] })

/-- A kernel with no tile left to run is finished; it awaits its completion. -/
def State.kernelEnd (s : State) (w : Nat) : State :=
  match s.work? w with
  | none => s
  | some x =>
    if x.phase == .started && x.doneT.length == x.cnt then
      (s.unholdWork w).modWork w (fun x => { x with ran := true, phase := .finished })
    else s

/-- Run a step on every tile that is left; a command for an isolated site has no effect and is counted (R26). -/
def State.foldTiles (s : State) (w : Nat) (f : State → Nat → Nat → State) : State :=
  match s.work? w with
  | none => s
  | some x =>
    (s.tilesLeft w x).foldl (fun s t =>
      let i := s.siteOf x.hood (x.lo + t)
      if s.siteDown i then (s.reject x.hood).tileDone w t else f s t i) s

def State.runTiles (s : State) (w : Nat) (f : State → Nat → Nat → State) : State := (s.foldTiles w f).kernelEnd w

/-- Note a clamp of row 1 of Table 14 once for a kernel. -/
def State.clampOnce (s : State) (w : Nat) (cut : Bool) : State :=
  match s.work? w with
  | none => s
  | some x =>
    if cut && (x.prog.find 4096).isNone then
      (s.ctxClamp x.ctx 1).modWork w (fun x => { x with clamped := true, prog := x.prog.insert 4096 1 })
    else s

/-- Add what a kernel reports (R48, R52, R250). -/
def State.report (s : State) (w : Nat) (fl : EFlags) (stk : Nat) (vs : VFlags) (psn : Bool) : State :=
  s.modWork w (fun x => { x with
    aflags := x.aflags ||| fl, stkcnt := satAdd 32 x.stkcnt stk, vstat := x.vstat ||| vs, psnw := x.psnw || psn })

/-- Bytes of an extent that lie within the scratchpad. -/
def fitSpad (a n : Nat) : Nat := min n (0x100000 - a)

/-! ### MMA (R252) -/

/-- The operands of a tile's slice; the slice is cut to the declared reduction (Table 14). -/
def mmaSides (a : List Byte) (t : Nat) : Side × Side :=
  let kd := fld a 0x10 0 15 + 1
  let k0 := fld a 0x12 0 15 + t * fld a 0x16 0 15
  let k1 := min (k0 + fld a 0x14 0 15 + 1) kd
  let k0 := min k0 k1
  let fa := fld a 0 20 4
  let fb := fld a 0 24 4
  let lm := fldB a 0 30
  ({ f := fa, base := a32 a 0, scl := a32none a 8, k0 := k0, k1 := k1, kd := kd, localMode := lm },
   { f := fb, base := a32 a 4, scl := a32none a 0xC, k0 := k0, k1 := k1, kd := kd, localMode := lm })

/-- Is the slice of a tile cut? -/
def mmaCut (a : List Byte) (t : Nat) : Bool :=
  decide (fld a 0x10 0 15 + 1 < fld a 0x12 0 15 + t * fld a 0x16 0 15 + fld a 0x14 0 15 + 1)

/-- Formats, mode and arrays as R31, R34, R35, R39 and R252 want them. -/
def mmaOk (a : List Byte) : Bool :=
  let fa := fld a 0 20 4
  let fb := fld a 0 24 4
  let lm := fldB a 0 30
  let need := fun f => isMx f || (f == 7 && !lm)
  pairOk fa fb && (!lm || fa == 7) && (!need fa || (a32none a 8).isSome) && (!need fb || (a32none a 0xC).isSome)

/-- MMA: with INIT the bank, its tag and its mode are set anew; without, every bank must carry RTAG, and AMODE need not be the mode stored
with the bank: the operation runs in its own (log entry 79). -/
def mmaEff (w : Nat) (s : State) : State :=
  let s := s.arrive w 1 (fun _ => true)
  match s.kernel w 1 with
  | none => s
  | some x =>
    let a := x.args
    let bank := fld a 0 28 1
    let init := fldB a 0 29
    let rtag := BitVec.ofNat 32 (fld a 0x18 0 32)
    let tagOk := init || (s.tilesLeft w x).all (fun t => ((s.tile (s.siteOf x.hood (x.lo + t))).tags.find bank).getD 0 == rtag)
    if !x.recordsOk || !mmaOk a || !tagOk then s.endInvalid w
    else
      s.runTiles w (fun s t i =>
        let (p, q) := mmaSides a t
        let s := if mmaCut a t then (s.ctxClamp x.ctx 1).modWork w (fun x => { x with clamped := true }) else s
        (s.modTile i (fun u =>
          let u := u.mma bank init p q
          if init then { u with
            tags := u.tags.put (fun _ => 0) bank rtag, modes := u.modes.put (fun _ => false) bank p.localMode } else u)).tileDone w t)

def execMma (w : Nat) (s : State) : Host.Outcome State Fault Refusal := run true (mmaEff w) s

/-! ### WB (R46 to R48) -/

/-- Bytes of an element that WB writes. -/
def wbSize (a : List Byte) : Nat := if fldB a 0 3 then 16 else match fld a 0 1 2 with | 0 => 4 | 1 => 2 | _ => 1

/-- Elements that WB writes: 2,048 in the order 64 i + j, cut at the end of the scratchpad. -/
def wbCount (a : List Byte) : Nat := fitSpad (a32 a 4) (2048 * wbSize a) / wbSize a

/-- WB on one tile: the bank converted or exported, and the flag plane. -/
def Tile.wb (t : Tile) (a : List Byte) : Tile :=
  let bank := fld a 0 0 1
  let n := wbCount a
  let el := fun k => t.el (2048 * bank + k)
  let data := (List.range n).flatMap (fun k =>
    if fldB a 0 3 then clean (leBytes 16 (el k).toNat)
    else
      let (c, p) := convEl (wbFmt (fld a 0 1 2)) (fld a 0 4 2) (fldB a 0 6) (toSigned 7 (fld a 0 7 7)) (el k)
      (leBytes (wbSize a) c).map (fun b => (b, p)))
  let u := t.wr (a32 a 4) data
  match a32none a 8 with
  | some f => u.wr f (clean ((List.range (min n (fitSpad f 2048))).map (fun k => (el k).flags.setWidth 8)))
  | none => u

def wbEff (w : Nat) (s : State) : State :=
  let s := s.arrive w 2 (fun _ => true)
  match s.kernel w 2 with
  | none => s
  | some x =>
    let a := x.args
    if !x.recordsOk then s.endInvalid w
    else
      let cut := decide (wbCount a < 2048) || (match a32none a 8 with | some f => decide (fitSpad f 2048 < 2048) | none => false)
      (s.clampOnce w cut).runTiles w (fun s t i =>
        let u := s.tile i
        let fl := (List.range (wbCount a)).map (fun k => (u.el (2048 * fld a 0 0 1 + k)).flags)
        let (f, n) := reportFlags fl
        ((s.modTile i (fun u => u.wb a)).report w f n 0 (!fldB a 0 3 && f &&& ePsn != 0)).tileDone w t)

def execWb (w : Nat) (s : State) : Host.Outcome State Fault Refusal := run true (wbEff w) s

/-! ### MERGE (R44, R45, R251) -/

/-- Merge a partner's bank into a tile. -/
def Tile.merge (t : Tile) (from_ : Tile) (bank : Nat) : Tile :=
  (List.range 2048).foldl (fun u k => u.setEl (2048 * bank + k) (mergeEl (t.el (2048 * bank + k)) (from_.el (2048 * bank + k)))) t

/-- Partials that may be merged: the same tag, declared reduction and anchor mode. -/
def Tile.mergeOk (t u : Tile) (bank : Nat) : Bool :=
  (t.tags.find bank).getD 0 == (u.tags.find bank).getD 0 && (t.modes.find bank).getD false == (u.modes.find bank).getD false

/-- MERGE: tile t with t mod 2·DIST = DIST sends its bank to tile t − DIST. A pair that may not be merged changes nothing and makes the kernel
INVALID. -/
def mergeEff (w : Nat) (s : State) : State :=
  let s := s.arrive w 3 (fun _ => true)
  match s.kernel w 3 with
  | none => s
  | some x =>
    let bank := fld x.args 0 0 1
    let d := fld x.args 2 0 11
    if !x.recordsOk || d = 0 then s.endInvalid w
    else
      let senders := (List.range x.cnt).filter (fun t => t % (2 * d) == d)
      let site := fun (s : State) t => s.siteOf x.hood (x.lo + t)
      let live := fun (s : State) t => !s.siteDown (site s t) && !s.siteDown (site s (t - d))
      let bad := senders.any (fun t => live s t && !(s.tile (site s (t - d))).mergeOk (s.tile (site s t)) bank)
      let s := senders.foldl (fun s t =>
        let p := s.tile (site s t)
        if live s t && (s.tile (site s (t - d))).mergeOk p bank then s.modTile (site s (t - d)) (fun u => u.merge p bank) else s) s
      let s := s.runTiles w (fun s t _ => s.tileDone w t)
      if bad then (s.countReg rCTX_INVALID x.ctx 1).modWork w (fun x => { x with status := 1 }) else s

def execMerge (w : Nat) (s : State) : Host.Outcome State Fault Refusal := run true (mergeEff w) s

/-! ### LOAD and STORE (R251) -/

/-- The virtual address of a tile's bytes. -/
def xferVa (a : List Byte) (t : Nat) : Nat := (fld a 0 0 64 + t * fld a 0x10 0 64) % 2 ^ 64

/-- One tile of a LOAD, from where it has come. A step that is abandoned leaves its destination open (R124, log entry 100). -/
def loadTile1 (w : Nat) (x : Work) (s : State) (t i : Nat) : State :=
  let a := x.args
  let spad := fld a 8 0 20
  let n := fitSpad spad (fld a 0xC 0 32)
  let pos := ((s.work? w).map (fun y => (y.prog.find t).getD 0)).getD 0
  let e := (tileEng x.hood x.ctx i 0 x.ring).of w
  let (d, s, y) := s.rdVA e (xferVa a t + pos) (n - pos)
  let s := (s.modTile i (fun u => u.wr (spad + pos) d)).modWork w (fun x => { x with
    prog := x.prog.insert t (pos + d.length), psnw := x.psnw || anyPsn d })
  match y with
  | none => s.tileDone w t
  | some y =>
    let s := if s.abandons e y (some t) then
        let (f, s) := s.draw
        s.modTile i (fun u => u.wr spad (clean ((List.range n).map (Config.loadLeft f))))
      else s
    s.stopWork w x e y (some t) (decide (0 < pos + d.length))

/-- One tile of a STORE. -/
def storeTile1 (w : Nat) (x : Work) (s : State) (t i : Nat) : State :=
  let a := x.args
  let spad := fld a 8 0 20
  let n := fitSpad spad (fld a 0xC 0 32)
  let pos := ((s.work? w).map (fun y => (y.prog.find t).getD 0)).getD 0
  let e := (tileEng x.hood x.ctx i 0 x.ring).of w
  let d := (s.tile i).rdN (spad + pos) (n - pos)
  let (k, s, y) := s.wrVA e (xferVa a t + pos) d
  let s := s.modWork w (fun x => { x with prog := x.prog.insert t (pos + k), psnw := x.psnw || anyPsn (d.take k) })
  match y with
  | none => s.tileDone w t
  | some y => s.stopWork w x e y (some t) (decide (0 < pos + k))

def loadEff (w : Nat) (s : State) : State :=
  let s := s.arrive w 4 (fun _ => true)
  match s.kernel w 4 with
  | none => s
  | some x =>
    if !x.recordsOk then s.endInvalid w
    else (s.clampOnce w (decide (fitSpad (fld x.args 8 0 20) (fld x.args 0xC 0 32) < fld x.args 0xC 0 32))).runTiles w (loadTile1 w x)

def execLoad (w : Nat) (s : State) : Host.Outcome State Fault Refusal := run true (loadEff w) s

def storeEff (w : Nat) (s : State) : State :=
  let s := s.arrive w 5 (fun _ => true)
  match s.kernel w 5 with
  | none => s
  | some x =>
    if !x.recordsOk then s.endInvalid w
    else (s.clampOnce w (decide (fitSpad (fld x.args 8 0 20) (fld x.args 0xC 0 32) < fld x.args 0xC 0 32))).runTiles w (storeTile1 w x)

def execStore (w : Nat) (s : State) : Host.Outcome State Fault Refusal := run true (storeEff w) s

/-! ### BAR (R138, R251) -/

/-- BAR: every tile sends one arrival to the unit; the kernel waits for the release, with the timeout of R274. The members of a barrier
are the tiles of the BAR kernels that wait on it (log entry 26). -/
def barEff (w : Nat) (s : State) : State :=
  let s := s.arrive w 10 (fun _ => true)
  match s.kernel w 10 with
  | none => s
  | some x =>
    if !x.recordsOk || (s.bar (64 * x.hood + fld x.args 0 0 6)).owner != x.hood + 1 then s.endInvalid w
    else if (x.prog.find 4097).isSome then s.modWork w (fun x => { x with phase := .waiting })
    else if x.cnt = 0 then s.kernelEnd w
    else
      let wt : Wait := {
        work := w, ctx := x.ctx, ring := x.ring, hood := x.hood, loc := noLoc, kind := 2, start := s.now, timeout := (s.ctx x.ctx).defto }
      let s := s.modWork w (fun x => { x with phase := .waiting, prog := x.prog.insert 4097 1 })
      { s with waits := s.waits ++ [wt] }

def execBar (w : Nat) (s : State) : Host.Outcome State Fault Refusal := run true (barEff w) s

/-- The members of a barrier: the logical tiles of the BAR kernels that wait on it. -/
def State.barMembers (s : State) (u : Nat) : List Nat :=
  ((s.worksOf (fun x => x.kind == 1 && x.op == 10 && !x.ran && (x.prog.find 4097).isSome && 64 * x.hood + fld x.args 0 0 6 == u)).flatMap
    (fun e => (List.range e.2.cnt).map (fun t => e.2.lo + t))).eraseDups

/-- The release of a barrier unit ends the BAR kernels that wait on it. -/
def State.barRelease (s : State) (u : Nat) : State :=
  let ws := s.worksOf (fun x => x.kind == 1 && x.op == 10 && !x.ran && (x.prog.find 4097).isSome && 64 * x.hood + fld x.args 0 0 6 == u)
  ws.foldl (fun s e =>
    let s := { s with waits := s.waits.filter (fun q => q.work != e.1) }
    s.modWork e.1 (fun x => { x with ran := true, doneT := List.range x.cnt, phase := if x.phase == .waiting || x.phase == .started then .finished else x.phase })) s

/-! ### KERNEL_COMPLETE -/

/-- The VOP codes of R251. -/
def vopListed (v : Nat) : Bool :=
  decide (v ≤ 9) || (decide (0x10 ≤ v) && decide (v ≤ 0x15)) || (decide (0x20 ≤ v) && decide (v ≤ 0x23)) ||
    (decide (0x30 ≤ v) && decide (v ≤ 0x32))

/-- KERNEL_COMPLETE (R251, R141): every tile has reported and every write is acknowledged: the record is written and the successors start. A kernel whose OP, or whose VOP, is
not listed completes INVALID (R249). -/
def kernelCompleteEff (w : Nat) (s : State) : State :=
  match s.work? w with
  | none => s
  | some x =>
    if x.kind != 1 || !s.current x then s
    else if x.phase == .finished then (if s.allAcked w then s.complete w else s)
    else if x.phase == .started && !x.ran && (argBytes x.op == 0 || (x.op == 7 && !vopListed (fld x.args 0 0 8))) then s.endInvalid w
    else s

def execKernelComplete (w : Nat) (s : State) : Host.Outcome State Fault Refusal := run true (kernelCompleteEff w) s

end Sys2Proof.Machine
end

