-- ==== Sys2Proof/Machine/Vector.lean ====
section
/-!
DEFINITION. Machine/Vector.lean: the VEC kernel: one operation of Table 8 of The Tile (R52, R53, R35) on N elements of arrays in the
scratchpad. Element i of an FP32 array lies at the array's address + 4 i (log entry 17); every source is read before anything is written.
-/
namespace Sys2Proof.Machine

/-! ### Fields of the record (R251) -/

def vOp (a : List Byte) : Nat := fld a 0 0 8
def vFmt (a : List Byte) : Nat := fld a 0 8 4
def vRnd (a : List Byte) : Nat := fld a 0 12 2
def vSat (a : List Byte) : Bool := fldB a 0 14
def vPred (a : List Byte) : Nat := fld a 0 15 3
def vSrc1 (a : List Byte) : Nat := fld a 4 0 20
def vSrc2 (a : List Byte) : Nat := fld a 8 0 20
def vSrc3 (a : List Byte) : Nat := fld a 0xC 0 20
def vDst (a : List Byte) : Nat := fld a 0x10 0 20
def vNum (a : List Byte) : Nat := fld a 0x14 0 18

/-- Listed codes, and a format that the operation has in Table 8. -/
def vecOk (a : List Byte) : Bool :=
  decide (vFmt a ≤ 8) && decide (vPred a ≤ 6) &&
    (match vOp a with
      | 0x20 => decide (3 ≤ vFmt a) && decide (vFmt a ≤ 7)
      | 0x21 => decide (vFmt a ≤ 7)
      | 0x22 => decide (vFmt a ≤ 4)
      | _ => true)

/-- FP32 sources of an operation. -/
def vArity (op : Nat) : Nat :=
  match op with
  | 0 => 2 | 1 => 2 | 2 => 2 | 3 => 3 | 4 => 2 | 5 => 2 | 8 => 2 | 9 => 3 | 0x21 => 0 | 0x32 => 0 | _ => 1

/-- Elements whose bytes fit between an address and the end of the scratchpad: `g` elements to `u` bytes. -/
def roomFor (addr u g : Nat) : Nat := (0x100000 - addr) * g / u

/-- Elements of an operation whose operand extents all fit (row 1 of Table 14). -/
def vecFit (a : List Byte) : Nat :=
  let op := vOp a
  let srcs := ([vSrc1 a, vSrc2 a, vSrc3 a].take (vArity op)).map (fun x => roomFor x 4 1)
  let packed := fun x => roomFor x (elBits (vFmt a)) 8
  let outs := match op with
    | 0x20 => [packed (vDst a)]
    | 0x21 => [packed (vSrc1 a), roomFor (vDst a) 4 1]
    | 0x22 => [packed (vDst a), roomFor (vSrc2 a) 1 32]
    | 0x23 => [roomFor (vDst a) 2 1, roomFor (vSrc2 a) 1 32]
    | 0x30 => [(0x100000 - vDst a) / 4 * 64]
    | 0x31 => [(0x100000 - vDst a) / 4 * 64]
    | _ => [roomFor (vDst a) 4 1]
  (srcs ++ outs).foldl min (2 ^ 18)

/-! ### Lanes -/

/-- An FP32 value of an array, with its poison. -/
def Tile.lane (t : Tile) (addr i : Nat) : Nat × Bool :=
  let d := t.rdN (addr + 4 * i) 4
  (leNat (bytesOf d), anyPsn d)

/-- One lane of an elementwise operation. -/
def vLane (a : List Byte) (x y z : Nat) : Nat × VFlags :=
  match vOp a with
  | 0x00 => fadd x y
  | 0x01 => fsub x y
  | 0x02 => fmul x y
  | 0x03 => ffma x y z
  | 0x04 => fminmax false x y
  | 0x05 => fminmax true x y
  | 0x06 => (fabs x, 0)
  | 0x07 => (fneg x, 0)
  | 0x08 => let (h, f) := fcmp (vPred a) x y; ((Config.cmpLane h).toNat, f)
  | 0x09 => let r := if Config.selTest (BitVec.ofNat 32 x) then y else z; (if isNan (f32 r) then qNaN else r, 0)
  | 0x10 => fexp2 x
  | 0x11 => flog false x
  | 0x12 => frcp x
  | 0x13 => frsqrt x
  | 0x14 => fexp x
  | _ => flog true x

/-- CVT from FP32 to a format code. INT8 beyond the format or special is open (log entry 17). -/
def cvtDown (a : List Byte) (x : Nat) : Nat × VFlags :=
  match fmtOf (vFmt a) with
  | some f => f.packVal (vRnd a) (vSat a) (f32 x)
  | none =>
    let open_ : Nat × VFlags := ((Config.cvtInt8 (BitVec.ofNat 32 x) (vRnd a) (vSat a)).toNat, Config.cvtInt8Flags (BitVec.ofNat 32 x) (vRnd a) (vSat a))
    match f32 x with
    | .fin neg m e =>
      let (k, inx) := roundAt (vRnd a) neg m e 0 false
      if k ≤ (if neg then 128 else 127) then ((if neg then 256 - k else k) % 256, flagIf inx fInexact) else open_
    | _ => open_

/-- CVT to FP32: exact. -/
def cvtUp (code x : Nat) : Nat × VFlags := fFP32.packVal 0 false (elVal code x)

/-- BF16 of a lane that STB stores: exact where BF16 holds the value; else open (log entry 17). -/
def stbEl (x : Nat) : Nat × VFlags :=
  let (c, f) := fBF16.packVal 0 false (f32 x)
  if f &&& fInexact = 0 then (c, f) else ((Config.stbRound (BitVec.ofNat 32 x)).toNat, f)

/-! ### Groups -/

/-- Cut a list into groups of `n`. -/
def chunks {α : Type} (n : Nat) (l : List α) : List (List α) :=
  (List.range ((l.length + n - 1) / n)).map (fun g => (l.drop (n * g)).take n)

/-- One level of the pairwise tree: lanes 2n and 2n + 1; a lane without a partner passes (log entry 78: R52 states groups of 64 only). -/
def pairUp (f : Nat → Nat → Nat × VFlags) : List (Nat × VFlags) → List (Nat × VFlags)
  | x :: y :: l => (let r := f x.1 y.1; (r.1, r.2 ||| x.2 ||| y.2)) :: pairUp f l
  | l => l

/-- A lane as it leaves the unit: a NaN is 0x7FC0_0000, a signalling one having raised invalid (R52). -/
def quieted (x : Nat × VFlags) : Nat × VFlags := if isNan (f32 x.1) then (qNaN, x.2 ||| flagIf (isSig (f32 x.1)) fInvalid) else x

/-- The pairwise tree over a group of at most 64 lanes (R52). -/
def laneTree (f : Nat → Nat → Nat × VFlags) (l : List Nat) : Nat × VFlags :=
  quieted (((List.range 6).foldl (fun r _ => pairUp f r) (l.map (fun x => (x, (0 : VFlags))))).headD (0, 0))

/-- Scale exponent of a QMX group (R53): s, or the scale byte alone for a group that quantises to zeros. -/
def qmxScale (fmt : Nat) (l : List Nat) : Nat × Option Int :=
  let vs := l.map f32
  if vs.any (fun v => match v with | .fin .. => false | _ => true) then (0xFF, none)
  else
    let top := vs.foldl (fun (r : Option Int) v => match v with
      | .fin _ m e => if m = 0 then r else
          let p := e + bitLen m - 1
          some (match r with | none => p | some q => max p q)
      | _ => r) none
    match top with
    | none => (0x7F, none)
    | some p =>
      let q : Int := match fmt with | 0 => 2 | 1 => 2 | 2 => 4 | 3 => 8 | _ => 15
      let s := max (-127) (min 127 (p - q))
      ((s + 127).toNat, some s)

/-- One QMX group: scale byte, codes, flags. -/
def qmxGroup (fmt : Nat) (l : List Nat) : Nat × List Nat × VFlags :=
  let (b, s) := qmxScale fmt l
  let sig := flagIf (l.any (fun x => isSig (f32 x))) fInvalid
  match s with
  | none => (b, l.map (fun _ => 0), sig)
  | some s =>
    let r := l.map (fun x => match f32 x, fmtOf fmt with
      | .fin neg m e, some f => f.pack 0 true neg m (e - s) false
      | _, _ => (0, (0 : VFlags)))
    (b, r.map (fun p => p.1), r.foldl (fun f p => f ||| p.2) sig)

/-- Codes of `w` bits as bytes, in the order of R33; a byte is poisoned when an element in it is. -/
def packCodes (w : Nat) (l : List (Nat × Bool)) : List PB :=
  let v := ((List.range l.length).zip l).foldl (fun r p => r + p.2.1 % 2 ^ w * 2 ^ (w * p.1)) 0
  let n := (l.length * w + 7) / 8
  ((List.range n).zip (leBytes n v)).map (fun p =>
    let lo := 8 * p.1 / w
    (p.2, ((l.drop lo).take ((8 * p.1 + 7) / w - lo + 1)).any (fun e => e.2)))

/-! ### One tile -/

/-- What an operation writes: arrays with their addresses, the vector status, and the element flags it reports. -/
structure VOut where
  arrays : List (Nat × List PB)
  vs     : VFlags
  els    : List EFlags
  deriving DecidableEq, Repr

/-- FP32 lanes written from DST on. -/
def lanesOut (a : List Byte) (l : List ((Nat × VFlags) × Bool)) : VOut :=
  { arrays := [(vDst a, l.flatMap (fun p => (leBytes 4 p.1.1).map (fun b => (b, p.2))))], vs := l.foldl (fun f p => f ||| p.1.2) 0, els := [] }

/-- Codes of `w` bits written from DST on, and after them one byte for each group of 32 from SRC2 on. No rule names the place of the
scale bytes of QMX and the bounds of STB, nor which array prevails where the two overlap: both are log entry 78. -/
def codesOut (a : List Byte) (w : Nat) (l : List (Nat × Bool)) (groups : List (Nat × Bool)) (vs : VFlags) : VOut :=
  { arrays := [(vDst a, packCodes w l)] ++ (if groups = [] then [] else [(vSrc2 a, packCodes 8 groups)]), vs := vs, els := [] }

/-- Element k of the accumulators as ACCRD numbers them: SRC1 / 16 + k of the two banks; past them the read is open (log entry 19). -/
def Tile.accAt (t : Tile) (k : Nat) : Elem :=
  if k < 4096 then t.el k else BitVec.ofNat 128 (leNat ((List.range 16).map (fun i => Config.pastEnd (2 ^ 20 + 16 * k + i))))

/-- One VEC operation over n elements of a tile. -/
def Tile.vec (t : Tile) (a : List Byte) (n : Nat) : VOut :=
  let lanes := (List.range n).map (fun i => t.lane (vSrc1 a) i)
  let ors := fun (l : List VFlags) => l.foldl (fun f g => f ||| g) 0
  match vOp a with
  | 0x20 =>
    let r := lanes.map (fun p => (cvtDown a p.1, p.2))
    codesOut a (elBits (vFmt a)) (r.map (fun p => (p.1.1, p.2))) [] (ors (r.map (fun p => p.1.2)))
  | 0x21 =>
    lanesOut a ((List.range n).map (fun i => let (c, p) := t.elAt (vFmt a) (vSrc1 a) i; (cvtUp (vFmt a) c, p)))
  | 0x22 =>
    let gs := (chunks 32 lanes).map (fun g => (qmxGroup (vFmt a) (g.map (fun p => p.1)), g.any (fun p => p.2)))
    codesOut a (elBits (vFmt a)) (gs.flatMap (fun g => g.1.2.1.map (fun c => (c, g.2)))) (gs.map (fun g => (g.1.1, g.2)))
      (ors (gs.map (fun g => g.1.2.2)))
  | 0x23 =>
    let r := lanes.map (fun p => (stbEl p.1, p.2))
    codesOut a 16 (r.map (fun p => (p.1.1, p.2)))
      ((chunks 32 r).map (fun g => (stbByte (g.map (fun p => fBF16.val p.1.1)), g.any (fun p => p.2)))) (ors (r.map (fun p => p.1.2)))
  | 0x30 => lanesOut a ((chunks 64 lanes).map (fun g => (laneTree (fminmax true) (g.map (fun p => p.1)), g.any (fun p => p.2))))
  | 0x31 => lanesOut a ((chunks 64 lanes).map (fun g => (laneTree fadd (g.map (fun p => p.1)), g.any (fun p => p.2))))
  | 0x32 =>
    let es := (List.range n).map (fun i => t.accAt (vSrc1 a / 16 + i))
    { lanesOut a (es.map (fun x => let (c, p) := convEl fFP32 (vRnd a) false 0 x; ((c, convFlags fFP32 (vRnd a) false 0 x), p))) with els := es.map Elem.flags }
  | op =>
    let y := fun i => if 2 ≤ vArity op then t.lane (vSrc2 a) i else (0, false)
    let z := fun i => if 3 ≤ vArity op then t.lane (vSrc3 a) i else (0, false)
    lanesOut a ((List.range n).map (fun i =>
      let p := t.lane (vSrc1 a) i
      (vLane a p.1 (y i).1 (z i).1, p.2 || (y i).2 || (z i).2)))

/-- A VEC kernel of the named operation, on every tile of its span. -/
def vecEff (vop w : Nat) (s : State) : State :=
  let s := s.arrive w 7 (fun a => vOp a == vop)
  match s.kernel w 7 with
  | none => s
  | some x =>
    let a := x.args
    if vOp a != vop then s
    else if !x.recordsOk || !vecOk a then s.endInvalid w
    else
      let n := min (vNum a) (vecFit a)
      let s := s.clampOnce w (decide (n < vNum a))
      if n = 0 then s.completeAs w 0
      else s.runTiles w (fun s t i =>
        let o := (s.tile i).vec a n
        let (f, k) := reportFlags o.els
        let s := s.modTile i (fun u => { o.arrays.foldl (fun u p => u.wr p.1 p.2) u with vstat := o.vs })
        (s.report w f k o.vs (o.arrays.any (fun p => anyPsn p.2))).tileDone w t)

/-! ### The rows -/

def execVecAdd (w : Nat) (s : State) : Host.Outcome State Fault Refusal := run true (vecEff 0x00 w) s
def execVecSub (w : Nat) (s : State) : Host.Outcome State Fault Refusal := run true (vecEff 0x01 w) s
def execVecMul (w : Nat) (s : State) : Host.Outcome State Fault Refusal := run true (vecEff 0x02 w) s
def execVecFma (w : Nat) (s : State) : Host.Outcome State Fault Refusal := run true (vecEff 0x03 w) s
def execVecMin (w : Nat) (s : State) : Host.Outcome State Fault Refusal := run true (vecEff 0x04 w) s
def execVecMax (w : Nat) (s : State) : Host.Outcome State Fault Refusal := run true (vecEff 0x05 w) s
def execVecAbs (w : Nat) (s : State) : Host.Outcome State Fault Refusal := run true (vecEff 0x06 w) s
def execVecNeg (w : Nat) (s : State) : Host.Outcome State Fault Refusal := run true (vecEff 0x07 w) s
def execVecCmp (w : Nat) (s : State) : Host.Outcome State Fault Refusal := run true (vecEff 0x08 w) s
def execVecSel (w : Nat) (s : State) : Host.Outcome State Fault Refusal := run true (vecEff 0x09 w) s
def execVecExp2 (w : Nat) (s : State) : Host.Outcome State Fault Refusal := run true (vecEff 0x10 w) s
def execVecLog2 (w : Nat) (s : State) : Host.Outcome State Fault Refusal := run true (vecEff 0x11 w) s
def execVecRcp (w : Nat) (s : State) : Host.Outcome State Fault Refusal := run true (vecEff 0x12 w) s
def execVecRsqrt (w : Nat) (s : State) : Host.Outcome State Fault Refusal := run true (vecEff 0x13 w) s
def execVecExp (w : Nat) (s : State) : Host.Outcome State Fault Refusal := run true (vecEff 0x14 w) s
def execVecLn (w : Nat) (s : State) : Host.Outcome State Fault Refusal := run true (vecEff 0x15 w) s
def execCvtDown (w : Nat) (s : State) : Host.Outcome State Fault Refusal := run true (vecEff 0x20 w) s
def execCvtUp (w : Nat) (s : State) : Host.Outcome State Fault Refusal := run true (vecEff 0x21 w) s
def execQmx (w : Nat) (s : State) : Host.Outcome State Fault Refusal := run true (vecEff 0x22 w) s
def execStb (w : Nat) (s : State) : Host.Outcome State Fault Refusal := run true (vecEff 0x23 w) s
def execRmax (w : Nat) (s : State) : Host.Outcome State Fault Refusal := run true (vecEff 0x30 w) s
def execRsum (w : Nat) (s : State) : Host.Outcome State Fault Refusal := run true (vecEff 0x31 w) s
def execAccrd (w : Nat) (s : State) : Host.Outcome State Fault Refusal := run true (vecEff 0x32 w) s

end Sys2Proof.Machine
end

