-- ==== Sys2Proof/Machine/Codec.lean ====
section
/-!
DEFINITION. Machine/Codec.lean: KV region records (R64), the layout of a batt (R60 to R63), compression (R67, R68) and expansion (R69),
and the kernel KVC (R66, R72, R251).
-/
namespace Sys2Proof.Machine

/-! ### Exact values -/

/-- A finite value as an integer at an exponent not above its own. -/
def fxAt (v : FVal) (lo : Int) : Int :=
  match v with
  | .fin s m e => let k : Int := (m * 2 ^ (e - lo).toNat : Nat); if s then -k else k
  | _ => 0

def expOf : FVal → Int
  | .fin _ _ e => e
  | _ => 0

def isFin : FVal → Bool
  | .fin .. => true
  | _ => false

/-- Exact sum of finite values; a value that is not finite gives NaN. -/
def exactAdd (a b : FVal) : FVal :=
  if isFin a && isFin b then
    let lo := min (expOf a) (expOf b)
    let x := fxAt a lo + fxAt b lo
    .fin (decide (x < 0)) x.natAbs lo
  else .nan false

def flipSign : FVal → FVal
  | .nan s => .nan s
  | .inf s => .inf (!s)
  | .fin s m e => .fin (!s) m e

/-- Exact product, times 2^k; a value that is not finite gives NaN. -/
def exactMul (a b : FVal) (k : Int) : FVal :=
  match a, b with
  | .fin s m e, .fin t n g => .fin (s != t) (m * n) (e + g + k)
  | _, _ => .nan false

/-- A finite value over a finite nonzero one, rounded once into a format, saturated. -/
def quotTo (f : Fmt) (rnd : Nat) (sat : Bool) (a b : FVal) : Nat × VFlags :=
  match a, b with
  | .fin s m e, .fin t n g =>
    if n = 0 then (0, 0)
    else f.pack rnd sat (s != t) (m * 2 ^ 64 / n) (e - g - 64) (m * 2 ^ 64 % n != 0)
  | _, _ => (0, 0)

/-- The order of finite values, −0 below +0. -/
def finLt (a b : FVal) : Bool :=
  let lo := min (expOf a) (expOf b)
  let x := fxAt a lo
  let y := fxAt b lo
  decide (x < y) || (x == y && x == 0 && (match a, b with | .fin s _ _, .fin t _ _ => s && !t | _, _ => false))

def finMin (l : List FVal) : FVal := l.tail.foldl (fun r v => if finLt v r then v else r) (l.headD (.fin false 0 0))
def finMax (l : List FVal) : FVal := l.tail.foldl (fun r v => if finLt r v then v else r) (l.headD (.fin false 0 0))

def finAbs : FVal → FVal
  | .fin _ m e => .fin false m e
  | v => v

def isZero : FVal → Bool
  | .fin _ m _ => m == 0
  | _ => false

/-! ### One group (R67 to R69) -/

/-- A compressed group: element bytes or codes, scale, offset, and whether it is a NaN group or a saturated group. -/
structure Group where
  els : List Nat
  scale : Nat
  off : Nat
  nan : Bool
  sat : Bool
  deriving DecidableEq, Repr

def ofInt (n : Nat) : FVal := .fin false n 0

/-- KV8 (R67): `u` is the group, already multiplied by 2^(−σ). -/
def kv8Group (u : List FVal) : Group :=
  if !u.all isFin then { els := u.map (fun _ => 0), scale := 0x7F, off := 0, nan := true, sat := false }
  else
    let a := finMax (u.map finAbs)
    if isZero a then { els := u.map (fun _ => 0), scale := 0, off := 0, nan := false, sat := false }
    else
      let (sc, f) := quotTo fE4M3 2 true a (ofInt 448)
      let r := u.map (fun x => quotTo fE4M3 0 true x (fE4M3.val sc))
      { els := r.map (fun p => p.1), scale := sc, off := 0, nan := false
        sat := f &&& fOverflow != 0 || r.any (fun p => p.2 &&& fOverflow != 0) }

/-- One KV4 code. -/
def kv4Code (x off scale : FVal) : Nat :=
  let d := match exactAdd x (flipSign off) with | .fin s m e => f32 (fFP32.pack 0 false s m e false).1 | v => v
  match d with
  | .fin .. =>
    match f32 (quotTo fFP32 0 false d scale).1 with
    | .fin s m e => if s then 0 else min 15 (roundAt 0 false m e 0 false).1
    | .inf s => if s then 0 else 15
    | .nan _ => 0
  | .inf s => if s then 0 else 15
  | .nan _ => 0

/-- KV4 (R68). -/
def kv4Group (u : List FVal) : Group :=
  if !u.all isFin then { els := u.map (fun _ => 0), scale := 0x7F, off := 0x7F, nan := true, sat := false }
  else
    let (off, f) := match finMin u with | .fin s m e => fE4M3.pack 3 true s m e false | _ => (0, 0)
    let lost := bit off 7 && f &&& fOverflow != 0
    let ov := fE4M3.val off
    match exactAdd (finMax u) (flipSign ov) with
    | .fin s m e =>
      let r := f32 (fFP32.pack 2 false s m e false).1
      if isZero r then { els := u.map (fun _ => 0), scale := 0, off := off, nan := false, sat := lost }
      else
        let (sc, g) := if isFin r then quotTo fE4M3 2 true r (ofInt 15) else (0x7E, fOverflow)
        { els := u.map (fun x => kv4Code x ov (fE4M3.val sc)), scale := sc, off := off, nan := false, sat := lost || g &&& fOverflow != 0 }
    | _ => { els := u.map (fun _ => 0), scale := 0, off := off, nan := false, sat := lost }

/-- An expanded element as BF16 (R69). -/
def bf16Of (v : FVal) : Nat := (fBF16.packVal 0 false v).1

def expand8 (el scale : Nat) (sigma : Int) : Nat := bf16Of (exactMul (fE4M3.val el) (fE4M3.val scale) sigma)

def expand4 (code scale off : Nat) (sigma : Int) : Nat :=
  bf16Of (exactMul (exactAdd (fE4M3.val off) (exactMul (ofInt code) (fE4M3.val scale) 0)) (ofInt 1) sigma)

/-! ### Region records and batts -/

/-- A KV region record (Table 3). -/
structure Region where
  base : Nat
  nb : Nat
  layers : Nat
  heads : Nat
  d : Nat
  kv4 : Bool
  sigma : Int
  deriving DecidableEq, Repr, Inhabited

/-- A record with every value in its range and its RSV fields zero (R64). -/
def parseRegion (r : List Byte) : Option Region :=
  let nb := fld r 8 0 32
  let layers := fld r 12 0 8
  let heads := fld r 13 0 8
  let sg := toSigned 8 (fld r 15 0 8)
  if 1 ≤ nb ∧ nb ≤ 2 ^ 26 ∧ 1 ≤ layers ∧ 1 ≤ heads ∧ heads ≤ 64 ∧ fld r 14 3 5 = 0 ∧ -32 ≤ sg ∧ sg ≤ 31 ∧ fld r 16 0 128 = 0 then
    some { base := alignDown (fld r 0 0 64) 128, nb := nb, layers := layers, heads := heads, d := 64 * (fld r 14 0 2 + 1), kv4 := fldB r 14 2, sigma := sg }
  else none

/-- Bytes of a key or value section. -/
def Region.sec (g : Region) : Nat := if g.kv4 then 34 * g.d else 65 * g.d

/-- Bytes of a batt (Table 2). -/
def Region.batt (g : Region) : Nat := 256 + 2 * g.sec

/-- Virtual address of batt b of KV head h in layer y (R64). -/
def Region.addr (g : Region) (y h b : Nat) : Nat := (g.base + ((y * g.heads + h) * g.nb + b) * g.batt) % 2 ^ 64

/-- Within a section: where the elements, scales and offsets of a slot start (R61, R62). -/
def Region.elOff (g : Region) (t : Nat) : Nat := if g.kv4 then g.d / 2 * t else g.d * t
def Region.scOff (g : Region) (t : Nat) : Nat := (if g.kv4 then 32 * g.d else 64 * g.d) + g.d / 64 * t
def Region.offOff (g : Region) (t : Nat) : Nat := 32 * g.d + g.d + g.d / 64 * t

/-- The writes of one vector of a token into a section, as (offset, bytes). -/
def Region.writes (g : Region) (t : Nat) (gs : List Group) : List (Nat × List Byte) :=
  let els := gs.flatMap (fun x => x.els)
  let codes := if g.kv4 then leBytes (g.d / 2) (((List.range els.length).zip els).foldl (fun r p => r + p.2 * 16 ^ p.1) 0)
    else els.map (fun x => BitVec.ofNat 8 x)
  [(g.elOff t, codes), (g.scOff t, gs.map (fun x => BitVec.ofNat 8 x.scale))] ++
    (if g.kv4 then [(g.offOff t, gs.map (fun x => BitVec.ofNat 8 x.off))] else [])

/-- A slot of a section expanded to BF16, with poison by group (R69, Table 2 of Birier Memory). -/
def Region.expand (g : Region) (sec : List PB) (t : Nat) : List (Nat × Bool) :=
  (List.range (g.d / 64)).flatMap (fun i =>
    let n := if g.kv4 then 32 else 64
    let els := (sec.drop (g.elOff t + n * i)).take n
    let sc := (sec.drop (g.scOff t + i)).take 1
    let of := if g.kv4 then (sec.drop (g.offOff t + i)).take 1 else []
    let bad := anyPsn els || anyPsn sc || anyPsn of
    let s := leNat (bytesOf sc)
    let o := leNat (bytesOf of)
    if g.kv4 then
      els.flatMap (fun p => [(expand4 (p.1.toNat % 16) s o g.sigma, bad), (expand4 (p.1.toNat / 16) s o g.sigma, bad)])
    else els.map (fun p => (expand8 p.1.toNat s g.sigma, bad)))

/-! ### Reading a region record -/

/-- A kernel whose record reads poisoned completes without effect, FAILED with PSNW (R64). -/
def State.endPoisoned (s : State) (w : Nat) : State := (s.modWork w (fun x => { x with psnw := true })).completeAs w 3

/-- Read a record that a kernel names, once, through the port of its tile 0; none when the kernel has stopped or ended. -/
def State.kernelRecord (s : State) (w : Nat) (x : Work) (va n : Nat) : Option (List Byte) × State :=
  match (s.work? w).bind (fun y => y.recs.find va) with
  | some r => (some r, s)
  | none =>
    if s.tileOut w x 0 then (none, s)
    else
      let e := (tileEng x.hood x.ctx (s.siteOf x.hood x.lo) 1 x.ring).of w
      match s.rdVA e va n with
      | (d, s, some y) => (none, s.stopWork w x e y (some 0) !d.isEmpty)
      | (d, s, none) =>
        if anyPsn d then (none, s.endPoisoned w) else (some (bytesOf d), s.modWork w (fun y => { y with recs := y.recs.insert va (bytesOf d) }))

/-! ### KVC -/

/-- Tokens that a KVC writes: cut at slot 63 and below position 0xFFFF_FFFF (Table 14). -/
def kvcTokens (a : List Byte) : Nat := min (fld a 0xB 0 6 + 1) (min (64 - fld a 0xA 0 6) (0xFFFFFFFF - fld a 0x18 0 32))

/-- The value of an FP32 or BF16 source, times 2^(−σ). -/
def kvcValue (fp32 : Bool) (sigma : Int) (c : Nat) : FVal :=
  match (if fp32 then f32 c else fBF16.val c) with
  | .fin s m e => .fin s m (e - sigma)
  | v => v

/-- The d values of a vector in the scratchpad as groups, and whether a source byte is poisoned. -/
def Tile.vector (t : Tile) (g : Region) (fp32 : Bool) (addr : Nat) : List Group × Bool :=
  let s := if fp32 then 4 else 2
  let vs := (List.range g.d).map (fun n => let d := t.rdN (addr + s * n) s; (kvcValue fp32 g.sigma (leNat (bytesOf d)), anyPsn d))
  ((chunks 64 (vs.map (fun p => p.1))).map (fun u => if g.kv4 then kv4Group u else kv8Group u), vs.any (fun p => p.2))

/-- What the writes of a token are: data first, its position word last (R72), with the groups that were NaN or saturated. -/
def Tile.token (t : Tile) (g : Region) (a : List Byte) (i : Nat) : List (Nat × List PB) × Nat × Nat :=
  let fp32 := fldB a 0xB 6
  let st := g.d * (if fp32 then 4 else 2)
  let slot := fld a 0xA 0 6 + i
  let (k, p) := t.vector g fp32 (a32 a 0x10 + i * st)
  let (v, q) := t.vector g fp32 (a32 a 0x14 + i * st)
  let psn := p || q
  let data := (g.writes slot k).map (fun w => (256 + w.1, w.2.map (fun b => (b, psn)))) ++
    (g.writes slot v).map (fun w => (256 + g.sec + w.1, w.2.map (fun b => (b, psn))))
  (data ++ [(4 * slot, clean (leBytes 4 (fld a 0x18 0 32 + i)))], ((k ++ v).filter (fun x => x.nan)).length, ((k ++ v).filter (fun x => x.sat)).length)

/-- Make the writes of a token that are left: `k` are already made. Of a write that stops: whether bytes before the place have completed. -/
def kvcWrites (e : Eng) (w t va : Nat) : List (Nat × List PB) → Nat → State → State × Option (Stop × Bool)
  | [], _, s => (s, none)
  | q :: l, k, s =>
    let pos := ((s.work? w).map (fun y => (y.prog.find t).getD 0)).getD 0
    if k < pos then kvcWrites e w t va l (k + 1) s
    else
      match s.wrVA e (va + q.1) q.2 with
      | (_, s, none) => kvcWrites e w t va l (k + 1) (s.modWork w (fun x => { x with prog := x.prog.insert t (k + 1), psnw := x.psnw || anyPsn q.2 }))
      | (k, s, some y) => (s, some (y, decide (0 < k)))

/-- The tokens of one tile. -/
def kvcTokensFrom (e : Eng) (w t va : Nat) (tile : Tile) (g : Region) (a : List Byte) (h : Nat) : List Nat → Nat → State → State × Option (Stop × Bool)
  | [], _, s => (s, none)
  | i :: l, k, s =>
    let (ws, nan, sat) := tile.token g a i
    let pos := ((s.work? w).map (fun y => (y.prog.find t).getD 0)).getD 0
    if k + ws.length ≤ pos then kvcTokensFrom e w t va tile g a h l (k + ws.length) s
    else
      match kvcWrites e w t va ws k s with
      | (s, none) => kvcTokensFrom e w t va tile g a h l (k + ws.length) ((s.countReg rMEM_KV_NAN h nan).countReg rMEM_KV_SAT h sat)
      | r => r

/-- One tile of a KVC: the KV head HEAD + t. -/
def kvcTile (w : Nat) (x : Work) (g : Region) (n : Nat) (s : State) (t i : Nat) : State :=
  let a := x.args
  let h := fld a 9 0 6 + t
  let e := (tileEng x.hood x.ctx i 1 x.ring).of w
  if g.heads ≤ h then s.tileDone w t
  else
    match kvcTokensFrom e w t (g.addr (fld a 8 0 8) h (fld a 0xC 0 32)) (s.tile i) g a x.hood (List.range n) 0 s with
    | (s, none) => s.tileDone w t
    | (s, some (y, str)) => s.stopWork w x e y (some t) str

/-- KVC: compress the tokens of each tile into a batt. Tokens and heads past the buffer are cut (row 1 of Table 14). -/
def kvcEff (w : Nat) (s : State) : State :=
  let s := s.arrive w 6 (fun _ => true)
  match s.kernel w 6 with
  | none => s
  | some x =>
    let a := x.args
    if !x.recordsOk then s.endInvalid w
    else if x.cnt = 0 then s.kernelEnd w
    else
      match s.kernelRecord w x (fld a 0 0 64) 32 with
      | (none, s) => s
      | (some r, s) =>
        match parseRegion r with
        | none => s.endInvalid w
        | some g =>
          if g.layers ≤ fld a 8 0 8 || g.nb ≤ fld a 0xC 0 32 then s.endInvalid w
          else
            let n := kvcTokens a
            let s := s.clampOnce w (decide (n < fld a 0xB 0 6 + 1) || decide (g.heads < fld a 9 0 6 + x.cnt))
            if n = 0 || g.heads ≤ fld a 9 0 6 then s.completeAs w 0
            else s.runTiles w (kvcTile w x g n)

def execKvc (w : Nat) (s : State) : Host.Outcome State Fault Refusal := run true (kvcEff w) s

end Sys2Proof.Machine
end

