-- ==== Sys2Proof/Machine/Attn.lean ====
section
/-!
DEFINITION. Machine/Attn.lean: the attention sequence (R74 to R78, R83), ring records and the kernel KVRING (R84, R85), and the rotation
of pieces (R86 to R89). The spec does not say where in the tile the row states lie: they are kept in `Tile.attn` (log entry 28).
-/
namespace Sys2Proof.Machine

/-! ### Row states -/

def negInf32 : Nat := 0xFF800000
def posOne32 : Nat := 0x3F800000

/-- The state never holds −0 (R76; log entry 76): a zero is stored as +0. -/
def plusZero (v : Nat) : Nat := if v = 0x80000000 then 0 else v

/-- The state a row starts from (R75). -/
def rowInit (d : Nat) : RowSt := { m := negInf32, l := 0, o := List.replicate d 0, bad := false }

/-- Merge two partial states (R83); a merge with an empty partial changes no bit of the other. -/
def mergeRow (a b : RowSt) : RowSt × VFlags :=
  let (m, f0) := fminmax true a.m b.m
  if m = negInf32 && !isNan (f32 a.l) && !isNan (f32 b.l) then ({ rowInit a.o.length with bad := a.bad || b.bad }, f0)
  else
    let e := fun (v : Nat) => let (d, f) := fsub v m; let (x, g) := fexp2 d; (x, f ||| g)
    let (x, f1) := e a.m
    let (y, f2) := e b.m
    let mix := fun (p q : Nat) => let (u, f) := fmul p x; let (v, g) := ffma q y u; (v, f ||| g)
    let (l, f3) := mix a.l b.l
    let o := (a.o.zip b.o).map (fun p => mix p.1 p.2)
    ({ m := plusZero m, l := plusZero l, o := o.map (fun p => plusZero p.1), bad := a.bad || b.bad }, o.foldl (fun f p => f ||| p.2) (f0 ||| f1 ||| f2 ||| f3))

/-- Merge the row lists of two partials. -/
def mergeRows (a b : List RowSt × VFlags) : List RowSt × VFlags :=
  let r := (a.1.zip b.1).map (fun p => mergeRow p.1 p.2)
  (r.map (fun p => p.1), r.foldl (fun f p => f ||| p.2) (a.2 ||| b.2))

/-- One level of the tree merge: entries 2n and 2n + 1; an unpaired last entry passes. -/
def mergeLevel : List (List RowSt × VFlags) → List (List RowSt × VFlags)
  | a :: b :: l => mergeRows a b :: mergeLevel l
  | l => l

/-- The tree merge of an ordered list (R83). -/
def treeMerge : Nat → List (List RowSt × VFlags) → List RowSt × VFlags
  | 0, l => l.headD ([], 0)
  | k + 1, l => treeMerge k (mergeLevel l)

/-! ### One batt (R75, R76) -/

/-- An expanded batt: positions, keys and values by slot as BF16 with poison. -/
structure BattX where
  hbad : Bool
  pos : List Nat
  k : List (List (Nat × Bool))
  v : List (List (Nat × Bool))
  deriving DecidableEq, Repr

/-- Blocks of 32 elements as operands, with their own bounds (R35). -/
def bfBlocks (l : List (Nat × Bool)) : List (Nat × List Opnd) :=
  (chunks 32 l).map (fun c =>
    let b := stbByte (c.map (fun p => fBF16.val p.1))
    (b, c.map (fun p => { v := fBF16.val p.1, s := 0, nanS := b == 255, ovf := false, psn := p.2 })))

def maxBound (l : List (Nat × List Opnd)) : Int := maxScale (l.map (fun p => BitVec.ofNat 8 p.1))

/-- One element of a BF16 product in global mode. -/
def bfDot (sa sb : Int) (l : List (Opnd × Opnd)) : Elem :=
  let lam := lamFor 7 7 (sa + sb)
  let (w, f) := macAll lam (0, 0) l
  mkElem f (anchorOf lam) w

/-- A query row as the engine sees it, with its bounds (R253). -/
structure QRow where
  mx : Int
  q : List Opnd
  pos : Nat
  deriving DecidableEq, Repr

/-- Bound byte of a block of slots: over the slots that are unmasked for the row; 0 where all are masked (R76). -/
def maskBound (l : List (Bool × Opnd)) : Nat := stbByte ((l.filter (fun p => p.1)).map (fun p => p.2.v))

/-- What a batt does to one row: its new state, the vector status, and the flags of the elements converted. -/
def rowBatt (c : Nat) (b : BattX) (q : QRow) (st : RowSt) : RowSt × VFlags × List EFlags :=
  let on := b.pos.map (fun p => b.hbad || (p != 0xFFFFFFFF && decide (p ≤ q.pos)))
  let sc := (on.zip b.k).map (fun p =>
    if p.1 then
      let kb := bfBlocks p.2
      let el := bfDot q.mx (maxBound kb) (q.q.zip (kb.flatMap (fun x => x.2)))
      let (v, psn) := fp32El el
      let (s, f) := fmul v c
      (s, f ||| convFlags fFP32 0 true 0 el, some el.flags, psn)
    else (negInf32, 0, none, false))
  let s := sc.map (fun x => x.1)
  let f0 := sc.foldl (fun f x => f ||| x.2.1) 0
  let (mx, f1) := laneTree (fminmax true) s
  let (mn, f2) := fminmax true st.m mx
  let weight := fun (x : Nat) =>
    if mn = negInf32 && !isNan (f32 x) then (0, (0 : VFlags))
    else
      let (d, f) := fsub x mn
      let (e, g) := fexp2 d
      let (p, h) := fBF16.packVal 0 false (f32 e)
      (p, f ||| g ||| h)
  let pw := s.map weight
  let p := pw.map (fun x => x.1)
  let (corr, f3) := if mn = negInf32 then (posOne32, 0) else let (d, f) := fsub st.m mn; let (e, g) := fexp2 d; (e, f ||| g)
  let (rs, f4) := laneTree fadd (p.map (fun x => x * 2 ^ 16))
  let (l, f5) := ffma st.l corr rs
  let pb := bfBlocks (p.map (fun x => (x, false)))
  let pv := (List.range st.o.length).map (fun e =>
    let col : List (Bool × Opnd) := (on.zip b.v).map (fun y => let x := y.2.getD e (0, false)
      (y.1, { v := fBF16.val x.1, s := 0, nanS := false, ovf := false, psn := x.2 }))
    let vb := (chunks 32 col).map (fun k => (maskBound k, k))
    let ops := vb.flatMap (fun k => k.2.map (fun y => (y.1, { y.2 with nanS := k.1 == 255 })))
    let pairs := ((pb.flatMap (fun x => x.2)).zip ops).filter (fun y => y.2.1)
    bfDot (maxBound pb) (maxScale (vb.map (fun k => BitVec.ofNat 8 k.1))) (pairs.map (fun y => (y.1, y.2.2))))
  let os := (st.o.zip pv).map (fun y => let (v, psn) := fp32El y.2; let (o, f) := ffma y.1 corr v; (o, f ||| convFlags fFP32 0 true 0 y.2, psn))
  let bad := st.bad || sc.any (fun x => x.2.2.2) || os.any (fun x => x.2.2)
  ({ m := plusZero mn, l := plusZero l, o := os.map (fun x => plusZero x.1), bad := bad },
   os.foldl (fun f x => f ||| x.2.1) (pw.foldl (fun f x => f ||| x.2) (f0 ||| f1 ||| f2 ||| f3 ||| f4 ||| f5)),
   sc.filterMap (fun x => x.2.2.1) ++ pv.map Elem.flags)

/-- A batt on every row of the pass. -/
def rowsBatt (c : Nat) (b : BattX) (qs : List QRow) (st : List RowSt) : List RowSt × VFlags × List EFlags :=
  let r := (qs.zip st).map (fun p => rowBatt c b p.1 p.2)
  (r.map (fun x => x.1), r.foldl (fun f x => f ||| x.2.1) 0, r.flatMap (fun x => x.2.2))

/-! ### Parameters of a kernel (R253) -/

def atRows (a : List Byte) : Nat := fld a 0 0 5 + 1
def atSpan (a : List Byte) : Bool := fldB a 0 5
def atRing (a : List Byte) : Nat := fld a 0 6 2
def atOut (a : List Byte) : Nat := fld a 0 8 2
def atW (a : List Byte) : Nat := fld a 4 0 12 + 1
def atLayer (a : List Byte) : Nat := fld a 6 0 8
def atHead (a : List Byte) : Nat := fld a 7 0 6
def atC (a : List Byte) : Nat := fld a 8 0 32
def atQpos (a : List Byte) (r : Nat) : Nat := fld a (0x40 + 4 * r) 0 32

/-- Values that R74 and R253 accept. -/
def attnOk (a : List Byte) : Bool :=
  decide (atRing a ≤ 2) && decide (atOut a ≤ 2) && isFin (f32 (atC a)) && (atRing a != 1 || !atSpan a) && (atRing a != 2 || atSpan a)
  && (List.range (atRows a)).all (fun r => atQpos a r != 0xFFFFFFFF)

/-- The query rows in a scratchpad. -/
def Tile.qRows (t : Tile) (a : List Byte) (d : Nat) : List QRow :=
  let sd : Side := { f := 7, base := a32 a 0x20, scl := some (a32 a 0x24), k0 := 0, k1 := d / 32, kd := d / 32, localMode := false }
  (List.range (atRows a)).map (fun r =>
    { mx := t.sideMax sd r, q := (List.range (d / 32)).flatMap (fun kb => t.block sd r kb), pos := atQpos a r })

/-- One finished row in the output format (R77): bytes, and whether it is empty. -/
def rowOut (fmt : Nat) (r : RowSt) : List PB × VFlags × Bool :=
  let f := match fmt with | 0 => fFP32 | 1 => fBF16 | _ => fE4M3
  let n := match fmt with | 0 => 4 | 1 => 2 | _ => 1
  if valKey r.l = 0 && !isNan (f32 r.l) then (r.o.flatMap (fun _ => (leBytes n 0).map (fun b => (b, r.bad))), 0, true)
  else
    let (i, f0) := frcp r.l
    let es := r.o.map (fun o => let (v, g) := fmul o i; let (c, h) := f.packVal 0 true (f32 v); (c, g ||| h))
    (es.flatMap (fun p => (leBytes n p.1).map (fun b => (b, r.bad))), es.foldl (fun g p => g ||| p.2) f0, false)

/-- Write the rows of a pass from OADDR on: the tile, vector status, empty rows, poison. -/
def Tile.attnOut (t : Tile) (a : List Byte) (rows : List RowSt) : Tile × VFlags × BitVec 32 × Bool :=
  let os := rows.map (rowOut (atOut a))
  (t.wr (a32 a 0x28) (os.flatMap (fun o => o.1)), os.foldl (fun f o => f ||| o.2.1) 0,
   BitVec.ofNat 32 (maskOf ((List.range os.length).filter (fun r => ((os.getD r ([], 0, false)).2.2)))), rows.any (fun r => r.bad))

/-- The sequence has run in the matrix and vector units: what it leaves there is open (log entry 28). -/
def Tile.attnLeave (t : Tile) (seed n : Nat) : Tile :=
  { t with acc := (List.range 4096).foldl (fun m k => m.put (fun _ => 0) k (Config.attnLeft seed (8192 * n + k))) t.acc
           vregs := (List.range 2048).foldl (fun m k => m.put (fun _ => 0) k ((Config.attnLeft seed (8192 * n + 4096 + k)).setWidth 32)) t.vregs }

/-! ### Ring records (R84) and rotation -/

/-- A ring record with every value in its range, its RSV fields zero, and its links in the hood's block. -/
def parseRing (r : List Byte) (blockLinks : BitVec 40) : Option Rot :=
  let n := fld r 0 0 8
  let links := BitVec.ofNat 40 (fld r 8 0 40)
  let slotb := fld r 32 0 32
  let rsv := fld r 2 12 4 + fld r 4 12 4 + fld r 6 0 16 + fld r 8 40 24 + fld r 36 0 32 + fld r 48 0 128
  let oneDie := links.toNat / 2 ^ 20 = 0 ∨ links.toNat % 2 ^ 20 = 0
  if 1 ≤ n ∧ n ≤ 64 ∧ fld r 1 0 8 < n ∧ rsv = 0 ∧ links ≠ 0 ∧ links &&& blockLinks = links ∧ oneDie ∧ fld r 16 0 64 % 128 = 0 ∧
      fld r 24 0 64 % 128 = 0 ∧ slotb % 128 = 0 ∧ 128 ≤ slotb ∧ slotb ≤ 2 ^ 27 then
    some { n := n, pos := fld r 1 0 8, next := fld r 2 0 12, prev := fld r 4 0 12, links := links, slot0 := fld r 16 0 64, slot1 := fld r 24 0 64
           slotb := slotb, region := fld r 40 0 64 }
  else none

/-- The engine that serves a ring set up by a context. -/
def State.ringEng (s : State) (h c va : Nat) : Option Nat :=
  (s.rots.find? (fun e => e.2.hood == h + 1 && e.2.ctx == c && e.2.recVa == va)).map (fun e => e.1)

/-! ### Pieces (R86)

A layer's batts of one origin, head after head, are a run of bytes; a piece is the part of it that one slot takes: whole batts, or, where SLOTB is
below one batt, a part of one. A piece is named by the round of attention, the ring position of its origin and its number (log entry 29). -/

def pieceCode (round origin i : Nat) : Nat := (round * 64 + origin) * 2 ^ 64 + i
def pieceRound (c : Nat) : Nat := c / 2 ^ 64 / 64
def pieceOrigin (c : Nat) : Nat := c / 2 ^ 64 % 64
def pieceNo (c : Nat) : Nat := c % 2 ^ 64

/-- Whole batts of a piece. -/
def Rot.perPiece (k : Rot) (g : Region) : Nat := k.slotb / g.batt

/-- Pieces that one batt takes where a slot is smaller than it. -/
def Rot.cuts (k : Rot) (g : Region) : Nat := if k.slotb = 0 then 1 else (g.batt + k.slotb - 1) / k.slotb

/-- Pieces of one origin for a layer. -/
def Rot.pieces (k : Rot) (g : Region) : Nat :=
  let q := k.perPiece g
  if q = 0 then g.heads * g.nb * k.cuts g else (g.heads * g.nb + q - 1) / q

/-- Where a piece lies in its origin's run of bytes: first byte and length. -/
def Rot.place (k : Rot) (g : Region) (i : Nat) : Nat × Nat :=
  let q := k.perPiece g
  if q = 0 then
    let m := k.cuts g
    let lo := i % m * k.slotb
    (i / m * g.batt + lo, min k.slotb (g.batt - lo))
  else (i * q * g.batt, min (q * g.batt) (g.heads * g.nb * g.batt - i * q * g.batt))

/-- Is NEXT the origin of a piece? Such a piece is not forwarded. -/
def Rot.atEnd (k : Rot) (c : Nat) : Bool := pieceOrigin c == (k.pos + 1) % k.n

/-- The slot address of a landed piece. -/
def Rot.slotOf (k : Rot) (c : Nat) : Option Nat := (k.full.find? (fun x => x.2.1 == c)).map (fun x => if x.1 = 0 then k.slot0 else k.slot1)

/-- KV heads whose batts a piece holds. -/
def Rot.pieceHeads (k : Rot) (g : Region) (c : Nat) : List Nat :=
  let (lo, n) := k.place g (pieceNo c)
  (List.range g.heads).filter (fun h => overlaps lo n (h * g.nb * g.batt) (g.nb * g.batt))

/-- Has the attention sequence consumed a landed piece: every head that has batts in it (log entry 29)? -/
def Rot.consumed (k : Rot) (g : Region) (c : Nat) : Bool := (k.pieceHeads g c).all ((k.cons.find c).getD []).contains

/-- Return a credit to PREV for each slot that is free now: its piece is consumed and, unless NEXT is the origin, forwarded (R86). -/
def State.freeSlotsOf (s : State) (e : Nat) (g : Region) : State :=
  let k := s.rot e
  let done := k.full.filter (fun p => k.consumed g p.2.1 && !k.todo.contains p.2.1)
  let s := s.modRot e (fun k => { k with
    full := k.full.filter (fun p => !done.contains p), cons := k.cons.dropIf (fun c => done.any (fun p => p.2.1 == c)) })
  done.foldl (fun s _ => s.stlSend (e / 8) k.prev (some (k.hood - 1)) (.credit e)) s

/-- The rotation engine at its translation unit: static high priority, charged to KV (R112, R313). -/
def rotEng (k : Rot) (e : Nat) : Eng := { hood := k.hood - 1, ctx := k.ctx, loc := 129 + e / 8, cls := 1, kind := 2, num := e }

/-- A fault of the engine that is not yet answered. -/
def State.rotFault (s : State) (e : Nat) : Bool := (s.hood ((s.rot e).hood - 1)).faults.any (fun f => f.cls == 2 && f.eng == e)

/-- A rotation engine stops: a fault stops the piece and counts as a stall (R121); a page of the host is asked for. -/
def State.rotStop (s : State) (e : Nat) (y : Stop) : State :=
  let k := s.rot e
  match y with
  | .fault .. => (s.raiseFault (rotEng k e) y false true none none 0 none none).countReg rSTL_ROT_STALL e 1
  | _ => s.askAts (rotEng k e) y none

/-- Attention kernels that wait for a piece or a partial state of a ring go on. -/
def State.wakeAttn (s : State) (k : Rot) : State :=
  (s.worksOf (fun x => x.kind == 1 && x.op == 8 && x.phase == .waiting && x.hood + 1 == k.hood && x.ctx == k.ctx && fld x.args 0x18 0 64 == k.recVa)).foldl
    (fun s p => { s.modWork p.1 (fun x => { x with phase := .started }) with waits := s.waits.filter (fun q => q.work != p.1) }) s

/-- Land a piece in a receive slot (R86): it is now wholly present, and goes on to NEXT. A line that was sent poisoned is written poisoned (R100). -/
def State.land (s : State) (e slot code : Nat) (data : List Byte) (psn : List Nat) : State :=
  let k := s.rot e
  match s.wrVA (rotEng k e) (if slot = 0 then k.slot0 else k.slot1) (((List.range data.length).zip data).map (fun p => (p.2, psn.contains (p.1 / 64)))) with
  | (_, s, none) =>
    (s.modRot e (fun k => { k with
      full := k.full ++ [(slot, code, data.length)], part := none, stage := k.stage.filter (fun p => p.code != code)
      todo := if k.atEnd code then k.todo else k.todo ++ [code] })).wakeAttn k
  | (_, s, some y) => (s.modRot e (fun k => { k with part := some (slot, code, data, psn) })).rotStop e y

/-- The bytes of a piece from its parts, each at its own offset; none where a part is missing. -/
def joinParts : Nat → Nat → List PiecePart → Option (List Byte × List Nat)
  | 0, _, _ => none
  | n + 1, off, l =>
    match l.find? (fun p => p.off == off && !p.data.isEmpty) with
    | some p => (match joinParts n (off + p.data.length) l with
      | some (d, z) => some (p.data ++ d, p.psn.map (· + off / 64) ++ z)
      | none => none)
    | none => if l.any (fun p => decide (off < p.off + p.data.length)) then none else some ([], [])

/-- PIECE_LANDED (R86): a piece lands in a free slot of an engine that serves a ring. Its bytes are those of the messages that brought it; one that no
message brought carries its own (log entry 48). -/
def landedEff (e slot code : Nat) (data : List Byte) (psn : List Nat) (s : State) : State :=
  let k := s.rot e
  let ps := k.stage.filter (fun p => p.code == code)
  match (if ps.isEmpty then some (data, psn) else joinParts (ps.length + 1) 0 ps) with
  | none => s
  | some (data, psn) =>
    if k.hood = 0 || k.stopped || k.part.isSome || 2 ≤ slot || k.full.any (fun p => p.1 == slot || p.2.1 == code) || data = [] || k.slotb < data.length ||
        k.n ≤ pieceOrigin code || pieceOrigin code == k.pos then s
    else s.land e slot code data psn

def execPieceLanded (engine : Nat) (spot : Landing) (data : List Byte) (psn : List Nat) (s : State) : Host.Outcome State Fault Refusal :=
  run (decide (engine < 16)) (landedEff engine spot.slot spot.code data psn) s

/-- The engine of a ring that a message of another member concerns: it came from PREV, or a credit from NEXT. The bodies are not laid out (log entry
81): of several rings between two packages it is the one with the sender's engine number in its link die. -/
def State.ringOf (s : State) (pkg e : Nat) (credit : Bool) : Option Nat :=
  let c := s.rots.filter (fun r => r.2.hood != 0 && (if credit then r.2.next else r.2.prev) == pkg)
  ((c.find? (fun r => r.1 % 8 == e % 8)).orElse (fun _ => c.head?)).map (fun r => r.1)

/-- A part of a piece arrives in a message. -/
def State.rotPart (s : State) (e code off : Nat) (data : List Byte) (psn : List Nat) : State :=
  s.modRot e (fun k => if k.stopped then k else { k with stage := k.stage ++ [{ code := code, off := off, data := data, psn := psn }] })

/-- A credit from NEXT: at most two are held. -/
def State.rotCredit (s : State) (e : Nat) : State := s.modRot e (fun k => if k.hood = 0 then k else { k with cred := min 2 (k.cred + 1) })

/-- The region record that the ring names, as the engine reads it. -/
def State.ringRegion (s : State) (e : Nat) : Option Region × State :=
  let k := s.rot e
  match s.rdVA (rotEng k e) k.region 32 with
  | (d, s, none) => (if anyPsn d then none else parseRegion (bytesOf d), s)
  | (_, s, some y) => (none, s.rotStop e y)

/-- Messages of at most 4,096 bytes for a piece, each with its offset; a poisoned line is sent marked (R100). They take the links of LINKS (R84). -/
def State.sendPiece (s : State) (e slot code : Nat) (d : List PB) : State :=
  let k := s.rot e
  let cs := chunks 4096 d
  ((List.range cs.length).zip cs).foldl (fun s c => s.stlSend (e / 8) k.next (some (k.hood - 1)) (.piece e slot code (4096 * c.1) (bytesOf c.2)
    ((List.range 64).filter (fun i => anyPsn ((c.2.drop (64 * i)).take 64))))) s

/-- PIECE_SEND (R86): the engine sends the next piece that is wholly present, of its own origin or landed, when it holds a credit. A piece that waits
to land is tried first. -/
def sendEff (e : Nat) (s : State) : State :=
  let k := s.rot e
  if k.hood = 0 || k.stopped || s.rotFault e then s
  else
    let s := match k.part with | some (slot, c, d, z) => s.land e slot c d z | none => s
    let k := s.rot e
    if k.cred = 0 || s.rotFault e then s
    else
      match k.todo with
      | [] => s
      | c :: rest =>
        match s.ringRegion e with
        | (none, s) => s
        | (some g, s) =>
          let src : Option (Nat × Nat) :=
            if pieceOrigin c = k.pos then
              let (lo, n) := k.place g (pieceNo c)
              some (g.addr ((k.rounds[pieceRound c]?).getD (0, 0)).1 0 0 + lo, n)
            else (k.full.find? (fun x => x.2.1 == c)).map (fun x => (if x.1 = 0 then k.slot0 else k.slot1, x.2.2))
          match src with
          | none => s.modRot e (fun k => { k with todo := rest })
          | some (va, n) =>
            match s.rdVA (rotEng k e) va n with
            | (d, s, none) =>
              let s := s.sendPiece e (k.sent % 2) c d
              (s.modRot e (fun k => { k with cred := k.cred - 1, sent := k.sent + 1, todo := rest })).freeSlotsOf e g
            | (_, s, some y) => s.rotStop e y

def execPieceSend (engine : Nat) (s : State) : Host.Outcome State Fault Refusal := run (decide (engine < 16)) (sendEff engine) s

/-! ### KVRING -/

/-- The record that KVRING names. -/
def kvringVa (a : List Byte) : Nat := fld a 8 0 64

/-- KVRING with ACT 0 (R84, R85): a valid record takes a free engine of the link die that its links name; with none free it FAILS. -/
def ringUpEff (w : Nat) (s : State) : State :=
  let s := s.arrive w 9 (fun a => !fldB a 0 0)
  match s.kernel w 9 with
  | none => s
  | some x =>
    if fldB x.args 0 0 then s
    else if !x.recordsOk then s.endInvalid w
    else if x.cnt = 0 then s.kernelEnd w
    else
      match s.kernelRecord w x (kvringVa x.args) 64 with
      | (none, s) => s
      | (some r, s) =>
        match parseRing r (s.hood x.hood).block.links with
        | none => s.endInvalid w
        | some k =>
          let die := if k.links.toNat % 2 ^ 20 = 0 then 1 else 0
          match (List.range 8).find? (fun n => (s.rot (8 * die + n)).hood == 0) with
          | none => s.completeAs w 3
          | some n =>
            let s := s.modRot (8 * die + n) (fun _ => { k with hood := x.hood + 1, ctx := x.ctx, recVa := kvringVa x.args })
            let s := ((s.rewatch k.next).rewatch k.prev).associate die k.next x.hood
            (s.associate die k.prev x.hood).runTiles w (fun s t _ => s.tileDone w t)

def execKvringSetUp (w : Nat) (s : State) : Host.Outcome State Fault Refusal := run true (ringUpEff w) s

/-- KVRING with ACT 1: the engine of the ring is released (R85); one that is not set up has nothing to release. -/
def ringDownEff (w : Nat) (s : State) : State :=
  let s := s.arrive w 9 (fun a => fldB a 0 0)
  match s.kernel w 9 with
  | none => s
  | some x =>
    if !fldB x.args 0 0 then s
    else if !x.recordsOk then s.endInvalid w
    else
      let s := match s.ringEng x.hood x.ctx (kvringVa x.args) with | some e => s.freeRot e | none => s
      s.runTiles w (fun s t _ => s.tileDone w t)

def execKvringTearDown (w : Nat) (s : State) : Host.Outcome State Fault Refusal := run true (ringDownEff w) s

/-! ### ATTN -/

/-- What an ATTN kernel works with. -/
structure AttnP where
  g : Region
  n : Nat                           -- members of the ring; 1 without rotation
  pos : Nat
  eng : Option Nat
  round : Nat
  deriving DecidableEq, Repr

/-- Batts that a tile consumes (R78, R87, R253): all of them, of every member in turn, or its spans'. -/
def attnItems (a : List Byte) (p : AttnP) (cnt t : Nat) : Nat :=
  if atSpan a then
    let w := atW a
    let spans := (p.g.nb + w - 1) / w
    ((List.range spans).filter (fun i => i % cnt == t)).foldl (fun r i => r + min w (p.g.nb - i * w)) 0
  else p.g.nb * p.n

/-- Where the bytes of batt number i of a tile lie, part after part: an address, none while its piece has not landed, and a length. -/
def State.attnSegs (s : State) (a : List Byte) (p : AttnP) (cnt t i : Nat) : List (Option Nat × Nat) :=
  let g := p.g
  if atSpan a then [(some (g.addr (atLayer a) (atHead a) ((t + cnt * (i / atW a)) * atW a + i % atW a)), g.batt)]
  else if i < g.nb then [(some (g.addr (atLayer a) (atHead a) i), g.batt)]
  else
    match p.eng with
    | none => [(none, g.batt)]
    | some e =>
      let k := s.rot e
      let q := k.perPiece g
      let b := atHead a * g.nb + i % g.nb
      let code := pieceCode p.round ((p.pos + p.n - i / g.nb) % p.n)
      if q = 0 then (List.range (k.cuts g)).map (fun j => (k.slotOf (code (b * k.cuts g + j)), (k.place g j).2))
      else [((k.slotOf (code (b / q))).map (fun v => v + b % q * g.batt), g.batt)]

/-- The greatest position of the pass. -/
def atMaxPos (a : List Byte) : Nat := ((List.range (atRows a)).map (atQpos a)).foldl max 0

/-- Is a batt skipped after its header (R76)? -/
def battSkips (h : List PB) (maxPos : Nat) : Bool :=
  !anyPsn h && ((List.range 64).map (fun t => leNat (bytesOf ((h.drop (4 * t)).take 4)))).all (fun p => p == 0xFFFFFFFF || decide (maxPos < p))

/-- A batt expanded (R66, R69): its header and its two sections. -/
def Region.battX (g : Region) (h d : List PB) : BattX :=
  let hbad := anyPsn h
  let sec := fun (l : List PB) => (List.range 64).map (fun t => (g.expand l t).map (fun p => (p.1, p.2 || hbad)))
  { hbad := hbad, pos := (List.range 64).map (fun t => leNat (bytesOf ((h.drop (4 * t)).take 4))), k := sec (d.take g.sec), v := sec (d.drop g.sec) }

/-- Read and expand a batt that lies in one place: none where it is skipped. Of a stop: whether bytes of the access before its place have completed. -/
def State.readBatt (s : State) (e : Eng) (g : Region) (va maxPos : Nat) : Option BattX × State × Option (Stop × Bool) :=
  match s.rdVA e va 256 with
  | (d, s, some y) => (none, s, some (y, !d.isEmpty))
  | (h, s, none) =>
    if battSkips h maxPos then (none, s, none)
    else
      match s.rdVA e (va + 256) (2 * g.sec) with
      | (d, s, some y) => (none, s, some (y, !d.isEmpty))
      | (d, s, none) => (some (g.battX h d), s, none)

/-- Gather a batt that comes in several pieces: what stopped it, or that a piece is missing. -/
def gatherBatt (e : Eng) (i0 : Nat) : List (Option Nat × Nat) → Nat → State → State × Option (Stop × Bool) × Bool
  | [], _, s => (s, none, false)
  | (v, n) :: l, off, s =>
    if off + n ≤ (s.tile i0).part.length then gatherBatt e i0 l (off + n) s
    else
      match v with
      | none => (s, none, true)
      | some va =>
        match s.rdVA e va n with
        | (d, s, none) => gatherBatt e i0 l (off + n) (s.modTile i0 (fun u => { u with part := u.part ++ d }))
        | (d, s, some y) => (s, some (y, !d.isEmpty), false)

/-! #### Delivery to the scratchpad (R66) -/

/-- The arrays of an expanded batt: keys by slot, their bounds, values by head dimension, their bounds, and the positions. -/
def Region.arrays (g : Region) (b : BattX) : List (List PB) :=
  let two := fun (l : List (Nat × Bool)) => l.flatMap (fun p => (leBytes 2 p.1).map (fun x => (x, p.2)))
  let bounds := fun (l : List (Nat × Bool)) => (bfBlocks l).map (fun k => (BitVec.ofNat 8 k.1, l.any (fun p => p.2)))
  let cols := (List.range g.d).map (fun e => b.v.map (fun r => r.getD e (0, false)))
  [b.k.flatMap two, b.k.flatMap bounds, cols.flatMap two, cols.flatMap bounds, b.pos.flatMap (fun p => (leBytes 4 p).map (fun x => (x, b.hbad)))]

/-- Write 32-byte chunks, but none into a line of the ranges to be kept. -/
def Tile.wrAway (t : Tile) (keep : List (Nat × Nat)) (addr : Nat) (d : List PB) : Tile :=
  let cs := chunks 32 d
  ((List.range cs.length).zip cs).foldl (fun t c =>
    let x := addr + 32 * c.1
    if keep.any (fun k => decide (k.1 / 512 ≤ x / 512) && decide (x / 512 ≤ (k.1 + k.2 - 1) / 512)) then t else t.wr x c.2) t

/-- Deliver an expanded batt to the scratchpad. The place of each array is open, but the rows being read are not overwritten (log entry 28). -/
def Tile.deliver (t : Tile) (g : Region) (b : BattX) (a : List Byte) (seed : Nat) : Tile :=
  let keep := [(a32 a 0x20, 2 * g.d * atRows a), (a32 a 0x24, g.d / 32 * atRows a)]
  let as := g.arrays b
  ((List.range as.length).zip as).foldl (fun t p =>
    t.wrAway keep (32 * (Config.attnPlace seed p.1 % ((0x100000 - p.2.length) / 32 + 1))) p.2) t

/-- Put a new state in place of the latest partial of a tile. -/
def Tile.setRows (t : Tile) (rows : List RowSt) : Tile := { t with attn := t.attn.dropLast ++ [rows] }

/-- One expanded batt on the rows of a tile (R75). -/
def State.consume (s : State) (a : List Byte) (p : AttnP) (w i0 seed : Nat) (qs : List QRow) (b : BattX) : State :=
  let (rows, vf, els) := rowsBatt (atC a) b qs ((s.tile i0).attn.getLastD [])
  let (f, n) := reportFlags els
  (s.modTile i0 (fun u => (u.deliver p.g b a seed).setRows rows)).report w f n vf false

/-- Batt number i of a tile: read, and run on its rows. What stopped it, or that a piece is missing. -/
def State.battStep (s : State) (a : List Byte) (p : AttnP) (x : Work) (w t i0 seed : Nat) (qs : List QRow) (i : Nat) : State × Option (Stop × Bool) × Bool :=
  let e := (tileEng x.hood x.ctx i0 1 x.ring).of w
  match s.attnSegs a p x.cnt t i with
  | [(none, _)] => (s, none, true)
  | [(some va, _)] =>
    match s.readBatt e p.g va (atMaxPos a) with
    | (_, s, some y) => (s, some y, false)
    | (none, s, none) => (s, none, false)
    | (some b, s, none) => (s.consume a p w i0 seed qs b, none, false)
  | segs =>
    match gatherBatt e i0 segs 0 s with
    | (s, none, false) =>
      let d := (s.tile i0).part
      let s := s.modTile i0 (fun u => { u with part := [] })
      (if battSkips (d.take 256) (atMaxPos a) then s else s.consume a p w i0 seed qs (p.g.battX (d.take 256) (d.drop 256)), none, false)
    | r => r

/-- Consume the batts of a tile that are left: what stopped it, or that a piece is missing. -/
def attnRun (a : List Byte) (p : AttnP) (x : Work) (w t i0 seed : Nat) (qs : List QRow) : Nat → Nat → State → State × Option (Stop × Bool) × Bool
  | 0, _, s => (s, none, false)
  | left + 1, i, s =>
    let s := if (atSpan a && i % atW a == 0) || i == 0 then
        s.modTile i0 (fun u => if (u.attn.length == (if atSpan a then i / atW a else 0)) then
          { u with attn := u.attn ++ [qs.map (fun _ => rowInit p.g.d)] } else u)
      else s
    match s.battStep a p x w t i0 seed qs i with
    | (s, none, false) => attnRun a p x w t i0 seed qs left (i + 1) (s.modWork w (fun y => { y with prog := y.prog.insert t (i + 1) }))
    | r => r

/-- Finish a pass on a tile: its rows are written and what the units hold is open. -/
def State.attnFinish (s : State) (w i : Nat) (a : List Byte) (rows : List RowSt) : State :=
  let (u, vf, empty, psn) := (s.tile i).attnOut a rows
  let (seed, s) := s.draw
  let s := s.modTile i (fun _ => { u.attnLeave seed 0 with attn := [], vstat := vf })
  (s.report w 0 0 vf psn).modWork w (fun x => { x with empty := x.empty ||| empty })

/-- One tile of an ATTN kernel. -/
def attnTile (a : List Byte) (p : AttnP) (x : Work) (w : Nat) (s : State) (t i : Nat) : State :=
  let pos := ((s.work? w).map (fun y => (y.prog.find t).getD 0)).getD 0
  let s := if ((s.work? w).bind (fun y => y.prog.find t)).isNone then
      (s.modTile i (fun u => { u with attn := [], part := [] })).modWork w (fun y => { y with prog := y.prog.insert t 0 })
    else s
  let src := if atSpan a then s.siteOf x.hood x.lo else i
  let qs := (s.tile src).qRows a p.g.d
  let n := attnItems a p x.cnt t
  let (seed, s) := s.draw
  match attnRun a p x w t i seed qs (n - pos) pos s with
  | (s, some (y, str), _) => s.stopWork w x ((tileEng x.hood x.ctx i 1 x.ring).of w) y (some t) str
  | (s, none, true) => s
  | (s, none, false) =>
    let s := if atSpan a then s else s.attnFinish w i a ((s.tile i).attn.getLastD (qs.map (fun _ => rowInit p.g.d)))
    s.tileDone w t

/-- The row state of a span whose site has gone: open (log entry 27). -/
def peerRow (seed pos r d : Nat) : RowSt :=
  { m := (Config.peerState seed pos r 0).toNat, l := (Config.peerState seed pos r 1).toNat
    o := (List.range d).map (fun e => (Config.peerState seed pos r (2 + e)).toNat), bad := false }

/-- The partial of this package (R78): the partials of its spans, merged in ascending order. -/
def State.attnOwn (s : State) (a : List Byte) (p : AttnP) (x : Work) : (List RowSt × VFlags) × State :=
  let (seed, s) := s.draw
  let spans := (p.g.nb + atW a - 1) / atW a
  let parts := (List.range spans).map (fun i =>
    (((s.tile (s.siteOf x.hood (x.lo + i % x.cnt))).attn[i / x.cnt]?).getD ((List.range (atRows a)).map (fun r => peerRow seed i r p.g.d)), (0 : VFlags)))
  (treeMerge 27 parts,
    (List.range x.cnt).foldl (fun s t => s.modTile (s.siteOf x.hood (x.lo + t)) (fun u => { u.attnLeave seed t with attn := [] })) s)

/-- The kernel waits for a piece (R88), of which its engine counts a stall, or for the partial of a member; the timeout of R274 runs from the start of
the wait. -/
def State.waitPiece (s : State) (w : Nat) (x : Work) (eng : Option Nat) : State :=
  let wt : Wait := {
    work := w, ctx := x.ctx, ring := x.ring, hood := x.hood, loc := noLoc, kind := 1, start := s.now, timeout := (s.ctx x.ctx).defto }
  let s := match eng with | some e => s.countReg rSTL_ROT_STALL e 1 | none => s
  { s.modWork w (fun x => { x with phase := .waiting }) with waits := s.waits ++ [wt] }

/-! #### The partial method (R82)

A ring record names NEXT and PREV only, so a member's partial travels from member to member until it has reached them all (log entry 27). -/

/-- The 4 + 4 + 4d bytes of a partial state. -/
def rowBytes (r : RowSt) : List Byte := leBytes 4 r.m ++ leBytes 4 r.l ++ r.o.flatMap (leBytes 4)

def rowOf (d : Nat) (b : List Byte) (bad : Bool) : RowSt :=
  { m := fld b 0 0 32, l := fld b 4 0 32, o := (List.range d).map (fun e => fld b (8 + 4 * e) 0 32), bad := bad }

/-- Send the state of a row to NEXT. -/
def State.collSend (s : State) (e : Nat) (c : CollPart) : State :=
  let k := s.rot e
  s.stlSend (e / 8) k.next (some (k.hood - 1)) (.coll e c.pos c.layer c.head c.off c.data (if c.bad then List.range ((c.data.length + 63) / 64) else []))

/-- A state that arrives is kept, and goes on unless NEXT is the member it comes from. -/
def State.collPart (s : State) (e : Nat) (c : CollPart) : State :=
  let k := s.rot e
  if k.stopped || k.n ≤ c.pos || c.pos == k.pos then s
  else
    let s := (s.modRot e (fun k => { k with colls := k.colls ++ [c] })).wakeAttn k
    if c.pos = (k.pos + 1) % k.n then s else s.collSend e c

/-- The oldest states of a member for a layer and a head, row by row, once all are here. -/
def Rot.collOf (k : Rot) (a : List Byte) (d pos : Nat) : Option (List CollPart) :=
  (List.range (atRows a)).foldl (fun (r : Option (List CollPart)) i =>
    match r, k.colls.find? (fun c => c.pos == pos && c.layer == atLayer a && c.head == atHead a && c.off == i * (8 + 4 * d)) with
    | some l, some c => some (l ++ [c])
    | _, _ => none) (some [])

/-- Of every member in ascending ring position. -/
def Rot.collAll (k : Rot) (a : List Byte) (d : Nat) : Option (List (List CollPart)) :=
  (List.range k.n).foldl (fun (r : Option (List (List CollPart))) q =>
    match r, k.collOf a d q with
    | some l, some c => some (l ++ [c])
    | _, _ => none) (some [])

/-- The end of the span method (R78): tile 0 writes the rows of the partial, with RING = 2 of the partials of all members, merged in ascending ring
position. -/
def attnSpanEnd (a : List Byte) (p : AttnP) (x : Work) (w : Nat) (s : State) : State :=
  let finish := fun (s : State) (r : List RowSt × VFlags) =>
    let s := s.report w 0 0 r.2 false
    let i := s.siteOf x.hood x.lo
    (if s.siteDown i then s else s.attnFinish w i a r.1).kernelEnd w
  if atRing a ≠ 2 then let (own, s) := s.attnOwn a p x; finish s own
  else
    match p.eng with
    | none => s.waitPiece w x none
    | some e =>
      let s :=
        if ((s.work? w).bind (fun y => y.prog.find 4099)).isSome then s
        else
          let (own, s) := s.attnOwn a p x
          let cs := ((List.range own.1.length).zip own.1).map (fun r =>
            ({ pos := p.pos, layer := atLayer a, head := atHead a, off := r.1 * (8 + 4 * p.g.d), data := rowBytes r.2, bad := r.2.bad } : CollPart))
          let s := ((s.report w 0 0 own.2 false).modWork w (fun y => { y with prog := y.prog.insert 4099 1 })).modRot e (fun k => { k with colls := k.colls ++ cs })
          if p.n = 1 then s else cs.foldl (fun s c => s.collSend e c) s
      match (s.rot e).collAll a p.g.d with
      | none => s.waitPiece w x none
      | some l =>
        let s := s.modRot e (fun k => { k with colls := l.flatten.foldl (fun cs c => cs.erase c) k.colls })
        finish s (treeMerge 7 (l.map (fun m => (m.map (fun c => rowOf p.g.d c.data c.bad), (0 : VFlags)))))

/-- Join the round of a ring: a kernel of another layer, or of a head that has joined already, begins the next round, and the pieces of this member are
then wholly present. -/
def State.joinRound (s : State) (w e : Nat) (a : List Byte) (g : Region) : Nat × State :=
  match (s.work? w).bind (fun x => x.prog.find 4098) with
  | some r => (r, s)
  | none =>
    let k := s.rot e
    let fresh := k.rounds.isEmpty || (k.rounds.getLast?.map (fun p => p.1)) != some (atLayer a) || k.heads.contains (atHead a)
    let s := s.modRot e (fun k =>
      if fresh then { k with
        rounds := k.rounds ++ [(atLayer a, k.pieces g)], heads := [atHead a]
        todo := k.todo ++ (if k.n = 1 then [] else (List.range (k.pieces g)).map (pieceCode k.rounds.length k.pos)) }
      else { k with heads := k.heads ++ [atHead a] })
    let r := (s.rot e).rounds.length - 1
    (r, s.modWork w (fun x => { x with prog := x.prog.insert 4098 r }))

/-- The consumption table once every tile has come `least` bytes into the run of all origins (R87). -/
def Rot.passed (k : Rot) (a : List Byte) (p : AttnP) (least : Nat) : Table (List Nat) :=
  let span := p.g.nb * p.g.batt
  let h0 := atHead a * span
  let step := fun (m : Table (List Nat)) (c : Nat) =>
    let (lo, n) := k.place p.g (pieceNo c)
    let turn := (p.pos + p.n - pieceOrigin c) % p.n
    let l := (m.find c).getD []
    if overlaps lo n h0 span && decide (turn * span + (min (lo + n) (h0 + span) - h0) ≤ least) && !l.contains (atHead a) then m.insert c (l ++ [atHead a])
    else m
  ((k.full.map (fun f => f.2.1)).filter (fun c => pieceRound c == p.round)).foldl step k.cons

/-- Note which landed pieces every tile of the kernel has passed, and free their slots (R86). -/
def State.notePieces (s : State) (w : Nat) (a : List Byte) (p : AttnP) : State :=
  match p.eng, s.work? w with
  | some e, some x =>
    let all := p.g.nb * p.n * p.g.batt
    let least := ((List.range x.cnt).map (fun t =>
      if x.doneT.contains t then all
      else (x.prog.find t).getD 0 * p.g.batt + (s.tile (s.siteOf x.hood (x.lo + t))).part.length)).foldl min all
    let s := s.modRot e (fun k => { k with cons := k.passed a p least })
    s.freeSlotsOf e p.g
  | _, _ => s

/-- Does a tile wait for a piece? -/
def State.lacksPiece (s : State) (a : List Byte) (p : AttnP) (x : Work) (t : Nat) : Bool :=
  let have_ := (s.tile (s.siteOf x.hood (x.lo + t))).part.length
  let segs := s.attnSegs a p x.cnt t ((x.prog.find t).getD 0)
  ((List.range segs.length).zip segs).any (fun g =>
    g.2.1.isNone && decide (have_ < ((segs.take (g.1 + 1)).map (fun y => y.2)).foldl (· + ·) 0))

/-- Run an ATTN kernel with what it has read. -/
def attnGo (w : Nat) (x : Work) (p : AttnP) (s : State) : State :=
  let a := x.args
  let s := s.foldTiles w (attnTile a p x w)
  let s := s.notePieces w a p
  match s.work? w with
  | none => s
  | some y =>
    if y.phase != .started then s
    else if y.doneT.length == y.cnt then (if atSpan a then attnSpanEnd a p x w s else s.kernelEnd w)
    else if (s.tilesLeft w y).any (s.lacksPiece a p y) && (s.waits.all (fun q => q.work != w)) then s.waitPiece w y p.eng
    else s

/-- ATTN (R75): the streaming-softmax sequence over the batts of one KV head. -/
def attnEff (w : Nat) (s : State) : State :=
  let s := s.arrive w 8 (fun _ => true)
  match s.kernel w 8 with
  | none => s
  | some x =>
    let a := x.args
    if !x.recordsOk || !attnOk a then s.endInvalid w
    else if x.cnt = 0 then s.kernelEnd w
    else
      match s.kernelRecord w x (fld a 0x10 0 64) 32 with
      | (none, s) => s
      | (some r, s) =>
        match parseRegion r with
        | none => s.endInvalid w
        | some g =>
          if g.layers ≤ atLayer a || g.heads ≤ atHead a then s.endInvalid w
          else if atRing a = 0 then attnGo w x { g := g, n := 1, pos := 0, eng := none, round := 0 } s
          else
            match s.kernelRecord w x (fld a 0x18 0 64) 64 with
            | (none, s) => s
            | (some r, s) =>
              match parseRing r (s.hood x.hood).block.links with
              | none => s.endInvalid w
              | some k =>
                let eng := s.ringEng x.hood x.ctx (fld a 0x18 0 64)
                match atRing a, eng with
                | 1, some e =>
                  let (round, s) := s.joinRound w e a g
                  attnGo w x { g := g, n := k.n, pos := k.pos, eng := some e, round := round } s
                | _, _ => attnGo w x { g := g, n := k.n, pos := k.pos, eng := eng, round := 0 } s

def execAttn (w : Nat) (s : State) : Host.Outcome State Fault Refusal := run true (attnEff w) s

end Sys2Proof.Machine
end

