-- ==== Sys2Proof/Machine/Coherence.lean ====
section
/-!
DEFINITION. Machine/Coherence.lean: the messages of the on-die networks as commands (R147 to R151). Lines are numbered in Machine/Route.lean; requesters
0 to 8 are the caches. A line stays in B until its requester has been answered; what a message does stands in Machine/Lines.lean.
-/
namespace Sys2Proof.Machine

/-! ### REQ rows -/

/-- What the memory access of a request finds, when the channel serves it at once: the codeword's bad symbols (R98). -/
def State.eccNow (s : State) (line ecc : Nat) : State :=
  if isLocalLine line && (s.coh.txns.find line).isNone && (s.dirOf line).owner.isNone then s.eccEvent line ecc else s

/-- Whose a request of a cache of a hood is: a die cache's class is TILE, the spine cache's COPY (R312). -/
def State.reqWho (s : State) (h req : Nat) : Who :=
  { hood := h, cls := if req = 8 then 2 else 0, epoch := s.reg rHOOD_EPOCH h }

/-- A REQ about a line reaches its home. -/
def reqEff (line ecc : Nat) (r : CReq) (s : State) : State := ((s.eccNow line ecc).homeReq line r).settled

/-- RdS. A line of a borrowed range is cached only where a read-only entry of the hood names it and a path to its lender is left (R145, R154, R156). -/
def rdsEff (h line req ecc : Nat) (s : State) : State :=
  if isLocalLine line || ((s.farRange h line).isSome && !s.farGone line) then reqEff line ecc (.rdS (s.reqWho h req) req) s else s

def execRds (line : Nat) (who : Asker) (ecc : Nat) (s : State) : Host.Outcome State Fault Refusal :=
  run (lineOk line && decide (who.hood < 16) && decide (who.req < 9) && decide (ecc ≤ 72)) (rdsEff who.hood line who.req ecc) s

/-- RdX and Upg of a hood: a read-only line takes no write and counts it (R155, R191), and the lines of a move are written through (R181). -/
def ownEff (h line : Nat) (r : CReq) (s : State) : State :=
  match s.refuses h line with
  | some s => s
  | none => if (s.moveTwin line).isSome then s else reqEff line 0 r s

def execRdx (line : Nat) (who : Asker) (s : State) : Host.Outcome State Fault Refusal :=
  run (isLocalLine line && decide (who.hood < 16) && decide (who.req < 9)) (ownEff who.hood line (.rdX (s.reqWho who.hood who.req) who.req)) s

def execUpg (line : Nat) (who : Asker) (s : State) : Host.Outcome State Fault Refusal :=
  run (isLocalLine line && decide (who.hood < 16) && decide (who.req < 9)) (ownEff who.hood line (.upg (s.reqWho who.hood who.req) who.req)) s

def execRdu (h line req ecc : Nat) (s : State) : Host.Outcome State Fault Refusal :=
  run (isLocalLine line && decide (h < 16) && decide (ecc ≤ 72)) (reqEff line ecc (.rdU (s.reqWho h req) req)) s

def execWru (h line req off ecc : Nat) (data : List Byte) (s : State) : Host.Outcome State Fault Refusal :=
  run (isLocalLine line && decide (h < 16) && decide (off + data.length ≤ 64) && decide (ecc ≤ 72))
    (reqEff line (if data.length = 64 then 0 else ecc) (.wrU (s.reqWho h req) req off data)) s

def execWbm (line req : Nat) (s : State) : Host.Outcome State Fault Refusal :=
  run (isLocalLine line && decide (req < 9)) (reqEff line 0 (.wbM req)) s

def execEvc (line req : Nat) (s : State) : Host.Outcome State Fault Refusal :=
  run (lineOk line && decide (req < 9)) (reqEff line 0 (.evC req)) s

/-! ### FWD, RSP and DAT rows -/

/-- The oldest message in flight that a row names arrives (R147, R148); none in flight: nothing happens. -/
def cohMsgEff (p : CMsg → Bool) (s : State) : State :=
  match s.coh.msgs.find? p with
  | some m => (s.deliver m).settled
  | none => s

def execFwds (line holder : Nat) (s : State) : Host.Outcome State Fault Refusal :=
  run (lineOk line && decide (holder < 9)) (cohMsgEff (fun m => match m with | .fwdS l o _ => l == line && o == holder | _ => false)) s
def execFwdx (line holder : Nat) (s : State) : Host.Outcome State Fault Refusal :=
  run (lineOk line && decide (holder < 9)) (cohMsgEff (fun m => match m with | .fwdX l o _ => l == line && o == holder | _ => false)) s
def execFwdrd (line holder : Nat) (s : State) : Host.Outcome State Fault Refusal :=
  run (lineOk line && decide (holder < 9)) (cohMsgEff (fun m => match m with | .fwdRd l o _ => l == line && o == holder | _ => false)) s
def execInv (line holder : Nat) (s : State) : Host.Outcome State Fault Refusal :=
  run (lineOk line && decide (holder < 9)) (cohMsgEff (fun m => m == .inv line holder)) s
def execRecall (line holder : Nat) (s : State) : Host.Outcome State Fault Refusal :=
  run (lineOk line && decide (holder < 9)) (cohMsgEff (fun m => m == .recall line holder)) s
def execInvack (line holder : Nat) (s : State) : Host.Outcome State Fault Refusal :=
  run (lineOk line && decide (holder < 9)) (cohMsgEff (fun m => m == .invAck line holder)) s
def execDone (line src : Nat) (s : State) : Host.Outcome State Fault Refusal :=
  run (lineOk line && decide (src < 9)) (cohMsgEff (fun m => m == .done line src)) s
def execUpgradeGrant (line req : Nat) (s : State) : Host.Outcome State Fault Refusal :=
  run (lineOk line && decide (req < 9)) (cohMsgEff (fun m => m == .grant line req)) s
def execAtomresult (line req : Nat) (s : State) : Host.Outcome State Fault Refusal :=
  run (lineOk line) (cohMsgEff (fun m => match m with | .atomResult l r _ _ => l == line && r == req | _ => false)) s
def execWrack (line req : Nat) (s : State) : Host.Outcome State Fault Refusal :=
  run (lineOk line) (cohMsgEff (fun m => m == .wrAck line req)) s
def execData (line req : Nat) (s : State) : Host.Outcome State Fault Refusal :=
  run (lineOk line) (cohMsgEff (fun m => match m with | .data l r _ _ _ => l == line && r == req | _ => false)) s
def execDatax (line req : Nat) (s : State) : Host.Outcome State Fault Refusal :=
  run (lineOk line && decide (req < 9)) (cohMsgEff (fun m => match m with | .dataX l r _ _ => l == line && r == req | _ => false)) s
def execWbdata (line src : Nat) (s : State) : Host.Outcome State Fault Refusal :=
  run (isLocalLine line && decide (src < 9)) (cohMsgEff (fun m => match m with | .wbData l r _ _ => l == line && r == src | _ => false)) s

end Sys2Proof.Machine
end

