-- ==== Sys2Proof/Machine/SecReq.lean ====
section
/-!
DEFINITION. Machine/SecReq.lean: signed requests (R353, R370) and debug tokens (R361, R362).
-/
namespace Sys2Proof.Machine

/-- SEC_NONCE (R361). -/
def State.nonce (s : State) : BitVec 128 := Config.drbg s.hat.nonce

/-- Does the hatter offer its services (R347, R368)? -/
def State.hatServes (s : State) : Bool := s.hat.runs && !s.nap.hatFail && !s.nap.classB

/-- A record of Table 15 of The Hatter is fit for its command: RSV fields zero, the device's serial, the current nonce, and a signature that
verifies (R361, R370). -/
def State.reqOk (s : State) (r : List Byte) (key : Nat) (argRsv : Bool) : Bool :=
  fld r 2 0 48 == 0 && fld r 0x28 0 64 == 0 && (!argRsv || fld r 1 0 8 == 0) && fld r 8 0 64 == s.hat.serial.toNat &&
    fld r 0x10 0 128 == s.nonce.toNat && Config.sigValid key r

/-- The SVN below which no image of a class may still run for a commit to be accepted: the lowest that runs (R353). -/
def State.runningSvn (s : State) (cls : Nat) : Nat :=
  if cls = 0 then s.hat.running.headD 0
  else (s.liveHoods.map (fun h => (s.hood h).svnOf cls)).foldl min (s.hat.running.getD cls 0)

/-- SVN_COMMIT (R353): the stored SVN rises, never falls, and never above a running image. -/
def State.commitSvn (s : State) (cls svn : Nat) : State :=
  if 4 ≤ cls ∨ 65536 ≤ svn then s.setReg rSEC_REQ_STATUS 0 3
  else if (if cls = 0 then s.hat.running.headD 0 < svn else s.liveHoods.any (fun h => decide ((s.hood h).svnOf cls < svn))) then
    s.setReg rSEC_REQ_STATUS 0 4
  else
    let f := s.hat.flash
    ({ s with hat := { s.hat with flash := { f with svn := f.svn.set cls (max svn (f.svn.getD cls 0)) } } }).setReg rSEC_REQ_STATUS 0 2

/-- Configuration records that authenticate replace those in flash (R353, Table 4 of The Hatter); what they set is read at the next cold
start. -/
def State.putRecords (s : State) (n : FlashImage) : State :=
  { s with hat := { s.hat with flash := { s.hat.flash with
    recordsOk := true, owner := n.owner, boardMax := n.boardMax, retiredSites := n.retiredSites, spares := n.spares, retiredChans := n.retiredChans } } }

/-- CONFIG (R353). -/
def State.config (s : State) (addr : Nat) : State :=
  let n := Config.recordsAt addr
  if n.recordsOk then (s.putRecords n).setReg rSEC_REQ_STATUS 0 2 else s.setReg rSEC_REQ_STATUS 0 4

/-- Process the signed request at SEC_REQ_ADDR (R353, R370). -/
def State.secRun (s : State) : State :=
  let r := s.hostRd (s.reg rSEC_REQ_ADDR 0) 144
  let arg := fld r 0x20 0 64
  match fld r 0 0 8 with
  | 1 => if s.reqOk r (2 + s.hat.flash.owner) false then s.commitSvn (fld r 1 0 8) arg else s.setReg rSEC_REQ_STATUS 0 4
  | 2 => if s.reqOk r (2 + s.hat.flash.owner) true then s.config arg else s.setReg rSEC_REQ_STATUS 0 4
  | _ => s.setReg rSEC_REQ_STATUS 0 4

/-- SEC_REQ_CMD.GO: the record is read at once, or when the PF's Bus Master Enable lets it (R225). A command while one waits has no effect
(log entry 21); one that the hatter cannot serve is REFUSED. -/
def State.secGo (s : State) : State :=
  if s.reg rSEC_REQ_STATUS 0 = 1 then s
  else if !s.hatServes then s.setReg rSEC_REQ_STATUS 0 4
  else if !(s.fn 0).bme then s.setReg rSEC_REQ_STATUS 0 1
  else s.secRun

/-- Refuse a token. -/
def State.dbgRefuse (s : State) : State := s.setReg rDBG_TOKEN_STATUS 0 3

/-- Verify the token at DBG_TOKEN_ADDR and open debug after a class A singe (R361, R362). SEC_NONCE takes a new value after every attempt. -/
def State.dbgRun (s : State) : State :=
  let r := s.hostRd (s.reg rDBG_TOKEN_ADDR 0) 144
  let ok := s.hatServes && fld r 0 0 8 == 3 && s.reqOk r 1 false && decide (s.now ≤ fld r 0x20 0 64)
  let (n, s) := s.draw
  let s := { s with hat := { s.hat with nonce := n } }
  if !ok then s.dbgRefuse
  else
    let s := (s.singe false 7).repairGo
    if s.nap.classB then s.dbgRefuse
    else
      let s := { s with hat := { s.hat with debug := 4 + fld r 1 0 2 } }
      (s.setReg rDBG_TOKEN_STATUS 0 2).cause rDBG_CAUSE 0 0

/-- DBG_TOKEN_CMD.OPEN. -/
def State.dbgGo (s : State) : State :=
  if s.reg rDBG_TOKEN_STATUS 0 = 1 then s
  else if s.hatServes && !(s.fn 0).bme then s.setReg rDBG_TOKEN_STATUS 0 1
  else s.dbgRun

end Sys2Proof.Machine
end

