-- ==== Sys2Proof/Machine/RegView.lean ====
section
/-!
DEFINITION. Machine/RegView.lean: reading registers (R9, R394): which copy an access reaches, and what each register reads as. Registers whose
value is a view of typed state are computed here; every other one reads as it was stored.
-/
namespace Sys2Proof.Machine

/-- The copy of a register that an access of a function reaches (R394): none for a hood that does not exist, or for a channel or link outside
a VF's block. -/
def State.copyIdx (s : State) (fn : Nat) : Scope → Option Nat
  | .pkg => some 0
  | .fn => some fn
  | .hood => let h := s.selHood fn; if s.hoodExists h then some h else none
  | .hoodp => let h := if fn = 0 then s.reg rPWR_SEL 0 % 16 else fn - 1; if s.hoodExists h then some h else none
  | .ctx => some (s.reg rCTX_SEL (fn - 1))
  | .chan => let c := s.reg rMEM_CHAN_SEL fn; if fn ≠ 0 ∧ !(s.hood (fn - 1)).block.channels.getLsbD c then none else some c
  | .stack => some (s.reg rBIR_STACK_SEL 0)
  | .link => let l := s.reg rSTL_LINK_SEL fn; if fn ≠ 0 ∧ !(s.hood (fn - 1)).block.links.getLsbD l then none else some l
  | .plank => some (s.reg rPWR_PLANK_SEL 0)
  | .sensor => some (s.reg rTHM_SENSE_SEL 0)
  | .rot => some (s.reg rSTL_ROT_SEL fn)

/-- Is a register present in a function (R393, R394)? -/
def RegInfo.inFn (r : RegInfo) (fn : Nat) : Bool := if fn = 0 then r.pf else r.vf

/-! ### Views -/

/-- A range entry as the block record holds it (Table 4 of Hoods). -/
def rangeImage (r : Range) : List Byte :=
  let b := fun (x : Bool) => if x then 1 else 0
  let t : Target := r.target.getD {}
  leBytes 8 r.hbase ++ leBytes 8 r.len ++ leBytes 2 (b r.borrowed + 2 * b r.ro + 4 * b r.shared + 16 * r.state) ++
    leBytes 2 (r.lender + 4096 * r.carrier) ++ leBytes 4 r.leaseMs ++ leBytes 8 r.cbase ++ leBytes 4 r.leaseId ++ leBytes 4 r.srcHood ++
    leBytes 8 t.cbase ++ leBytes 2 (b t.borrowed + 2 * t.carrier) ++ leBytes 2 t.lender ++ leBytes 4 0 ++ leBytes 8 r.moved

/-- The range entries of a hood as they are read back (R163): those of the block; while a change is staged also the range being added (ADDING) and the
state MOVING of one being moved; and while it drains, the range being released (RELEASING), at the end (log entry 92). -/
def Hood.shownRanges (k : Hood) : List Range :=
  let rs := k.block.ranges
  match k.change.phase, k.change.cmd, k.change.new, k.change.range with
  | .staged, 3, some b, _ => rs ++ (b.ranges.drop rs.length).map (fun r => { r with state := 1 })
  | .staged, 5, some b, _ => b.ranges
  | .draining, 4, _, some r => rs ++ [{ r with state := 3 }]
  | _, _, _, _ => rs

/-- An 8-byte word of HOOD_BLK_IMAGE: the current block in the layout of Table 3 of Hoods (R163). -/
def State.blockWord (s : State) (h i : Nat) : Nat :=
  let k := s.hood h
  let b := k.block
  let rs := k.shownRanges
  if !k.created then 0
  else if i < 8 then
    match i with
    | 0 => s.reg rHOOD_EPOCH h + k.gen * 2 ^ 32 + h * 2 ^ 48 + b.gran * 2 ^ 56 + (if b.conf then 2 ^ 58 else 0)
    | 1 => b.keydom + b.tmap.length * 2 ^ 16 + rs.length * 2 ^ 32
    | 2 => b.links.toNat
    | 3 => 0
    | n => bits b.channels.toNat (64 * (n - 4)) 64
  else if i < 392 then
    leNat ((List.range 4).flatMap (fun j => leBytes 2 (b.tmap.getD (4 * (i - 8) + j) 0xFFFF)))
  else
    match rs[(i - 392) / 8]? with
    | some r => leNat (slice (rangeImage r) (8 * ((i - 392) % 8)) 8)
    | none => 0

/-- A context that its function's hood can see. -/
def State.seenCtx (s : State) (fn c v : Nat) : Nat := if s.hasCtx (fn - 1) c then v else 0

/-- The highest of the latest readings, with the lowest-numbered sensor that holds it (THM_MAX). -/
def State.hottest (s : State) : Nat × Int :=
  s.thermal.temps.foldl (fun a e => if a.2 < e.2 then e else a) (s.thermal.temps.headD (0, 0))

/-- HOST_WIN_BASE as it reads: its bits below the BAR2 size are zero (R221). -/
def State.winAt (s : State) (h : Nat) : Nat := alignDown (s.reg rHOST_WIN_BASE h) (2 ^ s.front.vfBar2)

def b2n (b : Bool) : Nat := if b then 1 else 0

/-- A 16-bit two's complement field. -/
def int16 (x : Int) : Nat := (x % 65536).toNat

/-- STL_LINK_STATUS (Table 10 of Register Reference). -/
def linkStatus (k : Link) : Nat := k.st + 4 * b2n k.narrow + 8 * b2n k.isol

/-- PWR_PLANK_STATE (Table 7 of Clocks). -/
def plankState (k : Plank) : Nat := k.n + 64 * b2n k.gated + 128 * b2n k.locked + 256 * b2n k.droop + 512 * b2n k.throt

/-- SEC_STATUS (Table 16 of The Hatter). -/
def State.secStatus (s : State) : Nat :=
  (if s.nap.hatFail then 2 else if s.nap.classB then 3 else if s.hat.runs then 1 else 0) + 4 * b2n (s.hat.debug != 0)

/-- Tile-microseconds of a total in tile-nanoseconds, saturating (R294). -/
def usageUs (n : Nat) : Nat := min (n / 1000) (2 ^ 64 - 1)

/-- Registers that are views: offset, and the value from the state, the function, the copy and the element's offset. -/
def regViews : List (Nat × (State → Nat → Nat → Nat → Nat)) := [
  (rTOP_ID, fun _ _ _ _ => 0x1FA4 + 0x7408 * 2 ^ 16 + 0xB0 * 2 ^ 32),
  (rTOP_SERIAL, fun s _ _ _ => s.hat.serial.toNat),
  (rTOP_COUNTER, fun s _ _ _ => s.now),
  (rTOP_ALERT_SUMMARY, fun s _ _ _ => s.nap.alert.toNat),
  (rTOP_ALERT_EN, fun s _ _ _ => s.nap.alertEn.toNat),
  (rHOST_VF_STATE, fun s _ _ _ => ((List.range 16).map (fun h => (s.hood h).vf * 4 ^ h)).foldl (· + ·) 0),
  (rINT_FUNC_SUMMARY, fun s fn _ _ => s.summary fn),
  (rHOST_WIN_BASE, fun s _ h _ => s.winAt h),
  (rFE_CTX_BASE, fun s _ h _ => (s.front.bases.find (2 * h)).getD (s.reg rFE_CTX_BASE h)),
  (rFE_RING_BASE, fun s _ h _ => (s.front.bases.find (2 * h + 1)).getD (s.reg rFE_RING_BASE h)),
  (rCTX_STATE, fun s fn c _ => s.seenCtx fn c (if (s.ctx c).hood == fn - 1 then (s.ctx c).state else 0)),
  (rCTX_GEN, fun s fn c _ => s.seenCtx fn c (s.ctx c).gen),
  (rCTX_CLAMP, fun s fn c _ => s.seenCtx fn c (s.reg rCTX_CLAMP c)),
  (rCTX_CLAMP_ROW, fun s fn c _ => s.seenCtx fn c (s.reg rCTX_CLAMP_ROW c)),
  (rCTX_INVALID, fun s fn c _ => s.seenCtx fn c (s.reg rCTX_INVALID c)),
  (rCTX_USAGE, fun s fn c _ => s.seenCtx fn c (usageUs ((s.accrueHood (s.ctx c).hood).ctx c).usage)),
  (rCTX_VTIME, fun s fn c _ => s.seenCtx fn c ((s.accrueHood (s.ctx c).hood).ctx c).vt),
  (rHOOD_DRAIN, fun s _ h _ => min (s.drainCount h) (2 ^ 32 - 1)),
  (rHOOD_RESET, fun s _ h _ => 4 * b2n (s.hood h).failed),
  (rHOOD_RUNSTATE, fun s _ h _ => s.runState h),
  (rHOOD_USAGE, fun s _ h _ => usageUs ((s.accrueHood h).hood h).usageNs),
  (rHOOD_SAVED, fun s _ h _ => s.savedCount h),
  (rHOOD_MIG_DONE, fun s _ h _ => if s.reg rHOOD_MIG_STATUS h = 0 then s.imageSize h else s.reg rHOOD_MIG_DONE h),
  (rHOOD_MIG_ALIAS, fun s _ h _ => (s.hood h).migAlias.getD 0),
  (rHOOD_BLK_IMAGE, fun s _ h off => s.blockWord h ((off - rHOOD_BLK_IMAGE) / 8)),
  (rXLT_INV_STATUS, fun s _ h _ => let n := (s.hood h).invals.length; n % 128 + 128 * b2n (decide (64 ≤ n))),
  (rSTL_LINK_STATUS, fun s _ l _ => linkStatus (s.link l)),
  (rSTL_LOST_MAP, fun s fn _ _ => if fn = 0 then s.reg rSTL_LOST_MAP 0 else (BitVec.ofNat 40 (s.reg rSTL_LOST_MAP fn) &&& (s.hood (fn - 1)).block.links).toNat),
  (rSTL_ROT_STALL, fun s fn e _ => if fn = 0 || (s.rot e).hood == fn then s.reg rSTL_ROT_STALL e else 0),
  (rPWR_PLANK_STATE, fun s _ p _ => plankState (s.plank p)),
  (rTHM_TEMP, fun s _ n _ => int16 ((s.thermal.temps.find n).getD 0)),
  (rTHM_MAX, fun s _ _ _ => int16 s.hottest.2 + s.hottest.1 * 2 ^ 16),
  (rSEC_STATUS, fun s _ _ _ => s.secStatus),
  (rSEC_NONCE_LO, fun s _ _ _ => bits s.nonce.toNat 0 64),
  (rSEC_NONCE_HI, fun s _ _ _ => bits s.nonce.toNat 64 64),
  (rSEC_UPD_STATUS, fun s _ _ _ => s.reg rSEC_UPD_STATUS (s.reg rSEC_UPD_SEL 0)),
  (rSEC_SVN, fun s _ _ _ =>
    let c := s.reg rSEC_UPD_SEL 0
    if 4 ≤ c then 0 else s.hat.flash.svn.getD c 0 + s.runningSvn c * 2 ^ 16),
  (rMSIX_CTRL, fun s fn _ _ => b2n (s.fn fn).masked),
  (rMSIX_PBA, fun s fn _ _ => b2n (s.fn fn).pba)]

/-- A routing table entry's key, for an offset in the routing tables (R400). -/
def routeKey (off : Nat) : Nat := (off - rROUTES) / 0x8000 * 4096 + (off - rROUTES) % 0x8000 / 8

/-- Does an offset of a function lie in the routing tables? -/
def isRoute (fn off : Nat) : Bool := fn == 0 && decide (rROUTES ≤ off) && decide (off < rROUTES + 0x10000)

/-- What a whole register reads as. Counts that the spec does not tie to the commands here (DBG_PERF_COUNT, PWR_PLANK_CYC) are free values;
a site of a confidential hood counts zero (R359). -/
def State.readFull (s : State) (fn off : Nat) : Nat × State :=
  if isRoute fn off then (((s.stl.routes.find (routeKey off)).getD 0).toNat, s)
  else
    match regInfo off with
    | none => (0, s)
    | some r =>
      if !r.inFn fn then (0, s)
      else
        match s.copyIdx fn r.scope with
        | none => (0, s)
        | some i =>
          if r.off = rDBG_PERF_COUNT ∧ (s.hoodsOfSite (s.reg rDBG_PERF_SEL 0 % 2048)).any (fun h => (s.hood h).block.conf) then (0, s)
          else if r.off = rDBG_PERF_COUNT ∨ r.off = rPWR_PLANK_CYC then let (f, s) := s.draw; (Config.choice f % 2 ^ 64, s)
          else
            match regViews.find? (fun e => e.1 == r.off) with
            | some e => (e.2 s fn i off, s)
            | none => (s.reg off i, s)

/-! ### Reaching a BAR (R218, R226, R227, R379) -/

/-- How an access to a BAR of a function ends: it reaches nothing, it completes with Unsupported Request (with the AER error where R226 or
R228 names it), or it goes on. -/
inductive Reach where
  | none | unsupported (aer : Bool) | ok
  deriving DecidableEq, Repr

/-- Can the port be reached: has the start let configuration requests be answered (R379), and does the link stand (R422)? -/
def State.portUp (s : State) : Bool :=
  let t := s.reg rTOP_START_STATE 0
  (t == 4 || t == 5 || t == 6) && !s.nap.perst && !s.nap.tripped && !s.nap.spine && !s.nap.refFault

/-- An access to a BAR: a function in D3hot answers configuration requests only; a locked or running device interface takes only accesses on
its IDE stream with the T bit set; in ERROR nothing of the hood crosses the port. -/
def State.reach (s : State) (fn : Nat) (ide : Bool) : Reach :=
  if !s.portUp then .none
  else if fn = 0 then (if (s.fn 0).d3hot then .unsupported false else .ok)
  else if !s.ready || !s.hoodExists (fn - 1) || !s.ariOk fn then .none
  else if (s.fn fn).d3hot || (s.hood (fn - 1)).tdi == 3 then .unsupported false
  else if (s.hood (fn - 1)).tdi != 0 && !(ide && (s.ideStream (fn - 1)).isSome) then .unsupported true
  else .ok

/-- Complete a request with Unsupported Request (R228). -/
def State.refuse (s : State) (fn : Nat) (aer : Bool) : State :=
  let s := s.toHost (.unsupported fn)
  if aer then (s.modFn fn (fun f => { f with aer := f.aer ||| 4 })).toHost (.aer fn 2) else s

/-- What an access that reaches a BAR does. -/
def State.onBar (s : State) (fn : Nat) (ide : Bool) (eff : State → State) : State :=
  match s.reach fn ide with
  | .none => s
  | .unsupported a => s.refuse fn a
  | .ok => eff s

/-- In RECOVERY and ERROR the PF presents only the TOP and SEC blocks (R379, R381). -/
def State.presents (s : State) (off : Nat) : Bool := s.reg rTOP_START_STATE 0 == 4 || off / 0x10000 == 0 || off / 0x10000 == 13

/-- Is a 64-bit register at this offset, in this function? A name that a function does not have is RSV there (R394). -/
def wideAt (fn off : Nat) : Bool :=
  (isRoute fn off && off % 8 == 0) || (match regInfo off with | some r => r.wide && r.inFn fn | none => false)

/-- The last byte of BAR0 (R220). -/
def bar0Size (fn : Nat) : Nat := if fn = 0 then 0x4000000 else 0x100000

/-- Is an access one of those of R12: unaligned, narrower than 32 bits, or 64 bits wide where there is no 64-bit register? `w` in bytes. -/
def badAccess (fn off w : Nat) : Bool :=
  !((w == 4 && off % 4 == 0) || (w == 8 && off % 8 == 0 && wideAt fn off))

/-- A read of BAR0 (R11, R12). A 32-bit read of a lower half latches the upper half, and the next 32-bit read of the upper half returns it; the
latch is the function's at that offset, whatever copy a selector names by then (log entry 102). -/
def State.readBar0 (s : State) (fn off w : Nat) : State :=
  if bar0Size fn ≤ off then s.refuse fn true
  else if badAccess fn off w then (s.errCount fn).toHost (.read fn off (BitVec.allOnes 64))
  else if !s.presents off then s.toHost (.read fn off 0)
  else
    let key := 2 ^ 26 * fn + off
    if w = 8 then
      let (v, s) := s.readFull fn off
      s.toHost (.read fn off (BitVec.ofNat 64 v))
    else if wideAt fn off then
      let (v, s) := s.readFull fn off
      let s := { s with halves := upd s.halves key (fun h => { h with rd := some (BitVec.ofNat 32 (v / 2 ^ 32)) }) }
      s.toHost (.read fn off (BitVec.ofNat 64 (v % 2 ^ 32)))
    else if 4 ≤ off ∧ wideAt fn (off - 4) then
      match (at' s.halves (key - 4)).rd with
      | some v => ({ s with halves := upd s.halves (key - 4) (fun h => { h with rd := none }) }).toHost (.read fn off (v.setWidth 64))
      | none =>
        let (v, s) := s.readFull fn (off - 4)
        s.toHost (.read fn off (BitVec.ofNat 64 (v / 2 ^ 32)))
    else
      let (v, s) := s.readFull fn off
      s.toHost (.read fn off (BitVec.ofNat 64 v))

end Sys2Proof.Machine
end

