-- ==== Sys2Proof/Machine/ResetStart.lean ====
section
/-!
DEFINITION. Machine/ResetStart.lean: cold start and restart (R377 to R381), package reset (R380, R219), resets and the enabling of
functions (R373, R382, R383, R395), Bus Master Enable (R225) and the reference check (R320).
-/
namespace Sys2Proof.Machine

/-! ### The start sequence (Table 3 of Reset) -/

def State.startState (s : State) (v : Nat) : State := s.setReg rTOP_START_STATE 0 v

def State.hatStep (s : State) (n : Nat) : State := { s with hat := { s.hat with step := n } }

/-- Command rails on, target voltage first (R410); false where one of them is not in regulation (R378). -/
def State.railsOn (s : State) (l : List Nat) (stuck : Option Nat) : State × Bool :=
  let l := l.filter (fun r => !s.hat.rails.contains r)
  let s := l.foldl (fun s r => (s.toBoard (.railVolt r)).toBoard (.railOn r)) s
  let bad := stuck.filter (fun r => l.contains r)
  ({ s with hat := { s.hat with rails := s.hat.rails ++ l.filter (fun r => some r != bad), stuck := bad } }, bad.isNone)

def spineRails : List Nat := [8, 14, 13]
def coreRails : List Nat := [0, 1, 2, 3, 4, 5, 6, 7, 9, 10, 11, 12]

/-- The hatter enters its error state (R347, R378): HATTERFAIL, every plank gated, START_STATE = ERROR. -/
def State.hatterError (s : State) : State :=
  let s := { s with nap := { s.nap with hatFail := true } }
  let s := forN 128 s (fun s p => s.gatePlank p)
  (s.alert 4).startState 6

/-- Apply the repair map (step 9): retired sites and channels held isolated, spares assigned. -/
def State.applyMap (s : State) : State :=
  let f := s.hat.flash
  let s := f.spares.foldl (fun s p => s.modPlank p (fun k => { k with spare := true })) s
  let s := f.retiredSites.foldl (fun s i => s.modSite i (fun k => { k with retired := true, isol := true })) s
  let s := f.retiredChans.foldl (fun s c => s.modChan c (fun k => { k with retired := true, isol := true })) s
  s.setReg rTOP_ACTIVE_TILES 0 s.activeTiles

/-- Erase every channel and self-test every plank (step 10); a site that fails is isolated and reported to the PF. -/
def State.eraseAll (s : State) (failSites failChans : List Nat) : State :=
  let s := (s.startState 3).hatStep 9
  let s := { s with mem := [], poison := [] }
  let s := forN 8 s (fun s n => s.modStack n (fun k => { k with erases := [] }))
  let s := failChans.foldl (fun s c => if c < 256 then s.isolateChan c else s) s
  let s := failSites.foldl (fun s i =>
    if 1664 ≤ i then s
    else if s.siteActive i then s.isolateSite i
    else if i % 13 = 12 && !(s.site i).retired then s.modPlank (plankOf i) (fun k => { k with spareBad := true })
    else s) s
  forN 128 s (fun s p => s.modPlank p (fun k => { k with gated := true }))

/-- READY (step 12), with a pool key (R354) and the AUTOCOMMIT of the class 0 image that has run (R353). -/
def State.reachReady (s : State) : State :=
  let s := ((s.hatStep 12).startState 4).alert 8
  let s := { s with nap := { s.nap with refCheck := true } }
  let s := if s.nap.classB then s else s.newKey 32
  let s := if s.hat.flash.auto.getD 0 false then s.autoCommit 0 (s.hat.running.headD 0) else s
  s.changeCap

/-- Start or restart the firmware (step 6): Alias needs the DeviceID key, which a class B singe has erased (R369). -/
def State.startFirmware (s : State) : State :=
  let (n, s) := s.draw
  { s with hat := { s.hat with runs := true, aliasKey := s.hat.table3, nonce := n } }

/-- Put a verified staged class 0 image into force (R351, R380). -/
def State.activate0 (s : State) : State :=
  match s.hat.staged.find 0 with
  | some im =>
    if s.reg rSEC_UPD_STATUS 0 % 8 = 3 then
      let f := s.hat.flash
      let s := { s with hat := { s.hat with
        staged := s.hat.staged.erase 0, running := s.hat.running.set 0 im.svn
        flash := { f with imgSvn := f.imgSvn.set 0 im.svn, auto := f.auto.set 0 im.auto, image0Ok := true } } }
      s.setReg rSEC_UPD_STATUS 0 0
    else s
  | none => s

/-- Steps 9 to 12. -/
def State.fromMap (s : State) (failSites failChans : List Nat) : State :=
  ((s.applyMap).eraseAll failSites failChans).reachReady

/-- Steps 7 to 12; the trims of step 8 are calibrated. -/
def State.fromCore (s : State) (failSites failChans : List Nat) (stuck : Option Nat) : State :=
  let s := (s.hatStep 6).startState 2
  let (s, ok) := s.railsOn coreRails stuck
  if !ok then s
  else ({ (s.hatStep 8) with hat := { (s.hatStep 8).hat with calib := true } }).fromMap failSites failChans

/-- Steps 4 to 12: the tests of R347, the flash (R5, R350 to R352), and the firmware. -/
def State.fromRom (s : State) (kat : Bool) (failSites failChans : List Nat) (stuck : Option Nat) : State :=
  let s := (s.hatStep 3).startState 1
  if !kat then s.hatterError
  else
    let s := (s.hatStep 4).activate0
    let f := s.hat.flash
    let keys := f.present && f.recordsOk && !s.nap.classB
    let s := { s with hat := { s.hat with table3 := keys, serial := if keys then Config.deviceSerial else s.hat.serial }, nap := { s.nap with countKey := keys } }
    let s := if f.present && f.recordsOk then
        { s with power := { s.power with board := f.boardMax } }.setReg rPWR_BOARD_MAX 0 f.boardMax
      else s
    if !(f.present && f.recordsOk && f.rpmbOk && f.image0Ok) then ((s.startFirmware).startState 5).alert 3
    else
      let s := { s with hat := { s.hat with running := s.hat.running.set 0 (f.imgSvn.getD 0 0) } }
      (s.startFirmware).fromCore failSites failChans stuck

/-- Steps 3 to 12. -/
def State.fromSpine (s : State) (kat : Bool) (failSites failChans : List Nat) (stuck : Option Nat) : State :=
  let (s, ok) := (s.hatStep 2).railsOn spineRails stuck
  if !ok then s else s.fromRom kat failSites failChans stuck

/-- A package without power: only its environment stands. -/
def State.dark (s : State) : State :=
  { State.reset with pending := s.pending, free := s.free, hostMem := s.hostMem, farMem := s.farMem, outs := s.outs }

/-- The staging areas of the flash: the verified images in them, and their SEC_UPD_STATUS (R351, R372). -/
def State.stagedImages (s : State) : Table Image × Table (BitVec 64) :=
  let good := fun (c : Nat) => s.reg rSEC_UPD_STATUS c % 8 == 3
  (s.hat.staged.filter (fun e => good e.1), s.regs.filter (fun e => e.1 / 8192 == rSEC_UPD_STATUS && good (e.1 % 8192)))

/-- What a cold start finds in the configuration flash: what the hatter has written there stands (R4, R352, R353, R386); whether it is there and verifies
is found anew. A flash not seen before is the one the command names (log entry 101). -/
def foundFlash (old f : FlashImage) : FlashImage :=
  if old.present then { old with present := f.present, recordsOk := f.recordsOk, rpmbOk := f.rpmbOk, image0Ok := f.image0Ok } else f

/-- COLD_START (R377): nothing else is kept, the counter starts at zero, and the nap domain begins the sequence. -/
def coldStartEff (f : FlashImage) (kat : Bool) (failSites failChans : List Nat) (stuck : Option Nat) (s : State) : State :=
  let f := foundFlash s.hat.flash f
  let (im, rg) := s.stagedImages
  let s := s.dark
  let s := { s with
    nap := { s.nap with pgood := true }, hat := { s.hat with flash := f, running := f.imgSvn, staged := if f.present then im else [] }
    regs := if f.present then rg else s.regs }
  s.fromSpine kat failSites failChans stuck

/-- A package that is powered already has no cold start. -/
def execColdStart (f : FlashImage) (katOk : Bool) (failSites failChans : List Nat) (stuck : Option Nat) (s : State) :
    Host.Outcome State Fault Refusal :=
  .next (if s.nap.pgood then s else finish s (coldStartEff f katOk failSites failChans stuck s))

/-- HATTER_START_TIMEOUT (R378): step 6 has not completed. -/
def hatterStartTimeoutEff (s : State) : State := if s.hat.runs || s.nap.hatFail || s.nap.perst then s else s.hatterError

def execHatterStartTimeout (s : State) : Host.Outcome State Fault Refusal := run true hatterStartTimeoutEff s

/-- RAIL_REGULATION_TIMEOUT (R378): REGFAULT; the package has stopped at that step. -/
def railRegulationTimeoutEff (rail : Nat) (s : State) : State := if s.hat.stuck = some rail then s.alert 2 else s

def execRailRegulationTimeout (rail : Nat) (s : State) : Host.Outcome State Fault Refusal :=
  run (decide (rail < 15)) (railRegulationTimeoutEff rail) s

/-- Command every rail off in the reverse order (R410). -/
def State.railsOff (s : State) : State := s.hat.rails.reverse.foldl (fun s r => s.toBoard (.railOff r)) s

/-- PGOOD_NAP_FALL (R410): every rail off, and the nap domain is lost (R15). The flash is not volatile. -/
def pgoodNapFallEff (s : State) : State :=
  let t := (s.railsOff).dark
  let (im, rg) := s.stagedImages
  { t with hat := { t.hat with flash := s.hat.flash, staged := im }, regs := rg }

def execPgoodNapFall (s : State) : Host.Outcome State Fault Refusal := run true pgoodNapFallEff s

/-! ### Package reset (R373, R380) -/

/-- What PERST# and DL_Down leave: the nap domain, SEC_SINGE_CLASS, the hatter's Table 3 keys other than Alias, calibration, staged
images that are verified, and what stands of isolation and repair (R26). -/
def State.packageReset (s : State) : State :=
  let t := s.dark
  let keepSite := s.sites.map (fun (e : Nat × Site) => (e.1, { isol := e.2.isol, retired := e.2.retired : Site }))
  let keepPlank := s.planks.map (fun (e : Nat × Plank) => (e.1, { isol := e.2.isol, spare := e.2.spare, spareBad := e.2.spareBad : Plank }))
  let keepChan := s.chans.map (fun (e : Nat × Chan) => (e.1, { isol := e.2.isol, retired := e.2.retired, dead := e.2.dead : Chan }))
  let keepStack := s.memStacks.map (fun (e : Nat × Stack) => (e.1, { isol := e.2.isol, fast := e.2.fast : Stack }))
  let (im, rg) := s.stagedImages
  { t with
    nap := { s.nap with perst := true }
    hat := {
      step := s.hat.step, rails := s.hat.rails, calib := s.hat.calib, table3 := s.hat.table3, flash := s.hat.flash, serial := s.hat.serial
      running := s.hat.running, staged := im }
    regs := s.regs.filter (fun (e : Nat × BitVec 64) => e.1 / 8192 == rSEC_SINGE_CLASS || e.1 / 8192 == rPWR_BOARD_MAX ||
      (rg.find e.1).isSome || (e.1 / 8192 == rTOP_START_STATE && s.nap.hatFail))
    sites := keepSite.filter (fun e => e.2 != default), planks := keepPlank.filter (fun e => e.2 != default)
    chans := keepChan.filter (fun e => e.2 != default), memStacks := keepStack.filter (fun e => e.2 != default)
    mem := s.mem, poison := s.poison, thermal := s.thermal, power := { board := s.power.board } }

/-- The restart after PERST# deasserts (R380). -/
def State.restart (s : State) (refOk kat : Bool) (failSites : List Nat) (stuck : Option Nat) : State :=
  let trip := s.nap.tripped
  let s := { s with nap := { s.nap with perst := false, tripped := false, refFault := s.nap.refFault && !refOk } }
  if s.nap.hatFail then s.startState 6
  else if trip then s.fromSpine kat failSites [] stuck
  else if s.hat.step = 12 then ((s.activate0).startFirmware).fromMap failSites []
  else if spineRails.all s.hat.rails.contains then s.fromRom kat failSites [] stuck
  else s.fromSpine kat failSites [] stuck

/-- After a hardware trip a PERST# is ignored until every sensor reads below 95 °C (R340). -/
def State.cool (s : State) : Bool := s.thermal.temps.all (fun e => decide (e.2 < 760))

def execPerst (s : State) : Host.Outcome State Fault Refusal :=
  run true (fun s => if s.nap.perst || (s.nap.tripped && !s.cool) then s else s.packageReset) s

def execPerstDeassert (refOk katOk : Bool) (failSites : List Nat) (stuck : Option Nat) (s : State) : Host.Outcome State Fault Refusal :=
  run true (fun s => if s.nap.perst then s.restart refOk katOk failSites stuck else s) s

/-- DL_DOWN (R219): a package reset with PCIEDOWN. No PERST# follows, so the restart of R380 runs at once, with its tests passing (log
entry 23). The link of a package that a hardware trip has stopped goes down too (R340): PCIEDOWN alone. -/
def dlDownEff (s : State) : State :=
  if s.nap.perst then s
  else if s.nap.tripped then s.alert 6
  else ((s.alert 6).packageReset).restart (!s.nap.refFault) true [] none

def execDlDown (s : State) : Host.Outcome State Fault Refusal := run true dlDownEff s

/-! ### Functions -/

/-- Registers of a VF that its function-level reset returns to reset values (R395); XLT_FQ_PI goes with XLT_FQ_CI, so that the queue stays empty
(R116, log entry 107). -/
def vfRegReset (h key : Nat) : Bool :=
  match regInfo (key / 8192) with
  | some r =>
    (r.scope == .fn && key % 8192 == h + 1 && r.off != rSEC_SINGE_CLASS && r.off != rHOST_CLAMP_ROW && r.off != rTOP_TS_DEV) ||
      (r.scope == .hood && key % 8192 == h && (r.rwV != 0 || r.off == rXLT_FQ_PI))
  | none => false

/-- Return a VF's configuration state, interrupt tree, MSI-X state and registers to reset values (R236, R395), with the clamp counts of its
contexts (R265). -/
def State.clearVf (s : State) (h : Nat) : State :=
  let s := { s with
    regs := s.regs.dropIf (vfRegReset h), fns := s.fns.erase (h + 1)
    halves := s.halves.dropIf (fun k => k / 2 ^ 26 == h + 1) }
  (s.hoodCtxs h).foldl (fun s c => s.setReg rCTX_CLAMP c 0) s

/-- FUNCTION_LEVEL_RESET (R373, R227, R236, R395): no effect on a VF that does not exist (R383). -/
def flrEff (h : Nat) (s : State) : State :=
  if !s.ready || !s.hoodExists h then s
  else
    let s := (s.emptyFaults h).clearVf h
    let s := if (s.hood h).created && (s.hood h).block.conf then s.tdiError h 1 else s
    (s.resetHood h).repairGo

def execFunctionLevelReset (h : Nat) (s : State) : Host.Outcome State Fault Refusal := run (decide (h < 16)) (flrEff h) s

/-- VF Enable is cleared: each hood takes the disable path, beginning with its hood reset (R382); a queued enable is dropped (R383). -/
def vfClearEff (s : State) : State :=
  if !s.ready then s
  else
    let s := { s with front := { s.front with vfEn := false, enQ := false } }
    State.repairGo <| forN 16 s (fun s h =>
      let v := (s.hood h).vf
      if v = 1 then
        let s := ((s.modHood h (fun k => { k with vf := 2 })).emptyFaults h).clearVf h
        let s := { s with front := { s.front with heldBlk := s.front.heldBlk.filter (fun e => e.2.1 != h) } }
        s.resetHood h
      else if v = 3 then s.modHood h (fun k => { k with vf := 2 })
      else s)

def execVfEnableClear (s : State) : Host.Outcome State Fault Refusal := run true vfClearEff s

/-- Registers of the PF (R395): those of its function, and every package and per-hood register it can write, but for the package ID
that an ENABLE has fixed (R205) and a pool with bytes granted (Table 7 of Register Reference). -/
def pfRegReset (idFixed poolUsed : Bool) (key : Nat) : Bool :=
  let off := key / 8192
  match regInfo off with
  | some r =>
    !(off == rSTL_PKG_ID && idFixed) && !(poolUsed && rHOOD_POOL_CHAN ≤ off && off < rHOOD_POOL_BUDGET) && r.off != rSEC_SINGE_CLASS &&
      ((r.scope == .fn && key % 8192 == 0) || ((r.scope == .pkg || r.scope == .hood || r.scope == .hoodp || r.scope == .stack) && r.rwP != 0 && off != rTOP_ALERT_EN))
  | none => false

/-- PF_FUNCTION_LEVEL_RESET (R219, R395). -/
def pfFlrEff (s : State) : State :=
  if !s.ready then s
  else
    let s := vfClearEff s
    let used := s.reg rHOOD_POOL_USED 0 != 0
    let s := { s with
      regs := s.regs.dropIf (pfRegReset s.stl.idFixed used), fns := s.fns.erase 0, halves := s.halves.dropIf (fun k => k / 2 ^ 26 == 0)
      front := { s.front with bases := [] } }
    ((forN 16 s (fun s h => s.modHood h (fun k => { k with held := k.frozen, ucOld := none }))).bandCheck).changeCap

def execPfFunctionLevelReset (s : State) : Host.Outcome State Fault Refusal := run true pfFlrEff s

/-- The hoods below NumVFs exist and are Free (R220, R383). -/
def State.enableVfs (s : State) (n : Nat) : State :=
  let s := { s with front := { s.front with vfEn := true, numVfs := n, enQ := false } }
  forN n s (fun s h => s.modHood h (fun k => { k with vf := 1 }))

/-- VF_ENABLE_SET (R220, R383): queued while any hood is on its disable path. -/
def vfSetEff (n : Nat) (s : State) : State :=
  if !s.ready || s.front.vfEn || s.front.enQ then s
  else if (List.range 16).any (fun h => (s.hood h).vf == 2) then
    let s := { s with front := { s.front with enQ := true, enNum := n } }
    forN 16 s (fun s h => if (s.hood h).vf = 2 then s.modHood h (fun k => { k with vf := 3 }) else s)
  else s.enableVfs n

def execVfEnableSet (numVfs : Nat) (s : State) : Host.Outcome State Fault Refusal := run (decide (numVfs ≤ 16)) (vfSetEff numVfs) s

/-- DISABLE_PATH_COMPLETE (R382, R383): the block is unbound, the device interface is gone with its VF, and a queued enable takes effect
after the last path. -/
def disablePathEff (h : Nat) (s : State) : State :=
  let v := (s.hood h).vf
  if v = 2 ∨ v = 3 then
    let s := if (s.hood h).created then s.unbindHood h else s
    let s := (s.setReg rHOOD_BLK_STATUS h 0).modHood h (fun k => { k with vf := 0, tdi := 0 })
    if s.front.enQ && !(List.range 16).any (fun g => 2 ≤ (s.hood g).vf) then s.enableVfs s.front.enNum else s
  else s

def execDisablePathComplete (h : Nat) (s : State) : Host.Outcome State Fault Refusal := run (decide (h < 16)) (disablePathEff h) s

/-- Values a configuration write can set (R218, R224): Max Payload Size up to 512 bytes, the six rates, the widths of the port, L0p widths, and
translation units from 4 KiB up. -/
def cfgOk (c : FnCfg) : Bool :=
  decide (c.maxPay ≤ 2) && decide (c.maxRd ≤ 5) && decide (c.tags ≤ 2) && decide (1 ≤ c.rate) && decide (c.rate ≤ 6) &&
    [1, 2, 4, 8, 16].contains c.width && [2, 4, 8, 16].contains c.l0p && decide (c.stu < 32)

/-- What was held while the requests of a function did not cross the port goes on (R225, R227): its MSI-X message if it may still be sent (R232); for a
hood its event entries, doorbell records and accesses; for the PF the records, images and signed requests that wait. -/
def State.portBack (s : State) (fn : Nat) : State :=
  if !s.mayAsk fn then s
  else
    let held := (s.fn fn).bmeHeld
    let s := s.modFn fn (fun f => { f with bmeHeld := false })
    let s := if held && s.msiOn fn then s.trySend fn else s
    if fn = 0 then
      let s := s.front.heldBlk.foldl (fun (s : State) e =>
        ({ s with front := { s.front with heldBlk := s.front.heldBlk.erase e } }).blkRun e.1 e.2.1 e.2.2.1 e.2.2.2) s
      let s : State := if s.reg rSEC_REQ_STATUS 0 = 1 then s.secRun else s
      let s : State := if s.reg rDBG_TOKEN_STATUS 0 = 1 then s.dbgRun else s
      s.servicesGo
    else s.hostBack (fn - 1)

/-- BUS_MASTER_ENABLE_CHANGE: a configuration write sets the function's enables and controls (R218, R224, R225). A cleared Function Mask sends what
pends (R232); a set Bus Master Enable releases what is held. The link's controls and ARI are the PF's (log entry 97). -/
def bmeEff (fn : Nat) (c : FnCfg) (s : State) : State :=
  if !s.fnOn fn || !s.ariOk fn then s
  else
    let old := s.fn fn
    let s := s.modFn fn (fun f => { f with
      bme := c.bme, mse := c.mse, fmask := c.fmask, relax := c.relax, maxPay := c.maxPay, maxRd := c.maxRd
      ats := if fn = 0 then f.ats else c.ats, stu := if fn = 0 then f.stu else c.stu
      pasid := if fn = 0 then c.pasid else f.pasid, pri := if fn = 0 then c.pri else f.pri
      tags := if fn = 0 then c.tags else f.tags, ari := if fn = 0 then c.ari else f.ari, rate := if fn = 0 then c.rate else f.rate
      width := if fn = 0 then c.width else f.width, l0p := if fn = 0 then c.l0p else f.l0p })
    let s := if old.fmask && !c.fmask && !old.masked && old.pba && s.msiOn fn then (s.modFn fn (fun f => { f with pba := false })).trySend fn else s
    if c.bme then s.portBack fn else s

def execBusMasterEnableChange (fn : Nat) (bme mse fmask : Bool) (ctl : FnCtl) (s : State) : Host.Outcome State Fault Refusal :=
  run (decide (fn < 17) && cfgOk ⟨ctl, bme, mse, fmask⟩) (bmeEff fn ⟨ctl, bme, mse, fmask⟩) s

/-- REFERENCE_CHECK_FAULT (R320), once the check is active (step 11 of R377). The Stader links drop with the planks, and so does the PCIe link (R422). -/
def referenceFaultEff (s : State) : State :=
  if !s.nap.refCheck then s
  else
    let s := { s with nap := { s.nap with refFault := true } }
    let s := forN 128 s (fun s p => s.gatePlank p)
    let s := (s.failAll s.liveHoods 1 none).alert 10
    forN 40 s (fun s l => if (s.link l).st = 2 then s.loseLink l else s)

def execReferenceCheckFault (s : State) : Host.Outcome State Fault Refusal := run true referenceFaultEff s

end Sys2Proof.Machine
end

