-- ==== Sys2Proof/Machine/PowerCmds.lean ====
section
/-!
DEFINITION. Machine/PowerCmds.lean: gating, barriers with fulling and issue ramps (R138, R323, R331, R334), staged changes and the power
estimate (R325, R337), steps and droop (R322, R335, R336), emergencies (R338), board power (R409), heat (R96, R339, R340), the power group
(R332, R333) and the start of a hatband window (R315). Temperatures are in 1/8 °C.
-/
namespace Sys2Proof.Machine

/-! ### Gating (R323) -/

/-- Is a site held by a claim, a dispatched kernel, or a save or restore in progress? -/
def State.siteBusy (s : State) (i : Nat) : Bool := (s.hoodsOfSite i).any (fun h => (s.claimedBy h).any (fun e => s.siteOf h e.1 == i))

/-- PLANK_GATE_IDLE: an owned plank with no busy site is gated. -/
def gateIdleEff (p : Nat) (s : State) : State :=
  let k := s.plank p
  if k.gated || k.isol || k.saveWait || (sitesOf p).any s.siteBusy then s
  else (s.gatePlank p).modPlank p (fun k => { k with n := k.target, stepping := false, susp := false, droop := false, ramp := 0 })

def execPlankGateIdle (p : Nat) (s : State) : Host.Outcome State Fault Refusal := run (decide (p < 128)) (gateIdleEff p) s

/-! ### The power group's boundaries (R332) -/

/-- Has a hood ring peers in the power group? -/
def State.ringInGroup (s : State) (h : Nat) : Bool :=
  s.groupOn && s.rots.any (fun e => e.2.hood == h + 1 && (s.members.contains e.2.next || s.members.contains e.2.prev))

/-- A member takes a new offset from the leader: a fall is staged at once, a rise waits 11 ms. -/
def State.takeShift (s : State) (seq : Nat) (off : Int) (time : Nat) : State :=
  let p := s.power
  let s := { s with power := { p with grpSeq := seq, latest := time, lastShift := s.now } }
  let goal := p.rise.getD (p.fall.getD p.off)
  if off = goal then s
  else if off < p.fall.getD p.off then ({ s with power := { s.power with fall := some off, rise := none } }).changeCap
  else { s with power := { s.power with rise := some off, riseAt := s.now } }

/-- The leader tells a member its offset; the boundary time in the member's own counter is open (log entry 11). -/
def State.sendShift (s : State) (i : Nat) : State :=
  let off := (s.power.offs.find i).getD 0
  if i = s.selfIdx then s.takeShift s.power.grpSeq off s.now
  else
    let (f, s) := s.draw
    let m := s.members.getD i 0
    s.stlSend (s.dieFor m) m none (.shift s.power.grpSeq off (Config.choice f))

/-- PWR_CAP of a member. -/
def State.capOf (s : State) (i : Nat) : Nat := if i = s.selfIdx then s.reg rPWR_CAP 0 % 8192 else Config.memberCap (s.members.getD i 0)

/-- The leader holds a lateness of every member: it moves 1 % of the smaller cap from the earliest member to the latest. The lateness of
Table 3 runs from a member's boundary to the latest one, so the earliest has the largest. -/
def State.moveCap (s : State) : State :=
  let n := s.members.length
  let late := fun i => (s.power.late.find i).getD 0
  if (List.range n).any (fun i => (s.power.late.find i).isNone) then s
  else
    let e := (List.range n).foldl (fun a i => if late a < late i then i else a) 0
    let l := (List.range n).foldl (fun a i => if late i < late a then i else a) 0
    let s := { s with power := { s.power with late := [] } }
    if e = l then s
    else
      let off := fun i => (s.power.offs.find i).getD 0
      let lim := fun i => ((s.reg rPWR_GRP_CFG 0 / 128 % 32 * s.capOf i / 100 : Nat) : Int)
      let amt := min ((min (s.capOf e) (s.capOf l) / 100 : Nat) : Int) (min (off e + lim e) (lim l - off l))
      if amt ≤ 0 then s
      else
        let s := { s with power := { s.power with
          grpSeq := (s.power.grpSeq + 1) % 2 ^ 32, offs := (s.power.offs.insert e (off e - amt)).insert l (off l + amt), lastShift := s.now } }
        (s.sendShift e).sendShift l

/-- A collective boundary of a hood with ring peers in the group: ARRIVE goes to the leader. -/
def State.groupBoundary (s : State) (h : Nat) : State :=
  if !s.ringInGroup h then s
  else
    let lat := min (s.power.latest - s.power.bound) (2 ^ 32 - 1)
    let s := { s with power := { s.power with bound := s.now } }
    if s.selfIdx = 0 then ({ s with power := { s.power with late := s.power.late.insert 0 lat } }).moveCap
    else
      let m := s.members.getD 0 0
      s.stlSend (s.dieFor m) m none (.arrive s.selfIdx m s.power.grpSeq lat)

/-! ### Barriers (R138, R331, R334) -/

/-- The last arrival: the hub releases the barrier; weights and staged changes follow. -/
def State.barDone (s : State) (u : Nat) : State :=
  let h := u / 64
  let b := s.bar u
  let ps := ((b.arrived.map (fun t => plankOf (s.siteOf h t))).eraseDups)
  let s := s.modBar u (fun b => { b with arrived := [], times := [], fulling := 0 })
  let s := ((s.reweigh h b.times).applyStage h).redivide s.capNow (fun p => s.sitesOn h p != 0 && !(s.power.staged.any (fun g => g != h && s.sitesOn g p != 0)))
  let s := if b.fulling = 2 then s.startRamp ps else s
  (s.barRelease u).groupBoundary h

/-- BARRIER_ARRIVAL (R138): stale generations are discarded (R376); an arrival from outside the block is discarded and counted (R19). -/
def arrivalEff (u i gen : Nat) (s : State) : State :=
  let h := u / 64
  let k := s.hood h
  if (s.bar u).owner != h + 1 || gen != k.gen then s
  else if !k.block.tmap.contains i then s.reject h
  else
    let t := k.block.tmap.idxOf i
    let ms := s.barMembers u
    if !ms.contains t || (s.bar u).arrived.contains t then s
    else
      let s := s.modBar u (fun b => { b with
        arrived := b.arrived.filter ms.contains ++ [t], times := b.times.filter (fun p => ms.contains p.1) ++ [(t, s.now)]
        fulling := if b.fulling = 0 then 1 else b.fulling })
      if ms.all (s.bar u).arrived.contains then s.barDone u else s

def execBarrierArrival (unit site gen : Nat) (s : State) : Host.Outcome State Fault Refusal :=
  run (decide (unit < 1024) && decide (site < 1664)) (arrivalEff unit site gen) s

/-- FULLING_HOLD_END (R334): PWR_FULL_HOLD after the first arrival. -/
def fullingEndEff (u : Nat) (s : State) : State :=
  let b := s.bar u
  match b.times with
  | (_, t) :: _ => if b.fulling = 1 && decide (t + s.reg rPWR_FULL_CFG 0 % 256 * 1000 ≤ s.now) then s.modBar u (fun b => { b with fulling := 2 }) else s
  | [] => s

def execFullingHoldEnd (unit : Nat) (s : State) : Host.Outcome State Fault Refusal := run (decide (unit < 1024)) (fullingEndEff unit) s

/-- ISSUE_RAMP_STAGE (R334): 25 %, 50 %, 75 %, full. -/
def rampStageEff (p : Nat) (s : State) : State :=
  s.modPlank p (fun k => { k with ramp := match k.ramp with | 1 => 2 | 2 => 3 | _ => 0 })

def execIssueRampStage (p : Nat) (s : State) : Host.Outcome State Fault Refusal := run (decide (p < 128)) (rampStageEff p) s

/-! ### Staged changes and the estimate (R325, R337) -/

/-- CAP_STAGE_TIMEOUT (R337): 10 ms without a release. -/
def execCapStageTimeout (h : Nat) (s : State) : Host.Outcome State Fault Refusal := run (decide (h < 16)) (fun s => s.applyStage h) s

/-- The limit that R325 applies now: during a change and for 10 ms after it, the higher of the two caps (R337). -/
def State.powerLimit (s : State) : Nat :=
  if s.power.capWait || decide (s.now < s.power.capTime + 10000000) then max s.power.oldCap s.power.newCap else s.reg rPWR_CAP_EFF 0 % 8192

/-- An electrical emergency (R338): every awake plank is stretched, and a change in progress is suspended. -/
def State.emergency (s : State) (regulator : Bool) : State :=
  let s := if regulator then s.alert 2 else s
  let s := { s with power := { s.power with emerg := 1 } }
  let s := forN 128 s (fun s p =>
    let k := s.plank p
    if k.gated then s else s.modPlank p (fun k => { k with droop := true, susp := k.susp || k.stepping, stepping := false }))
  s.lapse (fun _ p => !(s.plank p).gated)

/-- POWER_ESTIMATE_TICK (R325): new estimates and the package's average; more than 10 % above the limit is an emergency. -/
def estimateEff (watts : Nat) (est : List (Nat × Nat)) (s : State) : State :=
  let s := { s with power := { s.power with
    est := est.foldl (fun (m : Table (Nat × Nat)) (e : Nat × Nat) => if e.1 < 128 then m.insert e.1 (e.2, (s.plank e.1).n) else m) s.power.est } }
  let s := s.setReg rPWR_PKG_POWER 0 (min watts 65535)
  if s.powerLimit * 11 < watts * 10 && s.power.emerg == 0 then s.emergency false else s.repower

def execPowerEstimateTick (pkgWatts : Nat) (est : List (Nat × Nat)) (s : State) : Host.Outcome State Fault Refusal :=
  run true (estimateEff pkgWatts est) s

/-! ### Steps and droop (R322, R335, R336) -/

/-- Start or suspend the steps of a plank toward its target. -/
def Plank.go (k : Plank) : Plank :=
  let want := k.n != k.target && !k.gated
  let block := k.droop || k.holdoff
  { k with stepping := want && !block, susp := want && block }

/-- FREQ_STEP_COMPLETE (R322): one step, then the next. -/
def stepDoneEff (p : Nat) (s : State) : State :=
  if (s.plank p).stepping then
    s.modPlank p (fun k => ({ k with n := if k.n < k.target then k.n + 1 else k.n - 1 }).go)
  else s

def execFreqStepComplete (p : Nat) (s : State) : Host.Outcome State Fault Refusal := run (decide (p < 128)) (stepDoneEff p) s

/-- DROOP_TRIP (R335, R336): not on a gated plank; a step in progress is abandoned. -/
def droopTripEff (p : Nat) (s : State) : State :=
  let k := s.plank p
  if k.gated || k.droop then s
  else ((s.modPlank p (fun k => ({ k with droop := true }).go)).countReg rPWR_PLANK_DROOP p 1).lapsePlank p

def execDroopTrip (p : Nat) (s : State) : Host.Outcome State Fault Refusal := run (decide (p < 128)) (droopTripEff p) s

/-- DROOP_STRETCH_END (R335): the hold-off of 5 µs begins. An emergency stretch ends under R338 only. -/
def stretchEndEff (p : Nat) (s : State) : State :=
  if (s.plank p).droop && s.power.emerg == 0 then s.modPlank p (fun k => { k with droop := false, holdoff := true }) else s

def execDroopStretchEnd (p : Nat) (s : State) : Host.Outcome State Fault Refusal := run (decide (p < 128)) (stretchEndEff p) s

/-- DROOP_HOLDOFF_END (R336): a suspended change resumes toward the target in force. -/
def holdoffEndEff (p : Nat) (s : State) : State :=
  if (s.plank p).holdoff then s.modPlank p (fun k => ({ k with holdoff := false }).go) else s

def execDroopHoldoffEnd (p : Nat) (s : State) : Host.Outcome State Fault Refusal := run (decide (p < 128)) (holdoffEndEff p) s

/-- The point R327 gives a plank, and whether it is locked there; a plank outside the division keeps its target. -/
def State.pointOf (s : State) (p : Nat) : Nat × Bool :=
  match (s.division s.capNow).find? (fun e => e.1 == p) with
  | some (_, n, l) => (n, l)
  | none => ((s.plank p).target + (s.plank p).lowered, (s.plank p).locked)

/-- DROOP_INTERVAL_END (R336): one more point below, or one point back toward, the point that R327 gives. -/
def intervalEff (p : Nat) (overHalf : Bool) (s : State) : State :=
  let (n, l) := s.pointOf p
  let k := s.plank p
  if k.gated then s
  else
    let v := if overHalf then min (k.lowered + 1) n else k.lowered - 1
    if v = k.lowered then s else (s.modPlank p (fun k => { k with lowered := v })).aim p n l

def execDroopIntervalEnd (p : Nat) (overHalf : Bool) (s : State) : Host.Outcome State Fault Refusal :=
  run (decide (p < 128)) (intervalEff p overHalf) s

/-! ### Emergencies and the board (R338, R409) -/

def execElectricalEmergency (regulator : Bool) (s : State) : Host.Outcome State Fault Refusal := run true (fun s => s.emergency regulator) s

/-- EMERGENCY_RELEASE_STAGE (R338): the stretch is released in three stages; at the last the planks go on under R336 and the slope of R334. -/
def releaseStageEff (s : State) : State :=
  match s.power.emerg with
  | 0 => s
  | 3 =>
    let s := { s with power := { s.power with emerg := 0 } }
    let s := forN 128 s (fun s p => if (s.plank p).droop then s.modPlank p (fun k => { k with droop := false, holdoff := true }) else s)
    s.startRamp (List.range 128)
  | k => { s with power := { s.power with emerg := k + 1 } }

def execEmergencyReleaseStage (s : State) : Host.Outcome State Fault Refusal := run true releaseStageEff s

/-- PMBUS_TELEMETRY_POLL (R409): every commanded rail is read; a reported fault is an emergency with REGFAULT. -/
def railPollEff (readings : List (Nat × Nat)) (faults : List Nat) (s : State) : State :=
  let s := s.hat.rails.foldl (fun s r => s.toBoard (.telemetry r)) s
  let s := { s with power := { s.power with
    telem := readings.foldl (fun (m : Table Nat) (e : Nat × Nat) => if s.hat.rails.contains e.1 then m.insert e.1 e.2 else m) s.power.telem } }
  if faults.any s.hat.rails.contains then s.emergency true else s

def execPmbusTelemetryPoll (readings : List (Nat × Nat)) (faults : List Nat) (s : State) : Host.Outcome State Fault Refusal :=
  run (faults.all (fun r => decide (r < 15))) (railPollEff readings faults) s

/-- PMB_ALERT (R409): the package reads that rail's telemetry, and a fault or over-current warning is an emergency. -/
def pmbAlertEff (rail : Nat) (fault : Bool) (s : State) : State :=
  let s := s.toBoard (.telemetry rail)
  if fault then s.emergency true else s

def execPmbAlert (rail : Nat) (fault : Bool) (s : State) : Host.Outcome State Fault Refusal :=
  run (decide (rail < 15)) (pmbAlertEff rail fault) s

/-- REGULATOR_TIMEOUT (R409): REGFAULT. -/
def execRegulatorTimeout (rail : Nat) (s : State) : Host.Outcome State Fault Refusal := run (decide (rail < 15)) (fun s => s.alert 2) s

/-! ### Heat (R96, R339, R340) -/

/-- The sensors that act on a plank: its own and its die's hotspots. -/
def sensorsOf (p : Nat) : List Nat := [p, 128 + 2 * dieOf p, 129 + 2 * dieOf p]

def State.tempOf (s : State) (n : Nat) : Int := (s.thermal.temps.find n).getD 0

/-- A plank is hot at a reading when one of its sensors is. -/
def State.hotAt (s : State) (p : Nat) (t : Int) : Bool := (sensorsOf p).any (fun n => decide (t ≤ s.tempOf n))

/-- A plank starts throttling: THMWARN, THROTTLE with THM_PLANK, and a lapse (R330, R339). -/
def State.startThrottle (s : State) (p : Nat) : State :=
  if (s.plank p).throt || (s.plank p).isol then s
  else
    let s := ((s.modPlank p (fun k => { k with throt := true, locked := false })).alert 0).lapsePlank p
    (0 :: (s.hoodsOfPlank p).map (· + 1)).foldl (fun s fn => s.causeV rTHM_CAUSE fn 0 rTHM_PLANK p) s

/-- Refresh of a stack (R96): doubled above 95 °C on any layer, normal again when every layer is at 92 °C or below. -/
def State.refresh (s : State) (n : Nat) : State :=
  let l := (s.thermal.layers.filter (fun e => e.1 / 12 == n)).map (fun e => e.2)
  let flip := fun (s : State) (v : Bool) => (s.modStack n (fun k => { k with fast := v })).countReg rBIR_REFRESH_COUNT n 1
  if !(s.stack n).fast && l.any (fun t => decide (760 < t)) then
    (flip s true).lapse (fun h _ => (List.range 32).any (fun c => (s.hood h).block.channels.getLsbD (32 * n + c)))
  else if (s.stack n).fast && l.all (fun t => decide (t ≤ 736)) then flip s false
  else s

/-- HARDWARE_THERMAL_TRIP (R340, R413): everything stops, the stacks lose their contents, the rails go off and the PCIe link with them; the
nap domain keeps THMTRIP. The restart needs a PERST# after every sensor reads below 95 °C. -/
def tripEff (n : Nat) (s : State) : State :=
  if s.nap.tripped then s
  else
    let s := (({ s with thermal := { s.thermal with temps := s.thermal.temps.insert n (max 944 (s.tempOf n)) } }).alert 1).railsOff
    let t := s.packageReset
    { t with
      nap := { t.nap with perst := s.nap.perst, tripped := true }
      hat := { t.hat with rails := [], runs := false }
      mem := [], poison := [] }

/-- THERMAL_SAMPLE (R339): the readings, then the thresholds of Table 5; those with times of their own have rows of their own. -/
def sampleEff (readings layers : List (Nat × Int)) (s : State) : State :=
  let s := { s with thermal := { s.thermal with
    temps := readings.foldl (fun (m : Table Int) (e : Nat × Int) => if e.1 < 155 then m.insert e.1 e.2 else m) s.thermal.temps
    layers := layers.foldl (fun (m : Table Int) (e : Nat × Int) => if e.1 < 96 then m.insert e.1 e.2 else m) s.thermal.layers } }
  match (List.range 155).find? (fun n => decide (944 ≤ s.tempOf n)) with
  | some n => tripEff n s
  | none =>
    if s.nap.tripped then s
    else
    let s := forN 8 s (fun s n => s.refresh n)
    let s := if (List.range 11).any (fun n => decide (800 ≤ s.tempOf (144 + n))) then s.alert 0 else s
    forN 128 s (fun s p =>
      let s := if s.hotAt p 800 then s.startThrottle p else s
      if (s.plank p).hot && !s.hotAt p 777 then s.modPlank p (fun k => { k with hot := false }) else s)

def execThermalSample (readings layers : List (Nat × Int)) (s : State) : Host.Outcome State Fault Refusal := run true (sampleEff readings layers) s

/-- THROTTLE_STEP (R339): one step down while the reading stays at 100 °C or above. -/
def throttleEff (p : Nat) (s : State) : State :=
  if (s.plank p).throt && s.hotAt p 800 then s.modPlank p (fun k => ({ k with target := min k.target (k.n - 1) }).go) else s

def execThrottleStep (p : Nat) (s : State) : Host.Outcome State Fault Refusal := run (decide (p < 128)) (throttleEff p) s

/-- THROTTLE_RECOVERY_STEP (R339): at 97 °C or below, one step up toward the point of R327, where the throttle ends. -/
def recoverEff (p : Nat) (s : State) : State :=
  let k := s.plank p
  if !k.throt || k.hot || s.hotAt p 777 then s
  else
    let (n, l) := s.pointOf p
    let n' := n - k.lowered
    if n' ≤ k.n + 1 then (s.modPlank p (fun k => { k with throt := false })).aim p n l
    else s.modPlank p (fun k => ({ k with target := k.n + 1, locked := l }).go)

def execThrottleRecoveryStep (p : Nat) (s : State) : Host.Outcome State Fault Refusal := run (decide (p < 128)) (recoverEff p) s

/-- Planks that a sensor acts on: its own, or the 16 of its die. -/
def planksOfSensor (n : Nat) : List Nat :=
  if n < 128 then [n] else if n < 144 then (List.range 16).map (fun k => 16 * ((n - 128) / 2) + k) else []

/-- THERMAL_EMERGENCY (R339): above 105 °C for 100 µs: down to 0.8 GHz, held there until 97 °C. -/
def thermalEmergencyEff (n : Nat) (s : State) : State :=
  if s.tempOf n ≤ 840 then s
  else (planksOfSensor n).foldl (fun s p => (s.startThrottle p).modPlank p (fun k => ({ k with hot := true, target := 0 }).go)) s

def execThermalEmergency (sensor : Nat) (s : State) : Host.Outcome State Fault Refusal := run (decide (sensor < 155)) (thermalEmergencyEff sensor) s

/-- HARDWARE_THERMAL_TRIP. -/
def execHardwareThermalTrip (sensor : Nat) (s : State) : Host.Outcome State Fault Refusal := run (decide (sensor < 155)) (tripEff sensor) s

/-! ### The power group (R332, R333) -/

/-- Lateness of a member reaches the leader. -/
def arriveEff (member gid _seq lateness : Nat) (s : State) : State :=
  if !s.groupOn || s.selfIdx != 0 || member = 0 || s.members.length ≤ member || gid != s.reg rSTL_PKG_ID 0 % 4096 then s
  else ({ s with power := { s.power with late := s.power.late.insert member lateness } }).moveCap

def execArrive (member gid seq lateness : Nat) (s : State) : Host.Outcome State Fault Refusal := run true (arriveEff member gid seq lateness) s

/-- SHIFT reaches a member. -/
def shiftEff (seq : Nat) (off : Int) (time : Nat) (s : State) : State :=
  if !s.groupOn || s.selfIdx = 0 then s else s.takeShift seq off time

def execShift (seq : Nat) (off : Int) (time : Nat) (s : State) : Host.Outcome State Fault Refusal := run true (shiftEff seq off time) s

/-- REVERT reaches a member. -/
def revertEff (pkg : Nat) (s : State) : State := if s.groupOn && s.members.contains pkg then s.leaveGroup else s

def execRevert (pkg : Nat) (s : State) : Host.Outcome State Fault Refusal := run true (revertEff pkg) s

/-- GROUP_CONFIRM_TICK (R332): the leader confirms every member's offset. -/
def confirmEff (s : State) : State :=
  if !s.groupOn || s.selfIdx != 0 || !s.power.confirm then s
  else (List.range s.members.length).foldl (fun s i => s.sendShift i) s

def execGroupConfirmTick (s : State) : Host.Outcome State Fault Refusal := run true confirmEff s

/-- GROUP_SHIFT_TIMEOUT (R333): 2 ms without a SHIFT. -/
def shiftTimeoutEff (s : State) : State :=
  if s.groupOn && decide (s.power.lastShift + 2000000 ≤ s.now) then s.leaveGroup else s

def execGroupShiftTimeout (s : State) : Host.Outcome State Fault Refusal := run true shiftTimeoutEff s

/-- GROUP_RESTORE_TIMER (R333): 16 ms after the last SHIFT, a negative offset returns to 0. -/
def restoreTimerEff (s : State) : State :=
  if s.power.left && decide (s.power.fall.getD s.power.off < 0) && decide (s.power.lastShift + 16000000 ≤ s.now) then
    ({ s with power := { s.power with fall := some 0 } }).changeCap
  else s

def execGroupRestoreTimer (s : State) : Host.Outcome State Fault Refusal := run true restoreTimerEff s

/-- GROUP_OFFSET_RISE_TIMER (R332): 11 ms after the SHIFT, the rise is applied. -/
def riseTimerEff (s : State) : State :=
  match s.power.rise with
  | some o => if s.groupOn && decide (s.power.riseAt + 11000000 ≤ s.now) then
      ({ s with power := { s.power with rise := none, fall := some o } }).changeCap else s
  | none => s

def execGroupOffsetRiseTimer (s : State) : Host.Outcome State Fault Refusal := run true riseTimerEff s

/-! ### Hatbands (R315, R316) -/

/-- HATBAND_WINDOW_START: counters return to zero; the budgets of the latest check take effect. -/
def windowEff (h : Nat) (s : State) : State :=
  let next := (s.hood h).effNext
  let s := { s.modHood h (fun k => { k with effNext := none }) with bands := s.bands.erase h }
  match next with
  | some l =>
    let s := (s.setReg rHB_GUAR_EFF h (l.getD 0 0)).setReg rHB_SCALE h (l.getD 5 65536)
    forN 4 s (fun s c => s.setReg (rHB_CLS_GUAR_EFF + 4 * c) h (l.getD (c + 1) 0))
  | none => s

def execHatbandWindowStart (h : Nat) (s : State) : Host.Outcome State Fault Refusal := run (decide (h < 16)) (windowEff h) s

end Sys2Proof.Machine
end

