-- ==== Sys2Proof/Machine/Stader.lean ====
section
/-!
DEFINITION. Machine/Stader.lean: receiving flits and messages (R196 to R209, R214 to R216), serving the MREQ of borrowers (R184, R285),
the watch list (R212), loss and training of links (R211, R213) and key replacement (R356).
-/
namespace Sys2Proof.Machine

/-! ### Serving a borrower (R154, R155, R184, R285) -/

/-- The line of this package at which an address of a lease lies: addresses start at the lease's handle, and the pool's granule stripes the range
(R165, R184). -/
def State.lentLine (s : State) (l : Lease) (addr : Nat) : Nat :=
  stripe s.lender.members (granBytes (s.reg rHOOD_POOL_CFG 0 % 4)) l.cbase (addr - l.handle) / 64

/-- Does an access lie in a lease of the sending package? -/
def State.leaseHit (s : State) (pkg id addr len : Nat) : Option Lease :=
  (s.leaseOf pkg id).filter (fun l => decide (l.handle ≤ addr) && decide (addr + len ≤ l.handle + l.len))

/-- Who accesses for a borrower: no hood of this package, at static high priority (R313). -/
def lentWho : Who := { hood := 16, cls := 4 }

/-- Read `n` lines of a lease, as the home serves them (R150, R154). -/
def State.rdLease (s : State) (l : Lease) (addr : Nat) : Nat → List PB × State
  | 0 => ([], s)
  | n + 1 =>
    let (d, s) := s.rdLease l addr n
    let (e, s) := s.rdU lentWho (s.lentLine l ((addr / 64 + n) * 64))
    (d ++ e, s)

/-- Write bytes within one line of a lease; to an extent lent read-only nothing is written, and the line is counted (R155). -/
def State.wrLease (s : State) (l : Lease) (addr : Nat) (d : List PB) : State := s.wrU lentWho (s.lentLine l addr) (addr % 64) d

/-- Cut an interval at line boundaries: (address, bytes). -/
def lineCuts : Nat → Nat → List PB → List (Nat × List PB)
  | 0, _, _ => []
  | n + 1, a, d =>
    if d.isEmpty then []
    else
      let k := 64 - a % 64
      (a, d.take k) :: lineCuts n (a + k) (d.drop k)

/-- Bytes with the marks of the 64-byte parts that are poisoned. -/
def marked (d : List Byte) (psn : List Nat) : List PB := ((List.range d.length).zip d).map (fun p => (p.2, psn.contains (p.1 / 64)))

/-- Answer an MREQ message: MRSP to the borrower, under the association of the request where that was encrypted (R203, R215). -/
def State.answer (s : State) (die pkg : Nat) (m : StlMsg) (d : List PB) : State :=
  let psn := (List.range ((d.length + 63) / 64)).filter (fun i => anyPsn ((d.drop (64 * i)).take 64))
  let b : StlBody := .rsp m.tag (bytesOf d) psn
  let a : StlMsg := { len := bodyLen b, rsv := false, tag := 0, hood := m.hood, enc := false, keyidx := 0, ctr := 0, gcm := 0, body := b }
  if m.enc then let (a, s) := s.seal die m.keyidx a; s.emit die pkg a else s.emit die pkg a

/-- An atomic on a lent line, at its home: the old value is the answer (R152, R155). -/
def State.lentAtom (s : State) (l : Lease) (addr width op : Nat) (opnd cmp : BitVec 128) : List PB × State :=
  let addr := alignDown addr (width / 8)
  let line := s.lentLine l addr
  let a : AtomArgs := { kind := 0, num := 0, hood := 16, ctx := 0, req := 0, va := addr, width := width, opnd := opnd, cmp := cmp, ret := true }
  let (old, p, s) := (s.drainLine line).atomAt lentWho line op addr false a
  ((leBytes (width / 8) old.toNat).map (fun b => (b, p)), s)

/-- An MREQ message from a borrower. One outside every lease of its sender is not served (log entry 31). -/
def State.serve (s : State) (die pkg : Nat) (m : StlMsg) : State :=
  match m.body with
  | .rdU id addr len =>
    match s.leaseHit pkg id addr len with
    | some l => let (d, s) := s.rdLease l addr (linesIn addr (min len 4096)); s.answer die pkg m ((d.drop (addr % 64)).take (min len 4096))
    | none => s
  | .wrU id addr data psn =>
    match s.leaseHit pkg id addr data.length with
    | some l =>
      let d := (List.range data.length).map (fun i => (data.getD i 0, psn.contains ((addr % 64 + i) / 64)))
      ((lineCuts (linesIn addr data.length) addr d).foldl (fun s (p : Nat × List PB) => s.wrLease l p.1 p.2) s).answer die pkg m []
    | none => s
  | .atom id addr width op opnd cmp =>
    match (s.leaseHit pkg id addr 1).filter (fun _ => atomWidthOk op width) with
    | some l => let (old, s) := s.lentAtom l addr width op opnd cmp; s.answer die pkg m old
    | none => s
  | .fence id addr value =>
    match s.leaseHit pkg id addr 64 with
    | some l =>
      let loc : FLoc := (0, s.lentLine l addr * 64)
      (s.sendSignal { loc := loc, va := 0, hood := 16, hgen := (s.hood 16).gen, value := min value (2 ^ 64 - 2), ro := l.ro }).answer die pkg m []
    | none => s
  | _ => s

/-- The request that an MRSP answers: TAGs count per sending link die, and the answer comes back to that die where its route is the same. -/
def State.mreqOf (s : State) (die pkg tag : Nat) : Option Mreq :=
  let l := s.stl.mreqs.filter (fun r => r.dst == pkg && r.tag == tag)
  (l.find? (fun r => r.die == die)).orElse (fun _ => l.head?)

/-- Note what a read has brought: what this package last saw of the lender's memory, with its poison. -/
def State.farSeen (s : State) (pkg lease addr : Nat) (d : List PB) : State :=
  (lineCuts (linesIn addr d.length) addr d).foldl (fun s (p : Nat × List PB) => s.farWr pkg lease p.1 p.2) s

/-- An MRSP message: its request is acknowledged; a wait on a fence that a read brings is tested (R285). The answer to a request of an old generation is
discarded (R217). What waited behind the request goes on (R172). -/
def State.acked (s : State) (die pkg tag : Nat) (data : List Byte) (psn : List Nat) : State :=
  match s.mreqOf die pkg tag with
  | none => s
  | some r =>
    let s := { s with stl := { s.stl with mreqs := s.stl.mreqs.erase r } }
    let s := if r.gen != (s.hood r.who.hood).gen then s
      else match r.body with
        | .rdU lease addr len =>
          let s := s.farSeen pkg lease addr ((marked data psn).take len)
          (s.waits.filter (fun w => w.kind == 0 && w.loc == (farTag pkg lease, addr))).foldl (fun s w => if s.waits.contains w then s.testWait w else s) s
        | _ => s
    s.retryAtoms

/-! ### The watch list (R212) -/

/-- A message from a package has arrived: its path is alive. A path that was lost is restored, and every range held LOST is returned
(R187). -/
def State.heard (s : State) (pkg : Nat) : State :=
  match s.stl.watch.find pkg with
  | none => s
  | some w =>
    let s := { s with stl := { s.stl with watch := s.stl.watch.insert pkg { w with last := s.now, lost := false } } }
    if w.lost then
      s.liveHoods.foldl (fun s h => (s.hood h).block.ranges.foldl (fun s r =>
        if r.borrowed && r.lender == pkg && r.state == 4 then s.stlSend r.carrier pkg none (.ret r.leaseId) else s) s) s
    else s

def execKeepalive (pkg : Nat) (s : State) : Host.Outcome State Fault Refusal := run (decide (pkg < 4096)) (fun s => s.heard pkg) s

/-- KEEPALIVE_TICK (R212): the hatter sends KEEPALIVE to every watched package, under its association with that package's hatter, which it
re-establishes after a class A singe (R215, Table 13 of The Hatter). -/
def keepTickEff (s : State) : State :=
  if !s.hat.runs || s.nap.classB then s
  else (s.stl.watch.map (fun e => e.1)).foldl (fun s p => s.stlSend (s.dieFor p) p none .keepalive) s

def execKeepaliveTick (s : State) : Host.Outcome State Fault Refusal := run true keepTickEff s

/-- PATH_LOSS (R212): no message for 900 µs, or no route left. -/
def pathLossEff (pkg : Nat) (s : State) : State :=
  match s.stl.watch.find pkg with
  | some w =>
    if !w.lost && (decide (w.last + 900000 ≤ s.now) || (!s.dieReaches 0 pkg && !s.dieReaches 1 pkg)) then (s.pathLost pkg none).servicesGo else s
  | none => s

def execPathLoss (pkg : Nat) (s : State) : Host.Outcome State Fault Refusal := run (decide (pkg < 4096)) (pathLossEff pkg) s

/-! ### Training (R213) -/

/-- Take a link from service into training: out of the routing entries, its buffer drained or resent (Table 6 of Stader Links). -/
def State.train (s : State) (l : Nat) : State :=
  let s := s.modLink l (fun k => { k with st := 1 })
  ((s.unroute l).resend l).checkPaths

/-- RETRAIN_NOTICE (R213): the neighbour retrains the link. -/
def retrainNoticeEff (l : Nat) (s : State) : State := if (s.link l).st = 2 then (s.train l).servicesGo else s

def execRetrainNotice (l : Nat) (s : State) : Host.Outcome State Fault Refusal := run (decide (l < 40)) (retrainNoticeEff l) s

/-- RETRAIN written for a link (R213, Table 7 of Stader Links): one in service sends the retrain notice to its neighbour, whose ID the
package does not hold (log entry 32), where MGMT has a credit and the retry buffer a place (R199, R201); on a link that is lost, training starts at
once and the retry timer restarts. -/
def State.retrainLink (s : State) (l : Nat) : State :=
  match (s.link l).st with
  | 2 =>
    let (f, s) := s.draw
    let m : StlMsg := { len := 0, rsv := false, tag := 0, hood := none, enc := false, keyidx := 0, ctr := 0, gcm := 0, body := .retrain }
    let dst := Config.choice f % 4096
    (if s.linkTakes l dst 1 [m] then s.putOnLink l dst 1 [m] else s).train l
  | 3 => s.modLink l (fun k => { k with st := 1, delay := 5, quiet := false })
  | _ => s

/-- DISABLE written for a link (R213): it leaves service, and no attempt follows. -/
def State.disableLink (s : State) (l : Nat) : State :=
  let up := (s.link l).st = 2
  let s := s.modLink l (fun k => { k with st := 0, quiet := true })
  if up then ((s.unroute l).resend l).checkPaths else s

/-- ENABLE written for a link (R205): the package ID is fixed, and training starts. -/
def State.enableLink (s : State) (l : Nat) : State :=
  let s := { s with stl := { s.stl with idFixed := true } }
  if (s.link l).st = 0 ∨ (s.link l).st = 3 then s.modLink l (fun k => { k with st := 1, quiet := false }) else s

/-- Training has ended (Table 6 of Stader Links): at 8 or 4 lanes the link is released, routed again and UP, with fresh sequence numbers and
credits; otherwise it is lost, or stays so with a longer interval. -/
def trainedEff (l lanes : Nat) (s : State) : State :=
  let k := s.link l
  if k.st ≠ 1 then s
  else if lanes = 8 ∨ lanes = 4 then
    let s := s.modLink l (fun k => { k with
      st := 2, narrow := lanes == 4, isol := false, txSeq := 0, rxSeq := 0, drop := false, nak := false, retry := [], rep := 0
      cred := [], owe := [], delay := 10, last := s.now, cwBit := 0, cwErr := 0, rrLeft := 0 })
    let s := s.holdMreqs l
    let s := { s with stl := { s.stl with removed := s.stl.removed.erase l, cut := s.stl.cut.dropIf (fun c => c / 16 == l) } }
    (s.causeM rSTL_CAUSE 0 2 rSTL_UP_MAP l).flush
  else if k.isol then s.modLink l (fun k => { k with st := 3, delay := min 1000 (2 * k.delay) })
  else s.loseLink l

def execLinkTrainingComplete (l lanes : Nat) (s : State) : Host.Outcome State Fault Refusal := run (decide (l < 40)) (trainedEff l lanes) s

/-- LINK_RETRAIN_RETRY (R213): the next attempt on a lost link. -/
def retrainRetryEff (l : Nat) (s : State) : State :=
  if (s.link l).st = 3 ∧ (s.link l).quiet = false then s.modLink l (fun k => { k with st := 1 }) else s

def execLinkRetrainRetry (l : Nat) (s : State) : Host.Outcome State Fault Refusal := run (decide (l < 40)) (retrainRetryEff l) s

/-- LINK_LOSS (R211): no flit with a good CRC for 50 µs, or a lane out of lock or deskew for 10 µs. -/
def linkLossEff (l : Nat) (lanes : Bool) (s : State) : State :=
  if (s.link l).st = 2 ∧ (lanes ∨ (s.link l).last + 50000 ≤ s.now) then (s.loseLink l).servicesGo else s

def execLinkLoss (e : LinkEnd) (s : State) : Host.Outcome State Fault Refusal := run (decide (e.link < 40)) (linkLossEff e.link e.lanes) s

/-- MREQ_HOLD_RELEASE (R209): every MREQ sent toward the destination has been acknowledged or has left flight; those held go out. -/
def holdReleaseEff (die dst : Nat) (s : State) : State :=
  let waits := fun (r : Mreq) => s.stl.held.any (fun e => e.1 == die && e.2.1 == dst && e.2.2.tag == r.tag)
  if !s.stl.holds.contains (die, dst) || s.stl.mreqs.any (fun r => r.die == die && r.dst == dst && !waits r) then s
  else
    let l := s.stl.held.filter (fun e => e.1 == die && e.2.1 == dst)
    let s := { s with stl := { s.stl with
      holds := s.stl.holds.filter (fun e => e != (die, dst)), held := s.stl.held.filter (fun e => !(e.1 == die && e.2.1 == dst)) } }
    l.foldl (fun s e => s.emit die dst e.2.2) s

def execMreqHoldRelease (die dst : Nat) (s : State) : Host.Outcome State Fault Refusal :=
  run (decide (die < 2) && decide (dst < 4096)) (holdReleaseEff die dst) s

/-- ASSOCIATION_REKEY (R356): the new key goes into a free association, and the sender moves to it. -/
def rekeyEff (die idx : Nat) (s : State) : State :=
  let a := at' s.stl.assocs (64 * die + idx)
  if !a.live || !s.hat.runs || s.nap.classB then s
  else
    match (List.range 64).find? (fun i => !(at' s.stl.assocs (64 * die + i)).live) with
    | some i =>
      let (f, s) := s.draw
      { s with stl := { s.stl with
        assocs := (s.stl.assocs.erase (64 * die + idx)).insert (64 * die + i)
          { a with key := f, salt := (Config.drbg f).truncate 32, sent := 0, born := s.now } } }
    | none => s

def execAssociationRekey (die idx : Nat) (s : State) : Host.Outcome State Fault Refusal :=
  run (decide (die < 2) && decide (idx < 64)) (rekeyEff die idx) s

/-! ### Messages (R204, R208, R214 to R216) -/

/-- A GCM tag fails (R216): discarded, counted and reported, the path lost for the hoods that use the association, and the 16th within 1 s is a singe
(Table 12 of The Hatter). -/
def State.tagFail (s : State) (die idx pkg : Nat) (hs : List Nat) : State :=
  let s := (s.discard).causeV rSTL_CAUSE 0 3 rSTL_TAG_KEYIDX (idx + 64 * die)
  let s := if hs.isEmpty then s else s.pathLost pkg (some hs)
  let ts := s.now :: s.hat.tagFails.filter (fun t => decide (s.now < t + 1000000000))
  if 16 ≤ ts.length then (({ s with hat := { s.hat with tagFails := [] } }).singe false 6).repairGo
  else { s with hat := { s.hat with tagFails := ts } }

/-- Does a message keep Table 5 of Stader Links, with a KIND of the class of its flit? -/
def msgOk (tc : Nat) (m : StlMsg) : Bool :=
  !m.rsv && decide (m.len ≤ 4096) && decide (m.keyidx < 64) && tcOf m.body == tc && (match m.body with | .other _ => false | _ => true)

/-- What a message does. -/
def State.act (s : State) (die l pkg : Nat) (m : StlMsg) : State :=
  match m.body with
  | .arrive mem gid seq late => arriveEff mem gid seq late s
  | .shift seq off time => shiftEff seq off time s
  | .revert => revertEff pkg s
  | .ask len ro dMs => askEff pkg len ro dMs s
  | .grant id handle g => grantEff pkg id handle g s
  | .deny => denyEff pkg s
  | .renew id => renewEff pkg id s
  | .ack id => ackEff pkg id s
  | .ret id => returnEff pkg id s
  | .retrain => retrainNoticeEff l s
  | .spdm _ => s.authHatter pkg
  | .rsp tag data psn => s.acked die pkg tag data psn
  | .credit e => match s.ringOf pkg e true with | some r => s.rotCredit r | none => s
  | .piece e _ code off data psn => match s.ringOf pkg e false with | some r => s.rotPart r code off data psn | none => s
  | .coll e pos layer head off data psn =>
    match s.ringOf pkg e false with
    | some r => s.collPart r { pos := pos, layer := layer, head := head, off := off, data := data, bad := !psn.isEmpty }
    | none => s
  | .rdU .. | .wrU .. | .atom .. | .fence .. => s.serve die pkg m
  | .keepalive | .other .. => s

/-- Is a hood confidential? -/
def State.confHood (s : State) (h : Nat) : Bool := (s.hood h).created && (s.hood h).block.conf

/-- Must a message be encrypted (R215): a ring's for a confidential hood, an answer to one, or a request of a peer's hood that is known to be
confidential, since messages of it have come encrypted (log entry 95)? -/
def State.mustEnc (s : State) (die pkg : Nat) (m : StlMsg) : Bool :=
  let ring := fun (e : Nat) (c : Bool) => match s.ringOf pkg e c with | some r => s.confHood ((s.rot r).hood - 1) | none => false
  match m.body with
  | .rsp tag _ _ => ((s.mreqOf die pkg tag).map (fun r => s.confHood r.who.hood)).getD false
  | .piece e .. => ring e false
  | .coll e .. => ring e false
  | .credit e => ring e true
  | .rdU .. | .wrU .. | .atom .. | .fence .. =>
    match m.hood with
    | some h => s.stl.assocs.any (fun a => a.2.live && a.2.peer == pkg && a.2.peers.contains h)
    | none => false
  | _ => false

/-- Note a peer's hood whose messages come encrypted. -/
def State.notePeer (s : State) (die : Nat) (m : StlMsg) : State :=
  match m.hood with
  | some h => { s with stl := { s.stl with assocs := upd s.stl.assocs (64 * die + m.keyidx) (fun a =>
      if a.peers.contains h then a else { a with peers := a.peers ++ [h] }) } }
  | none => s

/-- Receive a message (R204, R208, R214, R215). `txDie`: the link die of the source that sent it. -/
def State.rxMsg (s : State) (l pkg txDie tc : Nat) (m : StlMsg) : State :=
  let die := l / 20
  let s := s.heard pkg
  let a := at' s.stl.assocs (64 * die + m.keyidx)
  if !msgOk tc m then s.discard
  else if m.enc && !(a.live && a.peer == pkg && m.gcm == gcmOf a.key a.salt m) then s.tagFail die m.keyidx pkg a.hoods
  else if !m.enc && s.mustEnc die pkg m then s.discard
  else if hatterMsg m.body && (s.hat.linkAuth.find pkg).isNone then s.discard
  else if hatterMsg m.body && !((s.hat.linkAuth.find pkg).map (fun k => m.gcm == gcmOf k.1 0 m)).getD false then s.tagFail die m.keyidx pkg []
  else
    let s := if m.enc then s.notePeer die m else s
    if tc = 2 ∨ tc = 4 ∨ tc = 5 then
      let k := 8192 * die + 4096 * (txDie % 2) + pkg
      let seen := (s.stl.tags.find k).getD []
      if seen.contains m.tag then s
      else ({ s with stl := { s.stl with tags := s.stl.tags.insert k ((m.tag :: seen).take 4096) } }).act die l pkg m
    else s.act die l pkg m

/-! ### Flits (R196 to R201, R205 to R207) -/

/-- An ACK takes the flits it covers out of the retry buffer (R199). -/
def ackCut (ack : Nat) (l : List TxFlit) : List TxFlit :=
  if l.any (fun f => f.fseq == ack) then (l.dropWhile (fun f => f.fseq != ack)).drop 1 else l

/-- The header of a good flit: ACK, credits, and a NAK, which replays from ACK + 1 before anything new; the 16th replay in a row of one flit loses the
link (R199, R201, R211). -/
def State.rxHeader (s : State) (f : Flit) : State :=
  let l := f.link
  let s := s.modLink l (fun k =>
    let r := ackCut f.ack k.retry
    let c := 2 * f.crtc + f.crvc
    { k with
      retry := r, rep := if r.length = k.retry.length then k.rep else 0
      cred := if f.crcnt = 0 then k.cred else k.cred.put (fun _ => 0) c ((k.cred.find c).getD 0 - f.crcnt) })
  let old := (s.link l).retry
  if f.nak && !old.isEmpty then
    let s := (s.modLink l (fun k => { k with rep := k.rep + 1 })).countReg rSTL_REPLAY l 1
    if 16 ≤ (s.link l).rep then s.loseLink l else (old.foldl (fun s t => s.putFlit l t) s).flush
  else s.flush

/-- Bits of data in a codeword of RS(544,514) with 10-bit symbols, and in a flit (R196). -/
def cwBits : Nat := 5140
def flitBits : Nat := 2048

/-- A flit's share of the codewords it lies in: a codeword that begins within it is counted, and whether one of them could not be corrected (R196, R197,
R200). -/
def State.fec (s : State) (f : Flit) : Bool × State :=
  let k := s.link f.link
  let crosses := decide (cwBits < k.cwBit + flitBits)
  let begins := k.cwBit == 0 || crosses
  let s := if !begins then s else if f.errs ≤ 15 then s.countReg rSTL_FEC_CORR f.link f.errs else s.countReg rSTL_FEC_UNCORR f.link 1
  ((if k.cwBit == 0 then decide (15 < f.errs) else decide (15 < k.cwErr) || (crosses && decide (15 < f.errs))),
    s.modLink f.link (fun q => { q with cwBit := (k.cwBit + flitBits) % cwBits, cwErr := if begins then f.errs else k.cwErr }))

/-- Is a flit with a good CRC discarded whole (R197)? -/
def flitBad (f : Flit) : Bool := decide (2 ≤ f.typ) || decide (6 ≤ f.tc) || f.rsv != 0

/-- Return a credit for a flit that has left the receive buffer (R201). -/
def State.freeFlit (s : State) (l tc vc : Nat) : State :=
  let c := 2 * tc + vc
  s.modLink l (fun k => { k with owe := k.owe.put (fun _ => 0) c ((k.owe.find c).getD 0 + 1) })

/-- A good DATA flit (R199, R201, R205, R206): out of order it asks for a replay. In order, its messages are delivered, which frees its place in the
receive buffer; one for another package keeps its place until it is sent on. With no entry it is discarded and counted. -/
def State.rxData (s : State) (f : Flit) : State :=
  let l := f.link
  let k := s.link l
  if f.fseq ≠ k.rxSeq then (if k.drop then s else s.modLink l (fun k => { k with drop := true, nak := true }))
  else
    let s := s.modLink l (fun k => { k with rxSeq := (k.rxSeq + 1) % 4096, drop := false })
    if f.src = s.selfId then (s.freeFlit l f.tc f.vc).discard
    else if f.dst ≠ s.selfId then
      if s.noRoute (l / 20) f.dst then (s.freeFlit l f.tc f.vc).discard
      else s.enqueue [.flit (some l) (l / 20) { tc := f.tc, vc := f.vc, dst := f.dst, src := f.src, msgs := f.msgs, more := f.more, transit := f.payload }]
    else f.msgs.foldl (fun s m => s.rxMsg l f.src f.die f.tc m) (s.freeFlit l f.tc f.vc)

/-- Flits sent on a link. -/
def State.sentOn (s : State) (l : Nat) : Nat := (s.outs.stl.filter (fun o => o.1 == l)).length

/-- What a flit on a link that is up does, before the link answers. -/
def State.rxFlit1 (s : State) (f : Flit) : State :=
  let l := f.link
  let (uncor, s) := s.fec f
  let bad := fun (s : State) => s.modLink l (fun k => { k with drop := true, nak := true })
  if uncor then bad s
  else if f.crc ≠ flitCrc f then bad (s.countReg rSTL_CRC_DISC l 1)
  else
    let s := s.modLink l (fun k => { k with last := s.now })
    if flitBad f then bad s
    else
      let s := s.rxHeader f
      if f.typ = 0 ∨ (s.link l).st ≠ 2 then s else s.rxData f

/-- Receive a flit on a link that is up. Every flit received is a flit time, in which the link sends too: an IDLE flit where no DATA flit is ready (R198,
log entry 96). -/
def State.rxFlit (s : State) (f : Flit) : State :=
  if (s.link f.link).st ≠ 2 then s
  else
    let t := s.rxFlit1 f
    if (t.link f.link).st = 2 ∧ t.sentOn f.link = s.sentOn f.link then t.sendIdle f.link else t

def execDataFlit (f : Flit) (s : State) : Host.Outcome State Fault Refusal := run (decide (f.link < 40)) (fun s => s.rxFlit f) s

/-- IDLE_FLIT (R198): its payload is zero, and it is in no retry buffer. -/
def execIdleFlit (f : Flit) (s : State) : Host.Outcome State Fault Refusal :=
  run (decide (f.link < 40)) (fun s => s.rxFlit { f with typ := 0, payload := [], msgs := [], more := false }) s

end Sys2Proof.Machine
end

