-- ==== Sys2Proof/Machine/RegCmds.lean ====
section
/-!
DEFINITION. Machine/RegCmds.lean: writing registers: RW, RWL, W1C and WO fields (R9), ranges and clamps (R264, R396), what a write sets in motion,
the two halves of a 64-bit register (R11), accesses without effect (R12), and the rows that are writes of one register.
-/
namespace Sys2Proof.Machine

/-! ### Writes with an effect of their own. Each takes the function, the copy, the element's offset and the value. -/

/-- Store the writable bits of a register, and clear those written as one among its W1C bits (R9). -/
def State.store (s : State) (fn i off : Nat) (r : RegInfo) (v : Nat) : State :=
  let rw := BitVec.ofNat 64 (if fn = 0 then r.rwP else r.rwV)
  let w1 := BitVec.ofNat 64 (if fn = 0 then r.w1P else r.w1V)
  let o := BitVec.ofNat 64 (s.reg off i)
  let x := BitVec.ofNat 64 v
  s.setReg off i (((o &&& ~~~rw) ||| (x &&& rw)) &&& ~~~(x &&& w1)).toNat

/-- Store the value's bits of a mask, if it lies in its range; else the write has no effect and is counted (R396). -/
def State.storeIf (s : State) (ok : Bool) (fn i off mask v : Nat) : State :=
  if ok then s.setReg off i (v &&& mask) else s.errCount fn

/-- Store a field brought into its range; a clamp counts (Table 14 of Contexts, row 7). -/
def State.storeClamp (s : State) (fn i off lo hi v : Nat) : State :=
  let c := clampTo lo hi v
  let s := if c = v then s else s.hostClamp fn 7
  s.setReg off i c

/-- TOP_TS_HOST (R401): the counter is latched. -/
def State.tsWrite (s : State) (fn v : Nat) : State := (s.setReg rTOP_TS_HOST fn v).setReg rTOP_TS_DEV fn s.now

/-- HOST_WIN_BASE (R221, R226): frozen while the interface is locked or runs. -/
def State.winBase (s : State) (h v : Nat) : State :=
  let t := (s.hood h).tdi
  if t = 1 ∨ t = 2 then s else s.setReg rHOST_WIN_BASE h (v % 2 ^ 52)

/-- A base or count of a hood's context or ring range (R237): a base waits for its count. -/
def State.baseWrite (s : State) (h k v : Nat) : State :=
  if (s.hood h).sealed then s.errCount 0
  else { s with front := { s.front with bases := s.front.bases.insert (2 * h + k) v } }

/-- Apply BASE and COUNT together: past the last number they are cut (Table 14 of Contexts, row 1); an overlap with another hood's range has
no effect and is counted (R19, R237). -/
def State.countWrite (s : State) (h k last base count v : Nat) : State :=
  if (s.hood h).sealed || decide (last < v) then s.errCount 0
  else
    let b := (s.front.bases.find (2 * h + k)).getD (s.reg base h)
    let n := min v (last - b)
    let s := if n = v then s else s.hostClamp 0 1
    let meets := (List.range 16).any (fun g => g != h && n != 0 && s.reg count g != 0 && overlaps b n (s.reg base g) (s.reg count g))
    if meets then s.reject h
    else
      let s := { s with front := { s.front with bases := s.front.bases.erase (2 * h + k) } }
      (s.setReg base h b).setReg count h n

/-- FE_PAT_QUOTA (R257). -/
def State.quotaWrite (s : State) (h v : Nat) : State :=
  if (s.hood h).sealed || decide (64 < v % 128) then s.errCount 0 else s.setReg rFE_PAT_QUOTA h (v % 128)

/-- Does a hood hold a tile, saved or claimed (R301)? -/
def State.holdsTile (s : State) (h : Nat) : Bool :=
  !(s.hood h).slots.isEmpty || s.works.any (fun e => e.2.hood == h && (e.2.holds || !e.2.slots.isEmpty || !e.2.outT.isEmpty))

/-- HOOD_SAVE_BASE and HOOD_SAVE_LEN (R301); a smaller P releases slots, and the guarantees are checked (R316). -/
def State.saveAreaWrite (s : State) (h off mask v : Nat) : State :=
  if s.holdsTile h then s.reject h
  else
    let p := s.slotCount h
    let s := s.setReg off h (v &&& mask)
    if s.slotCount h < p then s.bandCheck else s

/-- Is a service in a hold of its own (R387, R388)? -/
def State.serviceHold (s : State) (h : Nat) : Bool :=
  (!(s.hood h).ucNext.isEmpty && s.reg rHOOD_UCODE_STATUS h == 2) || s.reg rHOOD_MIG_STATUS h == 2 || s.reg rHOOD_MIG_STATUS h == 3

/-- HOOD_PREEMPT.HOLD set (R308). -/
def State.holdOn (s : State) (h : Nat) : State := ((s.setReg rHOOD_PREEMPT h 1).holdHood h).serviceNext h

/-- HOOD_PREEMPT.HOLD cleared (R308): the hood resumes, unless a service or a freeze still holds it. -/
def State.holdOff (s : State) (h : Nat) : State :=
  let s := s.setReg rHOOD_PREEMPT h 0
  if s.serviceHold h then s else s.unhold h

/-- HOOD_SVC_STATE (R399, R106): in SERVICE counting stops, and the counters of the hood's extents are cleared. -/
def State.svcWrite (s : State) (h v : Nat) : State :=
  let s := s.setReg rHOOD_SVC_STATE h (v % 4)
  if v % 4 ≠ 0 then s
  else
    let s := s.modReg rBIR_HOT_THR h (fun x => x % 256)
    let mine := fun (c x : Nat) => match s.extentOf (c * 2 ^ 26 + x * 1024) with | some e => !e.lent && e.owner == h | none => false
    forN 256 s (fun s c => if (s.chan c).counts.isEmpty then s
      else s.modChan c (fun k => { k with counts := k.counts.dropIf (fun x => mine c x), listed := k.listed.dropIf (fun x => mine c x) }))

/-- The channels and granule of the lending pool, while no byte of it is granted. -/
def State.poolWrite (s : State) (off : Nat) (ok : Bool) (v : Nat) : State :=
  if s.reg rHOOD_POOL_USED 0 ≠ 0 then s.errCount 0 else s.storeIf ok 0 0 off (2 ^ 64 - 1) v

/-- BIR_HOT_THR (R105, R106, R359): the threshold is clamped; enabling is ignored in SERVICE and for a confidential hood. -/
def State.hotThrWrite (s : State) (h v : Nat) : State :=
  let t := clampTo 1 255 (v % 256)
  let s := if t = v % 256 then s else s.hostClamp 0 7
  let old := s.reg rBIR_HOT_THR h / 256 % 2
  let en := v / 256 % 2
  let en := if en = 1 ∧ (s.reg rHOOD_SVC_STATE h % 4 = 0 ∨ (s.hood h).block.conf) then old else en
  s.setReg rBIR_HOT_THR h (t + 256 * en)

/-- STL_PKG_ID (R205): fixed from the first ENABLE. -/
def State.pkgIdWrite (s : State) (v : Nat) : State := if s.stl.idFixed then s.errCount 0 else s.setReg rSTL_PKG_ID 0 (v % 4096)

/-- STL_LINK_CMD for the link that the PF has selected (R205, R213). -/
def State.linkCmd (s : State) (v : Nat) : State :=
  let l := s.reg rSTL_LINK_SEL 0
  match v % 4 with
  | 1 => s.retrainLink l
  | 2 => s.disableLink l
  | 3 => s.enableLink l
  | _ => s

/-- HB_LAT_CLR: each bit set clears the record of its class. -/
def State.latClear (s : State) (h v : Nat) : State := forN 4 s (fun s c => if bit v c then s.setReg (rHB_LATMAX + 4 * c) h 0 else s)

/-- PWR_CAP (R324): the effective cap may change; what no longer fits is demoted (R329). -/
def State.capWrite (s : State) (v : Nat) : State :=
  let w := v % 8192
  if w < 1500 ∨ 6000 < w then s.errCount 0 else ((s.setReg rPWR_CAP 0 w).changeCap).demote

/-- Planks a hood would lock in repeatable mode, beside those that are locked (R329). -/
def State.wouldLock (s : State) (h : Nat) : Nat :=
  ((List.range 128).filter (fun p => (s.modePlanks 2).contains p || s.sitesOn h p != 0)).length

/-- PWR_HOOD_CFG (R328, R329): a mode that is refused leaves the mode; a new mode or weight is staged (R337). -/
def State.modeWrite (s : State) (h v : Nat) : State :=
  let m := v % 4
  let wt := bits v 8 8
  let old := s.reg rPWR_HOOD_CFG h % 4
  if m = 3 ∨ wt = 0 then s.errCount 0
  else
    let sprints := (List.range 16).filter (fun g => g != h && (s.reg rPWR_HOOD_CFG g % 4 == 1 || s.modeOf g == 1))
    let refused := (m = 1 && decide (2 ≤ sprints.length)) || (m = 2 && decide (s.reg rPWR_CAP_EFF 0 % 8192 * 10 < lockedSum (s.wouldLock h)))
    if refused && m != s.modeOf h then
      let moved := bits (s.reg rPWR_HOOD_CFG h) 8 8 != wt
      let s := (s.setReg rPWR_HOOD_CFG h (old + 256 * wt)).setReg rPWR_HOOD_STATUS h (s.modeOf h + 2 * 4)
      (if moved then s.stage s.liveHoods else s).repower
    else
      let moved := bits (s.reg rPWR_HOOD_CFG h) 8 8 != wt
      let s := s.setReg rPWR_HOOD_CFG h (m + 256 * wt)
      let s := if moved then s.stage s.liveHoods else s
      let s := if m = s.modeOf h then s.setReg rPWR_HOOD_STATUS h m else (s.setReg rPWR_HOOD_STATUS h (s.modeOf h + 4)).stage [h]
      s.repower

/-- Watch, or cease to watch, the members of the power group. -/
def State.watchMembers (s : State) : State := s.members.foldl (fun s p => if p = s.selfId then s else s.rewatch p) s

/-- Disband: REVERT goes to every other member, and the offset returns (R333, Table 3 of Clocks). -/
def State.disband (s : State) : State :=
  let s := (s.members.filter (fun p => p != s.selfId)).foldl (fun s p => s.stlSend (s.dieFor p) p none .revert) s
  s.leaveGroup

/-- PWR_GRP_CFG (R332, R333): fields other than EN change only while it reads 0; EN written as one forms, or forms again, the group. -/
def State.groupWrite (s : State) (v : Nat) : State :=
  let old := s.reg rPWR_GRP_CFG 0
  let en := bits v 6 1
  let was := bits old 6 1
  if 25 < bits v 7 5 then s.errCount 0
  else
    let cfg := if was = 1 then old - 64 + 64 * en else bits v 0 18
    if en = 0 then
      let s := if was = 1 then s.disband else s
      ((s.setReg rPWR_GRP_CFG 0 cfg).watchMembers).changeCap
    else if was = 1 && !s.power.left then s
    else
      let s := s.setReg rPWR_GRP_CFG 0 cfg
      let s := { s with power := { s.power with left := false, confirm := true, offs := [], late := [], rise := none, lastShift := s.now, bound := s.now, latest := s.now } }
      (s.watchMembers).changeCap

/-- A routing entry (R400): it takes effect for the next message, and MREQ toward the destination are held (R209). -/
def State.routeWrite (s : State) (key : Nat) (v : Nat) : State :=
  let die := key / 4096
  let dst := key % 4096
  let busy := s.stl.mreqs.any (fun r => r.die == die && r.dst == dst)
  let s := { s with stl := { s.stl with
    routes := s.stl.routes.put (fun _ => 0) key (BitVec.ofNat 64 (v % 2 ^ 41))
    holds := if busy && !s.stl.holds.contains (die, dst) then s.stl.holds ++ [(die, dst)] else s.stl.holds } }
  (s.flush).checkPaths

/-- Vector Control of the MSI-X entry: a cleared mask bit sends what pends (R232). -/
def State.unmask (s : State) (fn : Nat) : State :=
  let pend := (s.fn fn).pba
  let s := s.modFn fn (fun f => { f with masked := false, pba := false })
  if pend && s.msiOn fn then s.trySend fn else s

def State.msixCtrl (s : State) (fn v : Nat) : State :=
  if bit v 0 then s.modFn fn (fun f => { f with masked := true }) else if (s.fn fn).masked then s.unmask fn else s

/-- INT_FUNC_REARM (R232). -/
def State.rearm (s : State) (fn : Nat) : State := if s.msiOn fn then s.trySend fn else s

/-- TOP_ALERT_SUMMARY is W1C in the nap domain (R234). -/
def State.alertClear (s : State) (v : Nat) : State := { s with nap := { s.nap with alert := s.nap.alert &&& ~~~BitVec.ofNat 32 v } }

/-- RW and W1C registers whose write does more than replace or clear bits: offset, and what it does for the state, the function, the copy,
the element's offset and the value. -/
def regWrites : List (Nat × (State → Nat → Nat → Nat → Nat → State)) := [
  (rTOP_TS_HOST, fun s fn _ _ v => s.tsWrite fn v),
  (rTOP_ALERT_EN, fun s _ _ _ v => { s with nap := { s.nap with alertEn := BitVec.ofNat 32 (v % 2048) } }),
  (rHOST_WIN_BASE, fun s _ h _ v => s.winBase h v),
  (rFE_CTX_BASE, fun s _ h _ v => s.baseWrite h 0 (v % 4096)),
  (rFE_CTX_COUNT, fun s _ h _ v => s.countWrite h 0 4096 rFE_CTX_BASE rFE_CTX_COUNT (v % 8192)),
  (rFE_RING_BASE, fun s _ h _ v => s.baseWrite h 1 (v % 8192)),
  (rFE_RING_COUNT, fun s _ h _ v => s.countWrite h 1 8192 rFE_RING_BASE rFE_RING_COUNT (v % 16384)),
  (rFE_PAT_QUOTA, fun s _ h _ v => s.quotaWrite h v),
  (rFE_SLEEP_IDLE, fun s fn h off v => s.storeClamp fn h off 1 1000 (v % 1024)),
  (rHOOD_SAVE_BASE, fun s _ h off v => s.saveAreaWrite h off 0xFFFFFFFFFF000 v),
  (rHOOD_SAVE_LEN, fun s _ h off v => s.saveAreaWrite h off 0xFFFFFFFFFFFFF v),
  (rHOOD_SCHED_CFG, fun s _ h off v => (s.setReg off h (v % 2 ^ 15)).scheduleAll h),
  (rHOOD_PREEMPT, fun s _ h _ v => if bit v 0 then s.holdOn h else s.holdOff h),
  (rHOOD_SVC_STATE, fun s _ h _ v => s.svcWrite h v),
  (rHOOD_POOL_CHAN, fun s _ _ off v => s.poolWrite off true v),
  (rHOOD_POOL_CFG, fun s _ _ off v => s.poolWrite off (decide (v % 4 ≤ 2)) (v % 4)),
  (rXLT_FQ_CFG, fun s fn h off v => s.storeIf (decide (8 ≤ v % 32) && decide (v % 32 ≤ 16)) fn h off 0x1F v),
  (rXLT_FQ_TIMEOUT, fun s fn h off v => s.storeClamp fn h off 100 10000000 (v % 2 ^ 24)),
  (rBIR_ERASE_RATE, fun s fn i off v => s.storeClamp fn i off 250 2000 (v % 4096)),
  (rBIR_HALVE, fun s fn i off v => s.storeClamp fn i off 1 1000 (v % 1024)),
  (rBIR_HOT_SIZE, fun s fn h off v => s.storeClamp fn h off 4096 1048576 (v % 2 ^ 21)),
  (rBIR_HOT_THR, fun s _ h _ v => s.hotThrWrite h v),
  (rSTL_PKG_ID, fun s _ _ _ v => s.pkgIdWrite v),
  (rSTL_LINK_SEL, fun s fn i off v => s.storeIf (decide (v % 64 ≤ 39)) fn i off 0x3F v),
  (rSTL_TC_WEIGHT, fun s fn i off v => s.storeIf ((List.range 4).all (fun k => bits v (4 * k) 4 != 0)) fn i off 0xFFFF v),
  (rHB_WIN_CFG, fun s _ h off v => (s.setReg off h (v % 64)).bandCheck),
  (rHB_GUAR, fun s _ h off v => (s.setReg off h (v &&& 0xFFFFFFC0)).bandCheck),
  (rHB_CLS_GUAR, fun s _ h off v => (s.setReg off h (v &&& 0xFFFFFFC0)).bandCheck),
  (rPWR_CAP, fun s _ _ _ v => s.capWrite v),
  (rPWR_HOOD_CFG, fun s _ h _ v => s.modeWrite h v),
  (rPWR_FULL_CFG, fun s fn i off v => s.storeIf (v % 256 != 0) fn i off 0xFF v),
  (rPWR_GATE_CFG, fun s fn i off v => s.storeIf (decide (1 ≤ v % 1024) && decide (v % 1024 ≤ 1000)) fn i off 0x3FF v),
  (rPWR_GRP_CFG, fun s _ _ _ v => s.groupWrite v),
  (rTHM_SENSE_SEL, fun s fn i off v => s.storeIf (decide (v % 512 ≤ 154)) fn i off 0x1FF v),
  (rSEC_UPD_SEL, fun s fn i off v => s.storeIf (decide (v % 8 ≤ 4)) fn i off 7 v),
  (rDBG_PERF_SEL, fun s fn i off v => s.storeIf (decide (v % 2048 < 1664) && decide (bits v 16 3 ≤ 4)) fn i off 0x707FF v),
  (rTOP_ALERT_SUMMARY, fun s _ _ _ v => s.alertClear v),
  (rMSIX_CTRL, fun s fn _ _ v => s.msixCtrl fn v)]

/-! ### Command registers (R397). Each takes the function, the copy and the value. -/

/-- CTX_CMD (Table 2 of Contexts). -/
def State.ctxCmd (s : State) (h v : Nat) : State :=
  let n := bits v 4 13
  hoodCmd h (fun s => s.ctxEnd h 3) (fun s => match v % 16 with
    | 1 => ctxCreateEff h n s
    | 2 => ctxDestroyEff h n s
    | 3 => ringCreateEff h n s
    | 4 => ringDestroyEff h n s
    | 5 => setShareEff h n (bits v 32 16) s
    | _ => s.ctxEnd h 3) s

/-- FE_PAT_CMD: 0 and 3 have no effect. -/
def State.patCmd (s : State) (h v : Nat) : State :=
  match v % 4 with
  | 1 => hoodCmd h (fun s => s.patEnd h 3 0) (registerEff h) s
  | 2 => hoodCmd h (fun s => s.patEnd h 3 0) (unregisterEff h (bits v 16 10)) s
  | _ => s

/-- TOP_MAINT_CMD (R384 to R386). The outcome of the self-tests is good here; the rows of their own carry another. -/
def State.maintCmd (s : State) (v : Nat) : State :=
  let i := bits v 4 11
  match v % 4 with
  | 1 => plankResetEff i [] s
  | 2 => repairSiteEff i true s
  | 3 => retireChannelEff i s
  | _ => s

/-- The latest image that this package has written at a host address. -/
def State.imageAt (s : State) (a : Nat) : Option MigImage :=
  s.outs.host.foldl (fun o e => match e with | .image b im => if b = a then some im else o | _ => o) none

/-- HOOD_MIG_CMD (R388, R390). A RESTORE reads the image this package wrote at HOOD_MIG_ADDR; where it wrote none, no tag verifies. The row
RESTORE carries the image of another package. -/
def State.migCmd (s : State) (h v : Nat) : State :=
  match v % 4 with
  | 1 => freezeEff true s
  | 2 => thawEff s
  | 3 => match s.imageAt (s.reg rHOOD_MIG_ADDR h) with
    | some im => restoreEff im s
    | none => restoreEff { (default : MigImage) with keyOk := false } s
  | _ => s

/-- Command registers: offset, whether the PF and a VF may write it, and what it does. -/
def regCmds : List (Nat × Bool × Bool × (State → Nat → Nat → Nat → State)) := [
  (rTOP_MAINT_CMD, true, false, fun s _ _ v => s.maintCmd v),
  (rINT_FUNC_REARM, true, true, fun s fn _ v => if bit v 0 then s.rearm fn else s),
  (rFE_PAT_CMD, false, true, fun s _ h v => s.patCmd h v),
  (rCTX_CMD, false, true, fun s _ h v => s.ctxCmd h v),
  (rHOOD_BLK_CMD, true, false, fun s _ _ v => blockCmd (v % 16) (bits v 4 4) (bits v 8 8) s),
  (rHOOD_RESET, true, true, fun s fn _ v => if bit v 0 then hoodResetEff fn s else s),
  (rHOOD_UCODE_CMD, true, false, fun s _ _ v => if bit v 3 then applyEff (v % 8) s else s),
  (rHOOD_MIG_CMD, true, false, fun s _ h v => s.migCmd h v),
  (rXLT_RESP_CMD, false, true, fun s _ h v => xltCmd h (respCmd h v) s),
  (rXLT_INV_CMD, false, true, fun s _ h v => if bit v 12 then xltCmd h (invalEff h (v % 4096)) s else s),
  (rSTL_LINK_CMD, true, false, fun s _ _ v => s.linkCmd v),
  (rHB_LAT_CLR, true, true, fun s _ h v => s.latClear h v),
  (rSEC_REQ_CMD, true, false, fun s _ _ v => if bit v 0 then s.secGo else s),
  (rDBG_TOKEN_CMD, true, false, fun s _ _ v => if bit v 0 then s.dbgGo else s)]

/-! ### A write of a whole register -/

/-- Write a register of a function: RSV, RO and absent ones ignore it; a copy that does not exist counts it (R394). -/
def State.writeFull (s : State) (fn off v : Nat) : State :=
  if isRoute fn off then s.routeWrite (routeKey off) v
  else
    match regInfo off with
    | none => s
    | some r =>
      if !r.inFn fn then s
      else
        let mask := if fn = 0 then r.rwP ||| r.w1P else r.rwV ||| r.w1V
        let cmd := regCmds.find? (fun e => e.1 == r.off)
        let special := regWrites.find? (fun e => e.1 == r.off)
        let writes := match cmd with
          | some c => if fn = 0 then c.2.1 else c.2.2.1
          | none => mask != 0 || (r.off == rTOP_ALERT_SUMMARY)
        if !writes then s
        else
          match s.copyIdx fn r.scope with
          | none => s.errCount fn
          | some i =>
            match cmd, special with
            | some c, _ => c.2.2.2 s fn i v
            | none, some e => e.2 s fn i off v
            | none, none => s.store fn i off r v

/-- The lower half that a write of the upper half alone keeps (R11): what the register holds, with no bit of it cleared. -/
def State.heldLow (s : State) (fn off : Nat) : Nat :=
  if isRoute fn off then ((s.stl.routes.find (routeKey off)).getD 0).toNat % 2 ^ 32
  else
    match regInfo off with
    | none => 0
    | some r =>
      let w1 := BitVec.ofNat 64 (if fn = 0 then r.w1P else r.w1V)
      match s.copyIdx fn r.scope with
      | none => 0
      | some i => (BitVec.ofNat 64 (s.reg off i) &&& ~~~w1).toNat % 2 ^ 32

/-- A write of BAR0 (R11, R12): the lower half of a 64-bit register waits for its upper half. `w` in bytes. The halves are kept for the function
and the offset: a selector changed between them is not seen (log entry 102). -/
def State.writeBar0 (s : State) (fn off w v : Nat) : State :=
  if bar0Size fn ≤ off then s.refuse fn true
  else if badAccess fn off w then s.errCount fn
  else if !s.presents off then s
  else
    let key := 2 ^ 26 * fn + off
    if w = 8 then ({ s with halves := upd s.halves key (fun h => { h with wr := none }) }).writeFull fn off (v % 2 ^ 64)
    else if wideAt fn off then { s with halves := upd s.halves key (fun h => { h with wr := some (BitVec.ofNat 32 v) }) }
    else if 4 ≤ off ∧ wideAt fn (off - 4) then
      let lo := match (at' s.halves (key - 4)).wr with
        | some x => x.toNat
        | none => s.heldLow fn (off - 4)
      ({ s with halves := upd s.halves (key - 4) (fun h => { h with wr := none }) }).writeFull fn (off - 4) (lo + v % 2 ^ 32 * 2 ^ 32)
    else s.writeFull fn off (v % 2 ^ 32)

/-- A write of a register by its own row: it arrives whole, at a register that the port presents. -/
def State.regWrite (s : State) (fn : Nat) (ide : Bool) (off v : Nat) : State :=
  s.onBar fn ide (fun s => if s.presents off then s.writeFull fn off v else s)

/-! ### The rows -/

def fnOk (fn : Nat) : Bool := decide (fn < 17)

/-- RETRAIN, DISABLE and ENABLE (R205, R213). -/
def execRetrain (s : State) : Host.Outcome State Fault Refusal := run true (fun s => s.regWrite 0 true rSTL_LINK_CMD 1) s
def execDisable (s : State) : Host.Outcome State Fault Refusal := run true (fun s => s.regWrite 0 true rSTL_LINK_CMD 2) s
def execEnable (s : State) : Host.Outcome State Fault Refusal := run true (fun s => s.regWrite 0 true rSTL_LINK_CMD 3) s

/-- SVN_COMMIT and CONFIG (R353): the request at SEC_REQ_ADDR is processed; its CMD says which it is. -/
def execSvnCommit (s : State) : Host.Outcome State Fault Refusal := run true (fun s => s.regWrite 0 true rSEC_REQ_CMD 1) s
def execConfig (s : State) : Host.Outcome State Fault Refusal := run true (fun s => s.regWrite 0 true rSEC_REQ_CMD 1) s

/-- DEBUG_OPEN (R361). -/
def execDebugOpen (s : State) : Host.Outcome State Fault Refusal := run true (fun s => s.regWrite 0 true rDBG_TOKEN_CMD 1) s

def execIntFuncRearm (fn : Nat) (ide : Bool) (s : State) : Host.Outcome State Fault Refusal :=
  run (fnOk fn) (fun s => s.regWrite fn ide rINT_FUNC_REARM 1) s

def execTopTsHostWrite (fn : Nat) (ide : Bool) (v : BitVec 64) (s : State) : Host.Outcome State Fault Refusal :=
  run (fnOk fn) (fun s => s.regWrite fn ide rTOP_TS_HOST v.toNat) s

def execStlPkgIdWrite (v : BitVec 32) (s : State) : Host.Outcome State Fault Refusal :=
  run true (fun s => s.regWrite 0 true rSTL_PKG_ID v.toNat) s

def execCapWrite (v : BitVec 32) (s : State) : Host.Outcome State Fault Refusal := run true (fun s => s.regWrite 0 true rPWR_CAP v.toNat) s

/-- SIDEBAND_CAP_SET (R324): a PLDM numeric effecter in the nap domain. A value out of range is refused with an error completion. -/
def sideCapEff (watts : Nat) (s : State) : State :=
  if !s.hat.runs then s.toBoard (.pldm 2 4 0)
  else if watts < 1500 ∨ 6000 < watts then s.toBoard (.pldm 2 1 0)
  else ((({ s with nap := { s.nap with sideCap := watts } }).changeCap).demote).toBoard (.pldm 2 0 0)

def execSidebandCapSet (watts : Nat) (s : State) : Host.Outcome State Fault Refusal := run true (sideCapEff watts) s

def execModeWrite (v : BitVec 32) (s : State) : Host.Outcome State Fault Refusal := run true (fun s => s.regWrite 0 true rPWR_HOOD_CFG v.toNat) s

def execGroupEnable (v : BitVec 32) (s : State) : Host.Outcome State Fault Refusal := run true (fun s => s.regWrite 0 true rPWR_GRP_CFG v.toNat) s

/-- HATBAND_CONFIG_WRITE (R316): a window, a hood budget or a class budget; no other offset is a write of this row. -/
def hatbandCfgEff (off : Nat) (v : BitVec 32) (s : State) : State :=
  let ok := off == rHB_WIN_CFG || off == rHB_GUAR || (List.range 4).any (fun c => off == rHB_CLS_GUAR + 4 * c)
  if ok then s.regWrite 0 true off v.toNat else s

def execHatbandConfigWrite (off : Nat) (v : BitVec 32) (s : State) : Host.Outcome State Fault Refusal := run true (hatbandCfgEff off v) s

def execHoldSet (s : State) : Host.Outcome State Fault Refusal := run true (fun s => s.regWrite 0 true rHOOD_PREEMPT 1) s
def execHoldClear (s : State) : Host.Outcome State Fault Refusal := run true (fun s => s.regWrite 0 true rHOOD_PREEMPT 0) s

def execServiceStateWrite (v : BitVec 32) (s : State) : Host.Outcome State Fault Refusal :=
  run true (fun s => s.regWrite 0 true rHOOD_SVC_STATE v.toNat) s

def execSaveAreaWrite (isLen : Bool) (v : BitVec 64) (s : State) : Host.Outcome State Fault Refusal :=
  run true (fun s => s.regWrite 0 true (if isLen then rHOOD_SAVE_LEN else rHOOD_SAVE_BASE) v.toNat) s

def execFeCtxCountWrite (v : BitVec 32) (s : State) : Host.Outcome State Fault Refusal :=
  run true (fun s => s.regWrite 0 true rFE_CTX_COUNT v.toNat) s
def execFeRingCountWrite (v : BitVec 32) (s : State) : Host.Outcome State Fault Refusal :=
  run true (fun s => s.regWrite 0 true rFE_RING_COUNT v.toNat) s

/-- POOL_CONFIG_WRITE (R184): HOOD_POOL_CHAN0 to 3, then HOOD_POOL_CFG and HOOD_POOL_BUDGET. -/
def poolReg (i : Nat) : Nat := if i < 4 then rHOOD_POOL_CHAN + 8 * i else if i = 4 then rHOOD_POOL_CFG else rHOOD_POOL_BUDGET

def execPoolConfigWrite (i : Nat) (v : BitVec 64) (s : State) : Host.Outcome State Fault Refusal :=
  run (decide (i < 6)) (fun s => s.regWrite 0 true (poolReg i) v.toNat) s

/-- Does a register of a function hold only W1C fields: a cause register or a detail bitmap (R231, R398)? -/
def isW1c (fn off : Nat) : Bool :=
  match regInfo off with
  | some r => if fn = 0 then r.w1P != 0 else r.w1V != 0
  | none => false

/-- CAUSE_CLEAR (R231): clearing a cause leaves its detail. -/
def causeClearEff (fn : Nat) (ide : Bool) (off : Nat) (v : BitVec 64) (s : State) : State :=
  if isW1c fn off then s.regWrite fn ide off v.toNat else s

def execCauseClear (fn : Nat) (ide : Bool) (off : Nat) (v : BitVec 64) (s : State) : Host.Outcome State Fault Refusal :=
  run (fnOk fn) (causeClearEff fn ide off v) s

/-- ALERT_SUMMARY_CLEAR (R234): by the PF at BAR0, or by the management controller over MCTP, which needs no function. -/
def execAlertSummaryClear (v : BitVec 32) (s : State) : Host.Outcome State Fault Refusal := run true (fun s => s.alertClear v.toNat) s

/-- REGISTER_WRITE (R9): `width` in bytes. -/
def execRegisterWrite (fn : Nat) (ide : Bool) (off width : Nat) (v : BitVec 64) (s : State) : Host.Outcome State Fault Refusal :=
  run (fnOk fn) (fun s => s.onBar fn ide (fun s => s.writeBar0 fn off width v.toNat)) s

/-- LOWER_HALF_READ (R11): a 32-bit read. -/
def execLowerHalfRead (fn : Nat) (ide : Bool) (off : Nat) (s : State) : Host.Outcome State Fault Refusal :=
  run (fnOk fn) (fun s => s.onBar fn ide (fun s => s.readBar0 fn off 4)) s

/-- LOWER_HALF_WRITE (R11): a 32-bit write. -/
def execLowerHalfWrite (fn : Nat) (ide : Bool) (off : Nat) (v : BitVec 32) (s : State) : Host.Outcome State Fault Refusal :=
  run (fnOk fn) (fun s => s.onBar fn ide (fun s => s.writeBar0 fn off 4 v.toNat)) s

/-- INVALID_REGISTER_ACCESS (R12): it has no effect, a read returns all ones, and it is counted. -/
def invalidAccessEff (fn : Nat) (ide : Bool) (off width : Nat) (isRead : Bool) (s : State) : State :=
  s.onBar fn ide (fun s =>
    if badAccess fn off width then (if isRead then s.readBar0 fn off width else s.writeBar0 fn off width 0) else s)

def execInvalidRegisterAccess (fn : Nat) (ide : Bool) (off width : Nat) (isRead : Bool) (s : State) : Host.Outcome State Fault Refusal :=
  run (fnOk fn) (invalidAccessEff fn ide off width isRead) s

end Sys2Proof.Machine
end

