-- ==== Sys2Proof/Machine/HostPort.lean ====
section
/-!
DEFINITION. Machine/HostPort.lean: the device-memory window (R221, R222), wake pages (R223), AER (R228), the device interface's integrity
failures (R227), the MSI-X vector (R232), and the configuration writes of R218, R221 and R230.
-/
namespace Sys2Proof.Machine

/-! ### The device-memory window -/

/-- Does any byte of an interval of hood addresses lie outside the hood's current block? -/
def State.outside (s : State) (h a n : Nat) : Bool := (List.range n).any (fun i => (s.hood h).block.placeOf (a + i) == .none)

/-- Whose a window access is: the hood's, in the host master class, under the current epoch; it passes by the caches (R144, R221, R312). -/
def State.winAcc (s : State) (h : Nat) : Acc := { who := { hood := h, cls := 3, epoch := s.reg rHOOD_EPOCH h } }

/-- WINDOW_READ (R221, R222): bytes outside the block read as ones and are counted, once for each read; a poisoned line sets EP (R100). -/
def windowReadEff (h off len ecc : Nat) (s : State) : State :=
  if 2 ^ s.front.vfBar2 < off + len then s.refuse (h + 1) true
  else
    let a := s.winAt h + off
    let b := (s.hood h).block
    let s := match b.placeOf (alignDown a 64) with
      | .loc ga => if len = 0 then s else s.eccNow (ga / 64) ecc
      | _ => s
    let (d, s) := s.rdHood (s.winAcc h) a len
    let d := d.zip ((List.range len).map (fun i => b.placeOf (a + i) == .none))
    let data := d.map (fun p => if p.2 then 0xFF else p.1.1)
    let ep := d.any (fun p => !p.2 && p.1.2)
    let s := if s.outside h a len then s.errCount (h + 1) else s
    s.toHost (.window (h + 1) data ep)

def execWindowRead (h : Nat) (ide : Bool) (off len ecc : Nat) (s : State) : Host.Outcome State Fault Refusal :=
  run (decide (h < 16) && decide (len ≤ 4096) && decide (ecc ≤ 72)) (fun s => s.onBar (h + 1) ide (windowReadEff h off len ecc)) s

/-- WINDOW_WRITE (R221, R222): what lies outside the block is dropped and counted, once for each write. -/
def windowWriteEff (h off : Nat) (data : List Byte) (s : State) : State :=
  if 2 ^ s.front.vfBar2 < off + data.length then s.refuse (h + 1) true
  else
    let a := s.winAt h + off
    let out := s.outside h a data.length
    let s := s.wrHood (s.winAcc h) a (clean data)
    if out then s.errCount (h + 1) else s

def execWindowWrite (h : Nat) (ide : Bool) (off : Nat) (data : List Byte) (s : State) : Host.Outcome State Fault Refusal :=
  run (decide (h < 16) && decide (data.length ≤ 4096)) (fun s => s.onBar (h + 1) ide (windowWriteEff h off data)) s

/-! ### Wake pages -/

/-- The rings of a context that their doorbell records mark asleep and that no queue holds (R223, R244). -/
def State.asleep (s : State) (c : Nat) : List Nat :=
  (s.rings.filter (fun e => e.2.live && e.2.ctx == c && e.2.state == 1 && !s.front.wakeQ.contains e.1)).map (fun e => e.1)

/-- WAKE_PAGE_WRITE (R223): every asleep ring of the context wakes, the named one first. -/
def wakeEff (h off width v : Nat) (s : State) : State :=
  let c := off / 4096
  if 4096 ≤ c then s.refuse (h + 1) true
  else if off % 4096 ≠ 0 ∨ (width ≠ 4 ∧ width ≠ 8) ∨ !s.ctxOf h c then s.errCount (h + 1)
  else
    let l := s.asleep c
    let first := l.filter (fun r => r == v % 8192)
    (first ++ l.filter (fun r => r != v % 8192)).foldl (fun s r => s.wakeRing r) s

def execWakePageWrite (h : Nat) (ide : Bool) (off width : Nat) (v : BitVec 64) (s : State) : Host.Outcome State Fault Refusal :=
  run (decide (h < 16)) (fun s => s.onBar (h + 1) ide (wakeEff h off width v.toNat)) s

/-- A read of a wake page completes with zero (R223). The table of commands has no row for it (log entry 104). -/
def State.wakeRead (s : State) (h off : Nat) : State := s.toHost (.read (h + 1) off 0)

/-! ### Identity of the functions (R1, R220) -/

/-- What a function's configuration space says of it (Table 2 of PCI Express). -/
structure Identity where
  vendor : Nat
  device : Nat
  rev    : Nat
  cls    : Nat
  deriving DecidableEq, Repr

/-- Identity of the PF (0) and of a VF. -/
def identity (fn : Nat) : Identity := { vendor := 0x1FA4, device := if fn = 0 then 0x7408 else 0x7409, rev := 0xB0, cls := 0x120000 }

/-- The SR-IOV capability: TotalVFs, First VF Offset and VF Stride (R220). -/
def sriovTotal : Nat := 16
def sriovOffset : Nat := 1
def sriovStride : Nat := 1

/-- The routing ID of a function, counted from that of the PF (R220). -/
def routingId (fn : Nat) : Nat := if fn = 0 then 0 else sriovOffset + (fn - 1) * sriovStride

/-- The routing ID that a request toward the host carries: a hood's requests its VF's, the hatter's and an image the PF's (R220). -/
def HostOut.rid : HostOut → Option Nat
  | .msix fn => some (routingId fn)
  | .poisonedWrite h _ => some (routingId (h + 1))
  | .atsReq h _ _ => some (routingId (h + 1))
  | .priReq h _ _ => some (routingId (h + 1))
  | .image _ _ => some (routingId 0)
  | _ => none

/-- The first two identity dwords of configuration space, at offsets 0 and 8 (the PCI layout). -/
def cfgIdent (fn off : Nat) : Nat :=
  let i := identity fn
  if off = 0 then i.vendor + i.device * 2 ^ 16 else if off = 8 then i.rev + i.cls * 2 ^ 8 else 0

/-! ### Errors of the port (Table 3 of PCI Express) -/

/-- Signal an error through AER: row of Table 3, status bit, function (R228). -/
def State.aerOut (s : State) (fn row : Nat) : State :=
  (s.modFn fn (fun f => { f with aer := f.aer ||| BitVec.ofNat 32 (1 <<< row) })).toHost (.aer fn row)

/-- ATOMICOP_REQUEST (R218): no BAR takes one. -/
def execAtomicopRequest (fn bar : Nat) (s : State) : Host.Outcome State Fault Refusal :=
  run (decide (fn < 17) && (bar == 0 || (fn != 0 && (bar == 2 || bar == 4))))
    (fun s => if s.portUp && s.fnOn fn then s.refuse fn false else s) s

/-- POISONED_TLP_RECEIVED (R228). -/
def execPoisonedTlpReceived (fn : Nat) (s : State) : Host.Outcome State Fault Refusal :=
  run (decide (fn < 17)) (fun s => if s.portUp && s.fnOn fn then s.aerOut fn 0 else s) s

/-- COMPLETION_TIMEOUT (R228): a host read of the function, for the started work `w`, has not completed; its data counts as poisoned. -/
def completionTimeoutEff (fn w : Nat) (s : State) : State :=
  if !s.portUp || !s.fnOn fn then s
  else (s.aerOut fn 1).modWork w (fun x => if x.hood + 1 = fn then { x with late := true } else x)

def execCompletionTimeout (fn w : Nat) (s : State) : Host.Outcome State Fault Refusal := run (decide (fn < 17)) (completionTimeoutEff fn w) s

/-- PCIE_LINK_ERROR (R228): a correctable error of the link; its code is the PCI Express specification's. -/
def execPcieLinkError (_code : Nat) (s : State) : Host.Outcome State Fault Refusal :=
  run true (fun s => if s.portUp then s.aerOut 0 3 else s) s

/-! ### The device interface -/

/-- IDE_INTEGRITY_FAILURE (R227): IDEERR of the PF with the stream, and the interface of the stream's hood goes to ERROR. -/
def ideFailEff (stream : Nat) (s : State) : State :=
  if !s.portUp then s
  else
    let s := s.causeV rHOST_CAUSE 0 1 rHOST_IDE_STREAM stream
    match s.hat.ideKeys.find stream with
    | some (h + 1) => if (s.hood h).created && (s.hood h).block.conf && (s.hood h).tdi != 3 then s.tdiError h 1 else s
    | _ => s

def execIdeIntegrityFailure (stream : Nat) (s : State) : Host.Outcome State Fault Refusal := run (decide (stream < 16)) (ideFailEff stream) s

/-! ### The interrupt message -/

/-- MSIX_MOD_EXPIRY (R232): the interval ends; a held message is sent if the summary is still nonzero. -/
def modExpiryEff (fn : Nat) (s : State) : State :=
  let held := (s.fn fn).held
  let s := s.modFn fn (fun f => { f with modBusy := false, held := false })
  if held && s.msiOn fn then s.trySend fn else s

def execMsixModExpiry (fn : Nat) (s : State) : Host.Outcome State Fault Refusal :=
  run (decide (fn < 17)) (fun s => if s.fnOn fn && (s.fn fn).modBusy then modExpiryEff fn s else s) s

/-- MSIX_UNMASK (R232): of a vector that is masked. -/
def execMsixUnmask (fn : Nat) (s : State) : Host.Outcome State Fault Refusal :=
  run (decide (fn < 17)) (fun s => if s.fnOn fn && (s.fn fn).masked then s.unmask fn else s) s

/-! ### Configuration writes -/

/-- DEVICE_POWER_STATE_CHANGE (R218, R236): no hood changes; a return to D0 sends a message that D3hot held. -/
def powerStateEff (fn : Nat) (d3hot : Bool) (s : State) : State :=
  if !s.portUp || !s.fnOn fn || !s.ariOk fn then s
  else
    let s := s.modFn fn (fun f => { f with d3hot := d3hot })
    if d3hot then s else s.portBack fn

def execDevicePowerStateChange (fn : Nat) (d3hot : Bool) (s : State) : Host.Outcome State Fault Refusal :=
  run (decide (fn < 17)) (powerStateEff fn d3hot) s

/-- INTERRUPT_DISABLE_CHANGE (R230): INTA follows it. -/
def execInterruptDisableChange (v : Bool) (s : State) : Host.Outcome State Fault Refusal :=
  run true (fun s => if s.portUp then s.modFn 0 (fun f => { f with intDis := v }) else s) s

/-- RESIZABLE_BAR_WRITE (R221, R226): 1 GiB to 1 TiB, one size for every VF, only while Memory Space Enable of the VFs is clear and no
device interface is locked or runs. -/
def resizeEff (log2 : Nat) (s : State) : State :=
  let mse := (List.range 16).any (fun h => (s.fn (h + 1)).mse)
  let locked := (List.range 16).any (fun h => (s.hood h).tdi == 1 || (s.hood h).tdi == 2)
  if !s.portUp || mse || locked || log2 < 30 || 40 < log2 then s else { s with front := { s.front with vfBar2 := log2 } }

def execResizableBarWrite (log2 : Nat) (s : State) : Host.Outcome State Fault Refusal := run true (resizeEff log2) s

end Sys2Proof.Machine
end

