-- ==== Sys2Proof/Machine/Security.lean ====
section
/-!
DEFINITION. Machine/Security.lean: tamper, the hatter's watchdog and health tests, the singe recorder (R347, R367, R368) and detected
physical faults (R25, R158, R228).
-/
namespace Sys2Proof.Machine

/-- TAMPER_TRIP (Table 12 of The Hatter): causes 1 and 2 are class A, 3 and 4 class B. -/
def tamperEff (cause : Nat) (s : State) : State := (s.singe (decide (3 ≤ cause)) cause).repairGo

def execTamperTrip (cause : Nat) (s : State) : Host.Outcome State Fault Refusal :=
  run (decide (1 ≤ cause) && decide (cause ≤ 4)) (tamperEff cause) s

/-- HATTER_WATCHDOG_TIMEOUT (R367, cause 8; HATTERFAIL of Table 7 of PCI Express): firmware that runs has given no heartbeat for
10 ms. -/
def watchdogEff (s : State) : State := if s.hat.runs then ((s.alert 4).singe true 8).repairGo else s

def execHatterWatchdogTimeout (s : State) : Host.Outcome State Fault Refusal := run true watchdogEff s

/-- SINGE_COUNT_RETRY (R368): the recorder tries again. -/
def execSingeCountRetry (accepted : Bool) (s : State) : Host.Outcome State Fault Refusal :=
  run true (fun s => if s.nap.recFail then s.writeCounts accepted else s) s

/-- TRNG_HEALTH_FAILURE (R347): a test on the TRNG samples of a running hatter fails. -/
def trngEff (s : State) : State := if s.hat.runs then s.hatterError else s

def execTrngHealthFailure (s : State) : Host.Outcome State Fault Refusal := run true trngEff s

/-- How many units of each kind the package has: 0 site, 1 plank, 2 channel, 3 quadrant, 4 stack, 5 link, 6 compute die, 7 spine die. -/
def unitCount : Nat → Nat
  | 0 => 1664
  | 1 => 128
  | 2 => 256
  | 3 => 32
  | 4 => 8
  | 5 => 40
  | 6 => 8
  | 7 => 1
  | _ => 0

/-- PHYSICAL_FAULT (R25): the smallest unit that holds the fault is isolated and reported; one that is isolated already stays so. -/
def physFaultEff (kind i : Nat) (s : State) : State :=
  match kind with
  | 0 => if (s.site i).isol then s else s.isolateSite i
  | 1 => if (s.plank i).isol then s else s.isolatePlank i
  | 2 => s.isolateChan i
  | 3 => s.isolateQuad i
  | 4 => if (s.stack i).isol then s else s.isolateStack i
  | 5 => if (s.link i).st = 2 then s.loseLink i else s
  | 6 => if (s.stack i).isol then s else s.isolateDie i
  | _ => if s.nap.spine then s else s.isolateSpine

def execPhysicalFault (kind index : Nat) (s : State) : Host.Outcome State Fault Refusal :=
  run (decide (index < unitCount kind)) (fun s => (physFaultEff kind index s).servicesGo) s

end Sys2Proof.Machine
end

