-- ==== Sys2Proof/Machine/Sideband.lean ====
section
/-!
DEFINITION. Machine/Sideband.lean: MCTP control and PLDM (R235), the I3C lands (R414), images (R351, R381), and the hatter's SPDM responder
(R226, R227, R349, R363 to R366). The numbers of the messages' codes are those of DSP0236, DSP0240, DSP0274 and TDISP (log entry 40).
-/
namespace Sys2Proof.Machine

/-! ### MCTP, PLDM and the sideband lands -/

/-- Does a message on a bus reach the endpoint (R235, R414)? 0 PCIe VDM; 1 SMBus or I2C at the static address; 2 I3C at the dynamic one. -/
def State.busUp (s : State) (bus : Nat) : Bool :=
  if bus = 0 then decide (3 ≤ s.hat.step) && !s.nap.perst && !s.nap.tripped && !s.nap.spine
  else if bus = 1 then s.nap.i3cAddr.isNone
  else s.nap.i3cAddr.isSome

/-- MCTP_CONTROL_MESSAGE (R235): the nap domain answers; code 1 sets the endpoint ID, code 2 reads it. -/
def mctpEff (bus code eid : Nat) (s : State) : State :=
  if !s.busUp bus then s
  else if code = 1 then
    if 8 ≤ eid ∧ eid < 255 then { s with nap := { s.nap with mctpEid := eid } }.toBoard (.mctp 1 0) else s.toBoard (.mctp 1 2)
  else if code = 2 then s.toBoard (.mctp 2 s.nap.mctpEid)
  else if code ≤ 6 ∧ code ≠ 0 then s.toBoard (.mctp code 0)
  else s.toBoard (.mctp code 5)

def execMctpControlMessage (bus code eid : Nat) (s : State) : Host.Outcome State Fault Refusal :=
  run (decide (bus < 3)) (mctpEff bus code eid) s

/-- What PLDM monitoring reads (Table 8 of PCI Express): 0 to 154 a temperature sensor, 155 the power, 156 the effective cap, 157 and on the
links. -/
def State.pldmValue (s : State) (n : Nat) : Nat :=
  if n < 155 then int16 ((s.thermal.temps.find n).getD 0)
  else if n = 155 then s.reg rPWR_PKG_POWER 0
  else if n = 156 then s.reg rPWR_CAP_EFF 0 % 8192
  else linkStatus (s.link (n - 157))

/-- PLDM_REQUEST (R235): type 0 discovery, type 2 monitoring; ERROR_NOT_READY before the hatter runs. Monitoring is answered after a class B
singe too (Table 13 of The Hatter). -/
def pldmEff (code arg : Nat) (s : State) : State :=
  if !s.hat.runs && !s.nap.classB then s.toBoard (.pldm code 4 0)
  else if code = 0 then s.toBoard (.pldm 0 0 0)
  else if code = 2 then (if arg < 197 then s.toBoard (.pldm 2 0 (s.pldmValue arg)) else s.toBoard (.pldm 2 2 0))
  else s.toBoard (.pldm code 32 0)

def execPldmRequest (code arg : Nat) (s : State) : Host.Outcome State Fault Refusal := run true (pldmEff code arg) s

/-- DYNAMIC_ADDRESS_ASSIGNMENT (R414). -/
def execDynamicAddressAssignment (addr : Nat) (s : State) : Host.Outcome State Fault Refusal :=
  run (decide (addr < 128)) (fun s => { s with nap := { s.nap with i3cAddr := some addr } }) s

/-- RSTDAA (R414). -/
def execRstdaa (s : State) : Host.Outcome State Fault Refusal := run true (fun s => { s with nap := { s.nap with i3cAddr := none } }) s

/-! ### The test lands (R361, R416) -/

/-- The inputs of the test port; `none` where nothing drives the land. -/
structure TestIn where
  tck   : Option Bool := none
  tms   : Option Bool := none
  tdi   : Option Bool := none
  trstN : Option Bool := none
  deriving DecidableEq, Repr

/-- A land with a pull-up that nothing drives is high (R416). -/
def pulledUp (v : Option Bool) : Bool := v.getD true

/-- What the test port sees: TCK, TMS, TDI and TRST_N are ignored while debug is closed (R416). -/
def State.testSees (s : State) (p : TestIn) : Option (Bool × Bool × Bool × Bool) :=
  if s.hat.debug = 0 then none else some (pulledUp p.tck, pulledUp p.tms, pulledUp p.tdi, pulledUp p.trstN)

/-- What drives TDO: nothing, high impedance, while debug is closed (R416); else the bit that the access port shifts out, which the spec leaves to
IEEE 1149.1. -/
def State.tdo (s : State) (shifted : Bool) : Option Bool := if s.hat.debug = 0 then none else some shifted

/-! ### Images -/

/-- SEC_UPD_STATUS of a class: STATE, and the SVN of the staged image. -/
def State.updStatus (s : State) (cls st svn : Nat) : State := s.setReg rSEC_UPD_STATUS cls (st + svn % 65536 * 256)

/-- PLDM_FIRMWARE_UPDATE (R235, R351, R381): the image goes to the staging area of its class and is verified next; a new staging replaces the
previous one. In RECOVERY only classes 0 and 4 are accepted. -/
def firmwareEff (img : Image) (s : State) : State :=
  if !s.hatServes then s.toBoard (.pldm 5 4 0)
  else if 4 < img.cls ∨ (s.reg rTOP_START_STATE 0 = 5 ∧ img.cls ≠ 0 ∧ img.cls ≠ 4) then s.toBoard (.pldm 5 2 0)
  else
    let s := { s with hat := { s.hat with staged := s.hat.staged.insert img.cls img } }
    (s.updStatus img.cls 2 img.svn).toBoard (.pldm 5 0 0)

def execPldmFirmwareUpdate (img : Image) (s : State) : Host.Outcome State Fault Refusal := run true (firmwareEff img) s

/-- Does an image pass (R351)? Records are authenticated with the storage key. -/
def State.accepts (s : State) (im : Image) : Bool :=
  if im.cls = 4 then im.flash.recordsOk
  else im.stepB0 && im.sigOk && im.digestOk && !s.hat.flash.revoked.contains im.keySerial && decide (s.hat.flash.svn.getD im.cls 0 ≤ im.svn)

/-- IMAGE_VERIFIED (R351): STAGED, or REJECTED and discarded. Records that pass are written by the hatter. -/
def verifiedEff (cls : Nat) (s : State) : State :=
  match s.hat.staged.find cls with
  | none => s
  | some im =>
    if !s.hatServes || s.reg rSEC_UPD_STATUS cls % 8 != 2 then s
    else if s.accepts im then
      let s := s.updStatus cls 3 im.svn
      if cls = 4 then
        let s := s.putRecords im.flash
        { s with hat := { s.hat with flash := { s.hat.flash with present := true } } }
      else s
    else ({ s with hat := { s.hat with staged := s.hat.staged.erase cls } }).updStatus cls 4 0

def execImageVerified (cls : Nat) (s : State) : Host.Outcome State Fault Refusal := run (decide (cls < 5)) (verifiedEff cls) s

/-! ### SPDM -/

/-- An SPDM answer. -/
def State.spdm (s : State) (code arg : Nat) (sig : Bool) : State := s.toHost (.spdm code arg sig)

/-- An ERROR answer: 1 InvalidRequest, 2 InvalidSession, 3 Busy, 5 Unspecified, 7 UnsupportedRequest, 10 SessionLimitExceeded,
11 SessionRequired. -/
def State.spdmErr (s : State) (code : Nat) : State := s.spdm 0x7F code false

/-- Answer an SPDM request: only while the hatter runs (R235); after a class B singe (Table 10 of The Hatter) and in the hatter's error
state after a failed test (R347) every request gets ERROR, code Unspecified. -/
def State.onSpdm (s : State) (eff : State → State) : State :=
  if s.nap.perst || s.nap.tripped || s.nap.spine then s
  else if s.nap.classB then s.spdmErr 5
  else if s.nap.hatFail then (if s.hat.runs || 3 ≤ s.hat.step then s.spdmErr 5 else s)
  else if !s.hat.runs then s
  else eff s

/-- GET_VERSION (R363). -/
def execGetVersion (s : State) : Host.Outcome State Fault Refusal := run true (fun s => s.onSpdm (fun s => s.spdm 0x04 0x13 false)) s

/-- GET_CAPABILITIES (R363, Table 8): CERT, CHAL, MEAS with signature, fresh, ENCRYPT, MAC, KEY_EX, HBEAT, KEY_UPD and CHUNK. -/
def execGetCapabilities (s : State) : Host.Outcome State Fault Refusal := run true (fun s => s.onSpdm (fun s => s.spdm 0x61 0x262F6 false)) s

/-- NEGOTIATE_ALGORITHMS (R363, Table 8): brainpoolP384r1 by its SignatureScheme and its Supported Group; no base algorithm. -/
def execNegotiateAlgorithms (s : State) : Host.Outcome State Fault Refusal := run true (fun s => s.onSpdm (fun s => s.spdm 0x63 (0x81B + 32 * 2 ^ 16) false)) s

/-- Answer from the slot 0 chain, which the Alias certificate ends (R349). -/
def State.withChain (s : State) (eff : State → State) : State := if s.hat.aliasKey then eff s else s.spdmErr 5

/-- GET_DIGESTS (R349, R363): slot 0 alone holds a chain. -/
def execGetDigests (s : State) : Host.Outcome State Fault Refusal :=
  run true (fun s => s.onSpdm (fun s => s.withChain (fun s => s.spdm 0x01 1 false))) s

/-- GET_CERTIFICATE (R349): slots 1 to 7 are empty. -/
def certEff (slot off len : Nat) (s : State) : State :=
  if slot = 0 then s.withChain (fun s => s.toHost (.cert 0 off len)) else s.spdmErr 1

def execGetCertificate (slot off len : Nat) (s : State) : Host.Outcome State Fault Refusal :=
  run true (fun s => s.onSpdm (certEff slot off len)) s

/-- CHALLENGE (R363): the answer is signed with the Alias key. -/
def execChallenge (slot : Nat) (s : State) : Host.Outcome State Fault Refusal :=
  run true (fun s => s.onSpdm (fun s => if slot = 0 then s.withChain (fun s => s.spdm 0x03 0 true) else s.spdmErr 1)) s

/-! ### Measurements (R364 to R366) -/

/-- A digest as bytes. -/
def digestBytes (content : List Nat) : List Byte := leBytes 48 (Config.digest content).toNat

/-- What the image digests cover: a class and its SVN name an image here (log entry 7). -/
def imageContent (cls svn : Nat) : List Nat := [0x100 + cls, svn]

/-- STATE of a hood-level value: 0 STABLE, 1 CHANGING, 2 FROZEN, 3 FAILED (R364, Table 10 of The Hatter). -/
def Hood.measState (k : Hood) : Nat := if k.failed then 3 else if k.frozen then 2 else if k.change.phase != .stable then 1 else 0

/-- What the block digest covers (Table 9): CBASE, STATE, LEASE_ID and MOVED are left out. -/
def blockContent (h : Nat) (b : Block) : List Nat :=
  [h, b.gran, b2n b.conf, b.keydom, b.tmap.length, b.links.toNat, b.channels.toNat] ++ b.tmap ++
    b.ranges.flatMap (fun r => [r.hbase, r.len, b2n r.borrowed, b2n r.ro, b2n r.shared, r.lender, r.carrier, r.srcHood])

/-- The content under a hood-level index, if it is present now. -/
def State.hoodContent (s : State) (h k : Nat) : Option (List Nat) :=
  let x := s.hood h
  let (run, pend) := x.ucOld.getD (x.ucode, x.ucPend)
  match k with
  | 0 | 1 | 2 => some (imageContent (k + 1) (run.getD k 0))
  | 3 => if pend.any (·.isSome) then some ((List.range 3).flatMap (fun i => match pend.getD i none with
      | some v => imageContent (i + 1) v
      | none => [])) else none
  | 4 => some [b2n x.block.conf, x.block.keydom,
      match s.hat.domNonce.find x.block.keydom with | some n => (Config.drbg n).toNat % 2 ^ 64 | none => 0,
      s.reg rHOOD_SAVE_BASE h, s.reg rHOOD_SAVE_LEN h, s.modeOf h]
  | 5 => some (blockContent h x.block)
  | _ => none

/-- The value of a measurement index, if it is present (Table 9 of The Hatter). -/
def State.measurement (s : State) (idx : Nat) : Option (List Byte) :=
  let f := s.hat.flash
  if idx = 1 then some (digestBytes [1])
  else if idx = 2 then some (digestBytes (imageContent 0 (s.hat.running.headD 0)))
  else if idx = 3 then
    (s.hat.staged.find 0).bind (fun im => if s.reg rSEC_UPD_STATUS 0 % 8 = 3 then some (digestBytes (imageContent 0 im.svn)) else none)
  else if idx = 4 then some (digestBytes ([4, s.power.board, f.owner] ++ f.svn ++ f.retiredSites ++ [0] ++ f.spares ++ [0] ++ f.retiredChans))
  else if idx = 5 then some (digestBytes ([5, s.hat.debug, s.nap.classA, b2n s.nap.classB] ++ f.revoked))
  else if 0x10 ≤ idx ∧ idx < 0x90 ∧ s.hoodExists ((idx - 0x10) / 8) then
    let h := (idx - 0x10) / 8
    (s.hoodContent h ((idx - 0x10) % 8)).map (fun c =>
      leBytes 4 (s.reg rHOOD_EPOCH h) ++ leBytes 2 (s.hood h).gen ++ leBytes 1 (s.hood h).measState ++ leBytes 1 (b2n (s.hood h).sealed) ++
        digestBytes c ++ leBytes 8 0)
  else none

/-- The indices that are present. -/
def State.measIndices (s : State) : List Nat := (List.range 0x90).filter (fun i => (s.measurement i).isSome)

/-- GET_MEASUREMENTS (R364 to R366): index 0 counts them, 0xFF reads all; a hood whose re-measurement is due answers Busy. -/
def measEff (idx : Nat) (s : State) : State :=
  let busy := fun h => s.hoodExists h && (s.hood h).meas
  if idx = 0 then s.spdm 0x60 s.measIndices.length true
  else if idx = 0xFF then
    if (List.range 16).any busy then s.spdmErr 3
    else
      let s := s.measIndices.foldl (fun (s : State) i => s.toHost (.meas i ((s.measurement i).getD []))) s
      s.spdm 0x60 0xFF true
  else if 0x10 ≤ idx ∧ idx < 0x90 ∧ busy ((idx - 0x10) / 8) then s.spdmErr 3
  else
    match s.measurement idx with
    | some v => (s.toHost (.meas idx v)).spdm 0x60 idx true
    | none => s.spdmErr 1

def execGetMeasurements (idx : Nat) (s : State) : Host.Outcome State Fault Refusal :=
  run (decide (idx < 256)) (fun s => s.onSpdm (measEff idx)) s

/-! ### Sessions -/

/-- KEY_EXCHANGE (R363): at most 8 sessions. -/
def keyExchangeEff (sid : Nat) (s : State) : State :=
  if (s.hat.sessions.find sid).isSome then s.spdmErr 1
  else if 8 ≤ s.hat.sessions.length then s.spdmErr 10
  else s.withChain (fun s =>
    ({ s with hat := { s.hat with sessions := s.hat.sessions.insert sid 1, sessKeys := s.hat.sessKeys.insert sid 0 } }).spdm 0x64 sid true)

def execKeyExchange (sid : Nat) (s : State) : Host.Outcome State Fault Refusal := run true (fun s => s.onSpdm (keyExchangeEff sid)) s

/-- FINISH (R363). -/
def finishEff (sid : Nat) (s : State) : State :=
  if s.hat.sessions.find sid = some 1 then
    ({ s with hat := { s.hat with sessions := s.hat.sessions.insert sid 2 } }).spdm 0x65 sid false
  else s.spdmErr 2

def execFinish (sid : Nat) (s : State) : Host.Outcome State Fault Refusal := run true (fun s => s.onSpdm (finishEff sid)) s

/-- Answer within an established session. -/
def State.inSession (s : State) (sid : Nat) (eff : State → State) : State := if s.hat.sessions.find sid = some 2 then eff s else s.spdmErr 2

/-- HEARTBEAT (R363). -/
def execHeartbeat (sid : Nat) (s : State) : Host.Outcome State Fault Refusal :=
  run true (fun s => s.onSpdm (fun s => s.inSession sid (fun s => s.spdm 0x68 sid false))) s

/-- KEY_UPDATE (R363): the session goes on under new keys. -/
def keyUpdateEff (sid : Nat) (s : State) : State :=
  s.inSession sid (fun s =>
    ({ s with hat := { s.hat with sessKeys := s.hat.sessKeys.insert sid ((s.hat.sessKeys.find sid).getD 0 + 1) } }).spdm 0x69 sid false)

def execKeyUpdate (sid : Nat) (s : State) : Host.Outcome State Fault Refusal := run true (fun s => s.onSpdm (keyUpdateEff sid)) s

/-- END_SESSION (R363). -/
def endSessionEff (sid : Nat) (s : State) : State :=
  s.inSession sid (fun s =>
    ({ s with hat := { s.hat with sessions := s.hat.sessions.erase sid, sessKeys := s.hat.sessKeys.erase sid } }).spdm 0x6A sid false)

def execEndSession (sid : Nat) (s : State) : Host.Outcome State Fault Refusal := run true (fun s => s.onSpdm (endSessionEff sid)) s

/-- CHUNK_SEND (R363): chunks of a large request arrive in order; the last one ends it. -/
def chunkSendEff (seq : Nat) (last : Bool) (s : State) : State :=
  if seq = s.hat.chunk then
    ({ s with hat := { s.hat with chunk := if last then 0 else seq + 1 } }).spdm 0x05 seq false
  else ({ s with hat := { s.hat with chunk := 0 } }).spdmErr 1

def execChunkSend (seq : Nat) (last : Bool) (s : State) : Host.Outcome State Fault Refusal :=
  run true (fun s => s.onSpdm (chunkSendEff seq last)) s

/-- CHUNK_GET (R363). -/
def execChunkGet (seq : Nat) (s : State) : Host.Outcome State Fault Refusal :=
  run true (fun s => s.onSpdm (fun s => s.spdm 0x06 seq false)) s

/-! ### IDE_KM and TDISP (R226, R227) -/

/-- A TDISP answer: 3 LOCK, 4 REPORT, 5 STATE, 6 START, 7 STOP; 0x7F TDISP_ERROR. -/
def State.tdisp (s : State) (code h : Nat) (data : List Nat) : State := s.toHost (.tdisp code h data)

/-- Is the VF of a hood a TDISP device interface: a hood with CONF = 1 (R226)? -/
def State.isTdi (s : State) (h : Nat) : Bool := s.hoodExists h && (s.hood h).created && (s.hood h).block.conf

/-- IDE_KM starts a stream: what its hood held for want of it goes on (R226). -/
def State.streamGo (s : State) (stream : Nat) : State :=
  let s := { s with hat := { s.hat with ideGo := s.hat.ideGo.insert stream true } }
  match s.hat.ideKeys.find stream with
  | some fn => if fn = 0 then s else s.portBack fn
  | none => s

/-- VENDOR_DEFINED_REQUEST (R226, R356, R363): IDE_KM works within a session; the interface report covers BAR2 size, HOST_WIN_BASE and the
hood's index range (R366). -/
def vendorEff (req : VdrOp) (s : State) : State :=
  let secured := fun (s : State) (eff : State → State) => if s.hat.sessions.any (fun e => e.2 == 2) then eff s else s.spdmErr 11
  match req with
  | .ideKeyProg stream h => secured s (fun s =>
      if 16 ≤ stream ∨ !s.hoodExists h then s.spdmErr 1
      else ({ s with hat := { s.hat with ideKeys := s.hat.ideKeys.insert stream (h + 1) } }).spdm 0x7E 0 false)
  | .ideKeySetGo stream => secured s (fun s =>
      if (s.hat.ideKeys.find stream).isNone then s.spdmErr 1
      else (s.streamGo stream).spdm 0x7E 0 false)
  | .ideKeySetStop stream => secured s (fun s => ({ s with hat := { s.hat with ideGo := s.hat.ideGo.erase stream } }).spdm 0x7E 0 false)
  | .tdispGetReport h =>
      if s.isTdi h then s.tdisp 4 h [s.front.vfBar2, s.winAt h, 0x10 + 8 * h] else s.tdisp 0x7F h []
  | .tdispGetState h => if s.isTdi h then s.tdisp 5 h [(s.hood h).tdi] else s.tdisp 0x7F h []
  | .tdispStart h =>
      if s.isTdi h ∧ (s.hood h).tdi = 1 then (s.modHood h (fun k => { k with tdi := 2 })).tdisp 6 h [] else s.tdisp 0x7F h []
  | .unsupported => s.spdmErr 7

def execVendorDefinedRequest (req : VdrOp) (s : State) : Host.Outcome State Fault Refusal := run true (fun s => s.onSpdm (vendorEff req)) s

/-- LOCK_INTERFACE_REQUEST (R226): accepted only once the hood is sealed. -/
def lockEff (h : Nat) (s : State) : State :=
  if s.isTdi h ∧ (s.hood h).sealed ∧ (s.hood h).tdi = 0 then (s.modHood h (fun k => { k with tdi := 1 })).tdisp 3 h [] else s.tdisp 0x7F h []

def execLockInterfaceRequest (h : Nat) (s : State) : Host.Outcome State Fault Refusal :=
  run (decide (h < 16)) (fun s => s.onSpdm (lockEff h)) s

/-- STOP_INTERFACE_REQUEST (R227): back to CONFIG_UNLOCKED; what ERROR kept from the port is sent. -/
def stopEff (h : Nat) (s : State) : State :=
  if !s.hoodExists h || (s.hood h).tdi == 0 && !s.isTdi h then s.tdisp 0x7F h []
  else
    ((s.modHood h (fun k => { k with tdi := 0 })).portBack (h + 1)).tdisp 7 h []

def execStopInterfaceRequest (h : Nat) (s : State) : Host.Outcome State Fault Refusal :=
  run (decide (h < 16)) (fun s => s.onSpdm (stopEff h)) s

end Sys2Proof.Machine
end

