-- ==== Sys2Proof/Machine/Timers.lean ====
section
/-!
DEFINITION. Machine/Timers.lean: the duties of the base dies that run by time: patrol (R103) and the halving of the access counters (R105).
-/
namespace Sys2Proof.Machine

/-- Does a line lie in a channel of a stack that serves? -/
def State.patrolled (s : State) (stack line : Nat) : Bool :=
  isLocalLine line && chanOfLine line / 32 == stack && !s.chanDown (chanOfLine line)

/-- PATROL (R103): the lines it has read with bad symbols in their codeword, and how many (R98, R99, R101). -/
def patrolEff (stack : Nat) (errs : List (Nat × Nat)) (s : State) : State :=
  errs.foldl (fun s e => if s.patrolled stack e.1 then s.eccEvent e.1 e.2 else s) s

/-- The operands are two lists of one length: the lines, and how many bad symbols each codeword had. -/
def execPatrol (stack : Nat) (lines errs : List Nat) (s : State) : Host.Outcome State Fault Refusal :=
  run (decide (stack < 8) && lines.length == errs.length && errs.all (fun e => decide (e ≤ 72))) (patrolEff stack (lines.zip errs)) s

/-- The threshold of the hood that owns a 64 KiB extent of a channel; none while no hood does. -/
def State.hotThr (s : State) (c x : Nat) : Option Nat :=
  ((s.extentOf (c * 2 ^ 26 + x * 1024)).filter (fun e => !e.lent)).map (fun e => s.reg rBIR_HOT_THR e.owner % 256)

/-- Halve the counters of a channel; an extent whose counter has fallen below the threshold may be listed again (R105). -/
def State.halveChan (s : State) (c : Nat) : State :=
  let low := fun (k : Chan) (x : Nat) => match s.hotThr c x with | some t => decide ((k.counts.find x).getD 0 < t) | none => true
  s.modChan c (fun k =>
    let k := { k with counts := (k.counts.map (fun (e : Nat × Nat) => (e.1, e.2 / 2))).filter (fun e => e.2 != 0) }
    { k with listed := k.listed.dropIf (fun x => low k x) })

/-- COUNTER_HALVE (R105). -/
def halveEff (stack : Nat) (s : State) : State := forN 32 s (fun s i => s.halveChan (32 * stack + i))

def execCounterHalve (stack : Nat) (s : State) : Host.Outcome State Fault Refusal := run (decide (stack < 8)) (halveEff stack) s

end Sys2Proof.Machine
end

