-- ==== Sys2Proof/Machine/Dispatch.lean ====
section
/-!
DEFINITION. Machine/Dispatch.lean: one arm per command, each a direct call of its meaning.
-/
namespace Sys2Proof.Machine

def exec (i : Instr) (s : State) : Host.Outcome State Fault Refusal :=
  match i with
  | .coldStart f katOk failSites failChans stuck => Sys2Proof.Machine.execColdStart f katOk failSites failChans stuck s
  | .hatterStartTimeout => Sys2Proof.Machine.execHatterStartTimeout s
  | .railRegulationTimeout rail => Sys2Proof.Machine.execRailRegulationTimeout rail s
  | .pgoodNapFall => Sys2Proof.Machine.execPgoodNapFall s
  | .perst => Sys2Proof.Machine.execPerst s
  | .perstDeassert refOk katOk failSites stuck => Sys2Proof.Machine.execPerstDeassert refOk katOk failSites stuck s
  | .dlDown => Sys2Proof.Machine.execDlDown s
  | .functionLevelReset h => Sys2Proof.Machine.execFunctionLevelReset h s
  | .pfFunctionLevelReset => Sys2Proof.Machine.execPfFunctionLevelReset s
  | .vfEnableClear => Sys2Proof.Machine.execVfEnableClear s
  | .vfEnableSet numVfs => Sys2Proof.Machine.execVfEnableSet numVfs s
  | .disablePathComplete h => Sys2Proof.Machine.execDisablePathComplete h s
  | .busMasterEnableChange fn bme mse fmask ctl => Sys2Proof.Machine.execBusMasterEnableChange fn bme mse fmask ctl s
  | .referenceCheckFault => Sys2Proof.Machine.execReferenceCheckFault s
  | .create h => Sys2Proof.Machine.execCreate h s
  | .reshape h => Sys2Proof.Machine.execReshape h s
  | .addRange h r => Sys2Proof.Machine.execAddRange h r s
  | .releaseRange h r => Sys2Proof.Machine.execReleaseRange h r s
  | .moveRange h r => Sys2Proof.Machine.execMoveRange h r s
  | .markRo h r => Sys2Proof.Machine.execMarkRo h r s
  | .seal h => Sys2Proof.Machine.execSeal h s
  | .restart h => Sys2Proof.Machine.execRestart h s
  | .destroy h => Sys2Proof.Machine.execDestroy h s
  | .blockCommit h => Sys2Proof.Machine.execBlockCommit h s
  | .drainComplete h => Sys2Proof.Machine.execDrainComplete h s
  | .moveCopyComplete h => Sys2Proof.Machine.execMoveCopyComplete h s
  | .eraseComplete stack => Sys2Proof.Machine.execEraseComplete stack s
  | .ask pkg len ro dMs => Sys2Proof.Machine.execAsk pkg len ro dMs s
  | .grant pkg leaseId loan => Sys2Proof.Machine.execGrant pkg leaseId loan s
  | .deny pkg => Sys2Proof.Machine.execDeny pkg s
  | .renew pkg leaseId => Sys2Proof.Machine.execRenew pkg leaseId s
  | .ack pkg leaseId => Sys2Proof.Machine.execAck pkg leaseId s
  | .returnLease pkg leaseId => Sys2Proof.Machine.execReturnLease pkg leaseId s
  | .leaseRenewTick h r => Sys2Proof.Machine.execLeaseRenewTick h r s
  | .leaseDeadline h r => Sys2Proof.Machine.execLeaseDeadline h r s
  | .leaseReclaim leaseId => Sys2Proof.Machine.execLeaseReclaim leaseId s
  | .leaseAskTimeout h => Sys2Proof.Machine.execLeaseAskTimeout h s
  | .ctxCreate h c => Sys2Proof.Machine.execCtxCreate h c s
  | .ctxDestroy h c => Sys2Proof.Machine.execCtxDestroy h c s
  | .ringCreate h r => Sys2Proof.Machine.execRingCreate h r s
  | .ringDestroy h r => Sys2Proof.Machine.execRingDestroy h r s
  | .setShare h c share => Sys2Proof.Machine.execSetShare h c share s
  | .teardownRelease h isCtx num => Sys2Proof.Machine.execTeardownRelease h isCtx num s
  | .register h => Sys2Proof.Machine.execRegister h s
  | .unregister h pid => Sys2Proof.Machine.execUnregister h pid s
  | .retry h seq => Sys2Proof.Machine.execRetry h seq s
  | .fail h seq => Sys2Proof.Machine.execFail h seq s
  | .migrate h seq => Sys2Proof.Machine.execMigrate h seq s
  | .faultTimeout h seq => Sys2Proof.Machine.execFaultTimeout h seq s
  | .faultRecordWrite h => Sys2Proof.Machine.execFaultRecordWrite h s
  | .invalidationRequest h c => Sys2Proof.Machine.execInvalidationRequest h c s
  | .invalidationFence h => Sys2Proof.Machine.execInvalidationFence h s
  | .atsTranslationCompletion h pasid pgs hostPage r w => Sys2Proof.Machine.execAtsTranslationCompletion h pasid pgs hostPage r w s
  | .priPageRequest h pasid page => Sys2Proof.Machine.execPriPageRequest h pasid page s
  | .priResponse h pasid page code => Sys2Proof.Machine.execPriResponse h pasid page code s
  | .atsInvalidateRequest h pasid page pages => Sys2Proof.Machine.execAtsInvalidateRequest h pasid page pages s
  | .hoodReset fn => Sys2Proof.Machine.execHoodReset fn s
  | .plankReset p failSites => Sys2Proof.Machine.execPlankReset p failSites s
  | .plankResetSaveTimeout p => Sys2Proof.Machine.execPlankResetSaveTimeout p s
  | .repairSite f spareOk => Sys2Proof.Machine.execRepairSite f spareOk s
  | .retireChannel c => Sys2Proof.Machine.execRetireChannel c s
  | .apply classes => Sys2Proof.Machine.execApply classes s
  | .freeze peerOk => Sys2Proof.Machine.execFreeze peerOk s
  | .thaw => Sys2Proof.Machine.execThaw s
  | .restore img => Sys2Proof.Machine.execRestore img s
  | .retrain => Sys2Proof.Machine.execRetrain s
  | .disable => Sys2Proof.Machine.execDisable s
  | .enable => Sys2Proof.Machine.execEnable s
  | .svnCommit => Sys2Proof.Machine.execSvnCommit s
  | .config => Sys2Proof.Machine.execConfig s
  | .debugOpen => Sys2Proof.Machine.execDebugOpen s
  | .intFuncRearm fn ide => Sys2Proof.Machine.execIntFuncRearm fn ide s
  | .topTsHostWrite fn ide v => Sys2Proof.Machine.execTopTsHostWrite fn ide v s
  | .stlPkgIdWrite v => Sys2Proof.Machine.execStlPkgIdWrite v s
  | .capWrite v => Sys2Proof.Machine.execCapWrite v s
  | .sidebandCapSet watts => Sys2Proof.Machine.execSidebandCapSet watts s
  | .modeWrite v => Sys2Proof.Machine.execModeWrite v s
  | .groupEnable v => Sys2Proof.Machine.execGroupEnable v s
  | .hatbandConfigWrite off v => Sys2Proof.Machine.execHatbandConfigWrite off v s
  | .holdSet => Sys2Proof.Machine.execHoldSet s
  | .holdClear => Sys2Proof.Machine.execHoldClear s
  | .serviceStateWrite v => Sys2Proof.Machine.execServiceStateWrite v s
  | .saveAreaWrite isLen v => Sys2Proof.Machine.execSaveAreaWrite isLen v s
  | .feCtxCountWrite v => Sys2Proof.Machine.execFeCtxCountWrite v s
  | .feRingCountWrite v => Sys2Proof.Machine.execFeRingCountWrite v s
  | .poolConfigWrite r v => Sys2Proof.Machine.execPoolConfigWrite r v s
  | .causeClear fn ide off v => Sys2Proof.Machine.execCauseClear fn ide off v s
  | .alertSummaryClear v => Sys2Proof.Machine.execAlertSummaryClear v s
  | .registerWrite fn ide off width v => Sys2Proof.Machine.execRegisterWrite fn ide off width v s
  | .lowerHalfRead fn ide off => Sys2Proof.Machine.execLowerHalfRead fn ide off s
  | .lowerHalfWrite fn ide off v => Sys2Proof.Machine.execLowerHalfWrite fn ide off v s
  | .invalidRegisterAccess fn ide off width isRead => Sys2Proof.Machine.execInvalidRegisterAccess fn ide off width isRead s
  | .windowRead h ide off len ecc => Sys2Proof.Machine.execWindowRead h ide off len ecc s
  | .windowWrite h ide off data => Sys2Proof.Machine.execWindowWrite h ide off data s
  | .wakePageWrite h ide off width v => Sys2Proof.Machine.execWakePageWrite h ide off width v s
  | .atomicopRequest fn bar => Sys2Proof.Machine.execAtomicopRequest fn bar s
  | .poisonedTlpReceived fn => Sys2Proof.Machine.execPoisonedTlpReceived fn s
  | .completionTimeout fn w => Sys2Proof.Machine.execCompletionTimeout fn w s
  | .ideIntegrityFailure stream => Sys2Proof.Machine.execIdeIntegrityFailure stream s
  | .msixModExpiry fn => Sys2Proof.Machine.execMsixModExpiry fn s
  | .msixUnmask fn => Sys2Proof.Machine.execMsixUnmask fn s
  | .mctpControlMessage bus code eid => Sys2Proof.Machine.execMctpControlMessage bus code eid s
  | .pldmRequest code arg => Sys2Proof.Machine.execPldmRequest code arg s
  | .pldmFirmwareUpdate img => Sys2Proof.Machine.execPldmFirmwareUpdate img s
  | .imageVerified cls => Sys2Proof.Machine.execImageVerified cls s
  | .getVersion => Sys2Proof.Machine.execGetVersion s
  | .getCapabilities => Sys2Proof.Machine.execGetCapabilities s
  | .negotiateAlgorithms => Sys2Proof.Machine.execNegotiateAlgorithms s
  | .getDigests => Sys2Proof.Machine.execGetDigests s
  | .getCertificate slot off len => Sys2Proof.Machine.execGetCertificate slot off len s
  | .challenge slot => Sys2Proof.Machine.execChallenge slot s
  | .getMeasurements idx => Sys2Proof.Machine.execGetMeasurements idx s
  | .keyExchange sid => Sys2Proof.Machine.execKeyExchange sid s
  | .finish sid => Sys2Proof.Machine.execFinish sid s
  | .heartbeat sid => Sys2Proof.Machine.execHeartbeat sid s
  | .keyUpdate sid => Sys2Proof.Machine.execKeyUpdate sid s
  | .endSession sid => Sys2Proof.Machine.execEndSession sid s
  | .chunkSend seq last => Sys2Proof.Machine.execChunkSend seq last s
  | .chunkGet seq => Sys2Proof.Machine.execChunkGet seq s
  | .vendorDefinedRequest req => Sys2Proof.Machine.execVendorDefinedRequest req s
  | .lockInterfaceRequest h => Sys2Proof.Machine.execLockInterfaceRequest h s
  | .stopInterfaceRequest h => Sys2Proof.Machine.execStopInterfaceRequest h s
  | .nop w => Sys2Proof.Machine.execNop w s
  | .patternLaunch w => Sys2Proof.Machine.execPatternLaunch w s
  | .patch w => Sys2Proof.Machine.execPatch w s
  | .fenceSignal w => Sys2Proof.Machine.execFenceSignal w s
  | .fenceWait w => Sys2Proof.Machine.execFenceWait w s
  | .chain w => Sys2Proof.Machine.execChain w s
  | .strided w => Sys2Proof.Machine.execStrided w s
  | .gather w => Sys2Proof.Machine.execGather w s
  | .scatter w => Sys2Proof.Machine.execScatter w s
  | .fill w => Sys2Proof.Machine.execFill w s
  | .copyComplete w => Sys2Proof.Machine.execCopyComplete w s
  | .mma w => Sys2Proof.Machine.execMma w s
  | .wb w => Sys2Proof.Machine.execWb w s
  | .merge w => Sys2Proof.Machine.execMerge w s
  | .load w => Sys2Proof.Machine.execLoad w s
  | .store w => Sys2Proof.Machine.execStore w s
  | .kvc w => Sys2Proof.Machine.execKvc w s
  | .attn w => Sys2Proof.Machine.execAttn w s
  | .kvringSetUp w => Sys2Proof.Machine.execKvringSetUp w s
  | .kvringTearDown w => Sys2Proof.Machine.execKvringTearDown w s
  | .bar w => Sys2Proof.Machine.execBar w s
  | .vecAdd w => Sys2Proof.Machine.execVecAdd w s
  | .vecSub w => Sys2Proof.Machine.execVecSub w s
  | .vecMul w => Sys2Proof.Machine.execVecMul w s
  | .vecFma w => Sys2Proof.Machine.execVecFma w s
  | .vecMin w => Sys2Proof.Machine.execVecMin w s
  | .vecMax w => Sys2Proof.Machine.execVecMax w s
  | .vecAbs w => Sys2Proof.Machine.execVecAbs w s
  | .vecNeg w => Sys2Proof.Machine.execVecNeg w s
  | .vecCmp w => Sys2Proof.Machine.execVecCmp w s
  | .vecSel w => Sys2Proof.Machine.execVecSel w s
  | .vecExp2 w => Sys2Proof.Machine.execVecExp2 w s
  | .vecLog2 w => Sys2Proof.Machine.execVecLog2 w s
  | .vecRcp w => Sys2Proof.Machine.execVecRcp w s
  | .vecRsqrt w => Sys2Proof.Machine.execVecRsqrt w s
  | .vecExp w => Sys2Proof.Machine.execVecExp w s
  | .vecLn w => Sys2Proof.Machine.execVecLn w s
  | .cvtDown w => Sys2Proof.Machine.execCvtDown w s
  | .cvtUp w => Sys2Proof.Machine.execCvtUp w s
  | .qmx w => Sys2Proof.Machine.execQmx w s
  | .stb w => Sys2Proof.Machine.execStb w s
  | .rmax w => Sys2Proof.Machine.execRmax w s
  | .rsum w => Sys2Proof.Machine.execRsum w s
  | .accrd w => Sys2Proof.Machine.execAccrd w s
  | .kernelComplete w => Sys2Proof.Machine.execKernelComplete w s
  | .descriptorFetch r => Sys2Proof.Machine.execDescriptorFetch r s
  | .doorbellPoll r => Sys2Proof.Machine.execDoorbellPoll r s
  | .ringSleep r => Sys2Proof.Machine.execRingSleep r s
  | .ringRotate r => Sys2Proof.Machine.execRingRotate r s
  | .signalApply => Sys2Proof.Machine.execSignalApply s
  | .waitTimeout w => Sys2Proof.Machine.execWaitTimeout w s
  | .fencePoll w => Sys2Proof.Machine.execFencePoll w s
  | .deadlockScan => Sys2Proof.Machine.execDeadlockScan s
  | .quantumExpiry w => Sys2Proof.Machine.execQuantumExpiry w s
  | .saveComplete w => Sys2Proof.Machine.execSaveComplete w s
  | .scratchpadParityError site => Sys2Proof.Machine.execScratchpadParityError site s
  | .plankGateIdle p => Sys2Proof.Machine.execPlankGateIdle p s
  | .barrierArrival unit site gen => Sys2Proof.Machine.execBarrierArrival unit site gen s
  | .fullingHoldEnd unit => Sys2Proof.Machine.execFullingHoldEnd unit s
  | .issueRampStage p => Sys2Proof.Machine.execIssueRampStage p s
  | .capStageTimeout h => Sys2Proof.Machine.execCapStageTimeout h s
  | .powerEstimateTick pkgWatts est => Sys2Proof.Machine.execPowerEstimateTick pkgWatts est s
  | .freqStepComplete p => Sys2Proof.Machine.execFreqStepComplete p s
  | .droopTrip p => Sys2Proof.Machine.execDroopTrip p s
  | .droopStretchEnd p => Sys2Proof.Machine.execDroopStretchEnd p s
  | .droopHoldoffEnd p => Sys2Proof.Machine.execDroopHoldoffEnd p s
  | .droopIntervalEnd p overHalf => Sys2Proof.Machine.execDroopIntervalEnd p overHalf s
  | .electricalEmergency regulator => Sys2Proof.Machine.execElectricalEmergency regulator s
  | .emergencyReleaseStage => Sys2Proof.Machine.execEmergencyReleaseStage s
  | .pmbusTelemetryPoll readings faults => Sys2Proof.Machine.execPmbusTelemetryPoll readings faults s
  | .pmbAlert rail fault => Sys2Proof.Machine.execPmbAlert rail fault s
  | .regulatorTimeout rail => Sys2Proof.Machine.execRegulatorTimeout rail s
  | .thermalSample readings layers => Sys2Proof.Machine.execThermalSample readings layers s
  | .throttleStep p => Sys2Proof.Machine.execThrottleStep p s
  | .throttleRecoveryStep p => Sys2Proof.Machine.execThrottleRecoveryStep p s
  | .thermalEmergency sensor => Sys2Proof.Machine.execThermalEmergency sensor s
  | .hardwareThermalTrip sensor => Sys2Proof.Machine.execHardwareThermalTrip sensor s
  | .groupConfirmTick => Sys2Proof.Machine.execGroupConfirmTick s
  | .arrive member gid seq lateness => Sys2Proof.Machine.execArrive member gid seq lateness s
  | .shift seq off time => Sys2Proof.Machine.execShift seq off time s
  | .revert pkg => Sys2Proof.Machine.execRevert pkg s
  | .groupShiftTimeout => Sys2Proof.Machine.execGroupShiftTimeout s
  | .groupRestoreTimer => Sys2Proof.Machine.execGroupRestoreTimer s
  | .groupOffsetRiseTimer => Sys2Proof.Machine.execGroupOffsetRiseTimer s
  | .hatbandWindowStart h => Sys2Proof.Machine.execHatbandWindowStart h s
  | .rds line who ecc => Sys2Proof.Machine.execRds line who ecc s
  | .rdx line who => Sys2Proof.Machine.execRdx line who s
  | .upg line who => Sys2Proof.Machine.execUpg line who s
  | .rdu h line req ecc => Sys2Proof.Machine.execRdu h line req ecc s
  | .wru h line req off ecc data => Sys2Proof.Machine.execWru h line req off ecc data s
  | .wbm line req => Sys2Proof.Machine.execWbm line req s
  | .evc line req => Sys2Proof.Machine.execEvc line req s
  | .atomicAdd a => Sys2Proof.Machine.execAtomicAdd a s
  | .atomicAnd a => Sys2Proof.Machine.execAtomicAnd a s
  | .atomicOr a => Sys2Proof.Machine.execAtomicOr a s
  | .atomicXor a => Sys2Proof.Machine.execAtomicXor a s
  | .atomicSmin a => Sys2Proof.Machine.execAtomicSmin a s
  | .atomicSmax a => Sys2Proof.Machine.execAtomicSmax a s
  | .atomicUmin a => Sys2Proof.Machine.execAtomicUmin a s
  | .atomicUmax a => Sys2Proof.Machine.execAtomicUmax a s
  | .atomicSwap a => Sys2Proof.Machine.execAtomicSwap a s
  | .atomicCas a => Sys2Proof.Machine.execAtomicCas a s
  | .atomicFadd a => Sys2Proof.Machine.execAtomicFadd a s
  | .fwds line holder => Sys2Proof.Machine.execFwds line holder s
  | .fwdx line holder => Sys2Proof.Machine.execFwdx line holder s
  | .fwdrd line holder => Sys2Proof.Machine.execFwdrd line holder s
  | .inv line holder => Sys2Proof.Machine.execInv line holder s
  | .recall line holder => Sys2Proof.Machine.execRecall line holder s
  | .invack line holder => Sys2Proof.Machine.execInvack line holder s
  | .done line src => Sys2Proof.Machine.execDone line src s
  | .upgradeGrant line req => Sys2Proof.Machine.execUpgradeGrant line req s
  | .atomresult line req => Sys2Proof.Machine.execAtomresult line req s
  | .wrack line req => Sys2Proof.Machine.execWrack line req s
  | .data line req => Sys2Proof.Machine.execData line req s
  | .datax line req => Sys2Proof.Machine.execDatax line req s
  | .wbdata line src => Sys2Proof.Machine.execWbdata line src s
  | .patrol stack lines errs => Sys2Proof.Machine.execPatrol stack lines errs s
  | .counterHalve stack => Sys2Proof.Machine.execCounterHalve stack s
  | .dataFlit f => Sys2Proof.Machine.execDataFlit f s
  | .idleFlit f => Sys2Proof.Machine.execIdleFlit f s
  | .linkLoss e => Sys2Proof.Machine.execLinkLoss e s
  | .keepaliveTick => Sys2Proof.Machine.execKeepaliveTick s
  | .keepalive pkg => Sys2Proof.Machine.execKeepalive pkg s
  | .pathLoss pkg => Sys2Proof.Machine.execPathLoss pkg s
  | .retrainNotice l => Sys2Proof.Machine.execRetrainNotice l s
  | .linkTrainingComplete l lanes => Sys2Proof.Machine.execLinkTrainingComplete l lanes s
  | .linkRetrainRetry l => Sys2Proof.Machine.execLinkRetrainRetry l s
  | .mreqHoldRelease die dst => Sys2Proof.Machine.execMreqHoldRelease die dst s
  | .associationRekey die idx => Sys2Proof.Machine.execAssociationRekey die idx s
  | .pieceSend engine => Sys2Proof.Machine.execPieceSend engine s
  | .pieceLanded engine spot data psn => Sys2Proof.Machine.execPieceLanded engine spot data psn s
  | .tamperTrip cause => Sys2Proof.Machine.execTamperTrip cause s
  | .hatterWatchdogTimeout => Sys2Proof.Machine.execHatterWatchdogTimeout s
  | .singeCountRetry accepted => Sys2Proof.Machine.execSingeCountRetry accepted s
  | .trngHealthFailure => Sys2Proof.Machine.execTrngHealthFailure s
  | .physicalFault kind index => Sys2Proof.Machine.execPhysicalFault kind index s
  | .devicePowerStateChange fn d3hot => Sys2Proof.Machine.execDevicePowerStateChange fn d3hot s
  | .interruptDisableChange v => Sys2Proof.Machine.execInterruptDisableChange v s
  | .resizableBarWrite log2 => Sys2Proof.Machine.execResizableBarWrite log2 s
  | .pcieLinkError code => Sys2Proof.Machine.execPcieLinkError code s
  | .dynamicAddressAssignment addr => Sys2Proof.Machine.execDynamicAddressAssignment addr s
  | .rstdaa => Sys2Proof.Machine.execRstdaa s

end Sys2Proof.Machine
end

