-- ==== Sys2Proof/Machine/Tick.lean ====
section
/-!
DEFINITION. Machine/Tick.lean: what the block does while no command waits.
-/
namespace Sys2Proof.Machine

/-- One nanosecond passes: the package counter counts while the nap domain is powered (R6, R15; log entry 20). -/
def tick (s : State) : State :=
  if s.nap.pgood then finish s { s with nap := { s.nap with counter := s.nap.counter + 1 } } else s

end Sys2Proof.Machine
end

