-- ==== Sys2Proof/WellFormed.lean ====
section
/-!
DEFINITION. WellFormed.lean: when the operands of a command name units the package has (R2, R16): 16 hoods, 17 functions, 128 planks,
40 links, 8 stacks, 15 rails, 155 sensors, 16 rotation engines, and so on. Every other command faults (Fault.noSuchUnit).
-/
namespace Sys2Proof
open Sys2Proof.Machine

/-- Are the operands of a command well formed? -/
def Instr.wf : Instr → Bool
  | .coldStart _ _ _ _ _ => true
  | .hatterStartTimeout => true
  | .railRegulationTimeout rail => decide (rail < 15)
  | .pgoodNapFall => true
  | .perst => true
  | .perstDeassert _ _ _ _ => true
  | .dlDown => true
  | .functionLevelReset h => decide (h < 16)
  | .pfFunctionLevelReset => true
  | .vfEnableClear => true
  | .vfEnableSet numVfs => decide (numVfs ≤ 16)
  | .disablePathComplete h => decide (h < 16)
  | .busMasterEnableChange fn bme mse fmask ctl => decide (fn < 17) && cfgOk ⟨ctl, bme, mse, fmask⟩
  | .referenceCheckFault => true
  | .create h => decide (h < 16)
  | .reshape h => decide (h < 16)
  | .addRange h i => decide (h < 16 ∧ i < 256)
  | .releaseRange h i => decide (h < 16 ∧ i < 256)
  | .moveRange h i => decide (h < 16 ∧ i < 256)
  | .markRo h i => decide (h < 16 ∧ i < 256)
  | .seal h => decide (h < 16)
  | .restart h => decide (h < 16)
  | .destroy h => decide (h < 16)
  | .blockCommit h => decide (h < 16)
  | .drainComplete h => decide (h < 16)
  | .moveCopyComplete h => decide (h < 16)
  | .eraseComplete stack => decide (stack < 8)
  | .ask pkg _ _ _ => decide (pkg < 4096)
  | .grant pkg _ _ => decide (pkg < 4096)
  | .deny pkg => decide (pkg < 4096)
  | .renew pkg _ => decide (pkg < 4096)
  | .ack pkg _ => decide (pkg < 4096)
  | .returnLease pkg _ => decide (pkg < 4096)
  | .leaseRenewTick h i => decide (h < 16 ∧ i < 256)
  | .leaseDeadline h i => decide (h < 16 ∧ i < 256)
  | .leaseReclaim _ => true
  | .leaseAskTimeout h => decide (h < 16)
  | .ctxCreate h _ => decide (h < 16)
  | .ctxDestroy h _ => decide (h < 16)
  | .ringCreate h _ => decide (h < 16)
  | .ringDestroy h _ => decide (h < 16)
  | .setShare h _ _ => decide (h < 16)
  | .teardownRelease h _ _ => decide (h < 16)
  | .register h => decide (h < 16)
  | .unregister h _ => decide (h < 16)
  | .retry h _ => decide (h < 16)
  | .fail h _ => decide (h < 16)
  | .migrate h _ => decide (h < 16)
  | .faultTimeout h _ => decide (h < 16)
  | .faultRecordWrite h => decide (h < 16)
  | .invalidationRequest h _ => decide (h < 16)
  | .invalidationFence h => decide (h < 16)
  | .atsTranslationCompletion h _ pgs _ _ _ => decide (h < 16) && atsSizeOk pgs.pages
  | .priPageRequest h _ _ => decide (h < 16)
  | .priResponse h _ _ _ => decide (h < 16)
  | .atsInvalidateRequest h _ _ _ => decide (h < 16)
  | .hoodReset fn => decide (fn < 17)
  | .plankReset _ _ => true
  | .plankResetSaveTimeout p => decide (p < 128)
  | .repairSite _ _ => true
  | .retireChannel _ => true
  | .apply _ => true
  | .freeze _ => true
  | .thaw => true
  | .restore _ => true
  | .retrain => true
  | .disable => true
  | .enable => true
  | .svnCommit => true
  | .config => true
  | .debugOpen => true
  | .intFuncRearm fn _ => fnOk fn
  | .topTsHostWrite fn _ _ => fnOk fn
  | .stlPkgIdWrite _ => true
  | .capWrite _ => true
  | .sidebandCapSet _ => true
  | .modeWrite _ => true
  | .groupEnable _ => true
  | .hatbandConfigWrite _ _ => true
  | .holdSet => true
  | .holdClear => true
  | .serviceStateWrite _ => true
  | .saveAreaWrite _ _ => true
  | .feCtxCountWrite _ => true
  | .feRingCountWrite _ => true
  | .poolConfigWrite i _ => decide (i < 6)
  | .causeClear fn _ _ _ => fnOk fn
  | .alertSummaryClear _ => true
  | .registerWrite fn _ _ _ _ => fnOk fn
  | .lowerHalfRead fn _ _ => fnOk fn
  | .lowerHalfWrite fn _ _ _ => fnOk fn
  | .invalidRegisterAccess fn _ _ _ _ => fnOk fn
  | .windowRead h _ _ len ecc => decide (h < 16) && decide (len ≤ 4096) && decide (ecc ≤ 72)
  | .windowWrite h _ _ data' => decide (h < 16) && decide (data'.length ≤ 4096)
  | .wakePageWrite h _ _ _ _ => decide (h < 16)
  | .atomicopRequest fn bar' => decide (fn < 17) && (bar' == 0 || (fn != 0 && (bar' == 2 || bar' == 4)))
  | .poisonedTlpReceived fn => decide (fn < 17)
  | .completionTimeout fn _ => decide (fn < 17)
  | .ideIntegrityFailure stream => decide (stream < 16)
  | .msixModExpiry fn => decide (fn < 17)
  | .msixUnmask fn => decide (fn < 17)
  | .mctpControlMessage bus _ _ => decide (bus < 3)
  | .pldmRequest _ _ => true
  | .pldmFirmwareUpdate _ => true
  | .imageVerified cls => decide (cls < 5)
  | .getVersion => true
  | .getCapabilities => true
  | .negotiateAlgorithms => true
  | .getDigests => true
  | .getCertificate _ _ _ => true
  | .challenge _ => true
  | .getMeasurements idx => decide (idx < 256)
  | .keyExchange _ => true
  | .finish _ => true
  | .heartbeat _ => true
  | .keyUpdate _ => true
  | .endSession _ => true
  | .chunkSend _ _ => true
  | .chunkGet _ => true
  | .vendorDefinedRequest _ => true
  | .lockInterfaceRequest h => decide (h < 16)
  | .stopInterfaceRequest h => decide (h < 16)
  | .nop _ => true
  | .patternLaunch _ => true
  | .patch _ => true
  | .fenceSignal _ => true
  | .fenceWait _ => true
  | .chain _ => true
  | .strided _ => true
  | .gather _ => true
  | .scatter _ => true
  | .fill _ => true
  | .copyComplete _ => true
  | .mma _ => true
  | .wb _ => true
  | .merge _ => true
  | .load _ => true
  | .store _ => true
  | .kvc _ => true
  | .attn _ => true
  | .kvringSetUp _ => true
  | .kvringTearDown _ => true
  | .bar _ => true
  | .vecAdd _ => true
  | .vecSub _ => true
  | .vecMul _ => true
  | .vecFma _ => true
  | .vecMin _ => true
  | .vecMax _ => true
  | .vecAbs _ => true
  | .vecNeg _ => true
  | .vecCmp _ => true
  | .vecSel _ => true
  | .vecExp2 _ => true
  | .vecLog2 _ => true
  | .vecRcp _ => true
  | .vecRsqrt _ => true
  | .vecExp _ => true
  | .vecLn _ => true
  | .cvtDown _ => true
  | .cvtUp _ => true
  | .qmx _ => true
  | .stb _ => true
  | .rmax _ => true
  | .rsum _ => true
  | .accrd _ => true
  | .kernelComplete _ => true
  | .descriptorFetch r => decide (r < 8192)
  | .doorbellPoll r => decide (r < 8192)
  | .ringSleep r => decide (r < 8192)
  | .ringRotate r => decide (r < 8192)
  | .signalApply => true
  | .waitTimeout _ => true
  | .fencePoll _ => true
  | .deadlockScan => true
  | .quantumExpiry _ => true
  | .saveComplete _ => true
  | .scratchpadParityError site => decide (site < 1664)
  | .plankGateIdle p => decide (p < 128)
  | .barrierArrival unit site _ => decide (unit < 1024) && decide (site < 1664)
  | .fullingHoldEnd unit => decide (unit < 1024)
  | .issueRampStage p => decide (p < 128)
  | .capStageTimeout h => decide (h < 16)
  | .powerEstimateTick _ _ => true
  | .freqStepComplete p => decide (p < 128)
  | .droopTrip p => decide (p < 128)
  | .droopStretchEnd p => decide (p < 128)
  | .droopHoldoffEnd p => decide (p < 128)
  | .droopIntervalEnd p _ => decide (p < 128)
  | .electricalEmergency _ => true
  | .emergencyReleaseStage => true
  | .pmbusTelemetryPoll _ faults => faults.all (fun r => decide (r < 15))
  | .pmbAlert rail _ => decide (rail < 15)
  | .regulatorTimeout rail => decide (rail < 15)
  | .thermalSample _ _ => true
  | .throttleStep p => decide (p < 128)
  | .throttleRecoveryStep p => decide (p < 128)
  | .thermalEmergency sensor => decide (sensor < 155)
  | .hardwareThermalTrip sensor => decide (sensor < 155)
  | .groupConfirmTick => true
  | .arrive _ _ _ _ => true
  | .shift _ _ _ => true
  | .revert _ => true
  | .groupShiftTimeout => true
  | .groupRestoreTimer => true
  | .groupOffsetRiseTimer => true
  | .hatbandWindowStart h => decide (h < 16)
  | .rds line who ecc => lineOk line && decide (who.hood < 16) && decide (who.req < 9) && decide (ecc ≤ 72)
  | .rdx line who => isLocalLine line && decide (who.hood < 16) && decide (who.req < 9)
  | .upg line who => isLocalLine line && decide (who.hood < 16) && decide (who.req < 9)
  | .rdu h line _ ecc => isLocalLine line && decide (h < 16) && decide (ecc ≤ 72)
  | .wru h line _ off ecc data' => isLocalLine line && decide (h < 16) && decide (off + data'.length ≤ 64) && decide (ecc ≤ 72)
  | .wbm line req => isLocalLine line && decide (req < 9)
  | .evc line req => lineOk line && decide (req < 9)
  | .atomicAdd a => atomOk 0 a
  | .atomicAnd a => atomOk 1 a
  | .atomicOr a => atomOk 2 a
  | .atomicXor a => atomOk 3 a
  | .atomicSmin a => atomOk 4 a
  | .atomicSmax a => atomOk 5 a
  | .atomicUmin a => atomOk 6 a
  | .atomicUmax a => atomOk 7 a
  | .atomicSwap a => atomOk 8 a
  | .atomicCas a => atomOk 9 a
  | .atomicFadd a => atomOk 10 a
  | .fwds line holder => lineOk line && decide (holder < 9)
  | .fwdx line holder => lineOk line && decide (holder < 9)
  | .fwdrd line holder => lineOk line && decide (holder < 9)
  | .inv line holder => lineOk line && decide (holder < 9)
  | .recall line holder => lineOk line && decide (holder < 9)
  | .invack line holder => lineOk line && decide (holder < 9)
  | .done line src => lineOk line && decide (src < 9)
  | .upgradeGrant line req => lineOk line && decide (req < 9)
  | .atomresult line _ => lineOk line
  | .wrack line _ => lineOk line
  | .data line _ => lineOk line
  | .datax line req => lineOk line && decide (req < 9)
  | .wbdata line src => isLocalLine line && decide (src < 9)
  | .patrol stack lines errs => decide (stack < 8) && lines.length == errs.length && errs.all (fun e => decide (e ≤ 72))
  | .counterHalve stack => decide (stack < 8)
  | .dataFlit f => decide (f.link < 40)
  | .idleFlit f => decide (f.link < 40)
  | .linkLoss e => decide (e.link < 40)
  | .keepaliveTick => true
  | .keepalive pkg => decide (pkg < 4096)
  | .pathLoss pkg => decide (pkg < 4096)
  | .retrainNotice l => decide (l < 40)
  | .linkTrainingComplete l _ => decide (l < 40)
  | .linkRetrainRetry l => decide (l < 40)
  | .mreqHoldRelease die dst => decide (die < 2) && decide (dst < 4096)
  | .associationRekey die idx => decide (die < 2) && decide (idx < 64)
  | .pieceSend engine => decide (engine < 16)
  | .pieceLanded engine _ _ _ => decide (engine < 16)
  | .tamperTrip cause => decide (1 ≤ cause) && decide (cause ≤ 4)
  | .hatterWatchdogTimeout => true
  | .singeCountRetry _ => true
  | .trngHealthFailure => true
  | .physicalFault kind index => decide (index < unitCount kind)
  | .devicePowerStateChange fn _ => decide (fn < 17)
  | .interruptDisableChange _ => true
  | .resizableBarWrite _ => true
  | .pcieLinkError _ => true
  | .dynamicAddressAssignment addr => decide (addr < 128)
  | .rstdaa => true

end Sys2Proof
end

