-- ==== Sys2Proof/Safety.lean ====
section
/-!
DEFINITION. Safety.lean: the terms in which the statements speak: a command that completes, a package that is powered and READY, and what
holds of the outputs after every command.
-/
namespace Sys2Proof.Machine

/-- The command is carried out, and what it leaves satisfies `Q`. -/
def Completes (c : Instr) (s : State) (Q : State → Prop) : Prop := ∃ t, exec c s = .next t ∧ Q t

/-- The nap domain is powered, so commands act (R410). -/
def Powered (s : State) : Prop := s.nap.pgood = true

/-- The package is powered and READY (R377 step 12). -/
def Ready (s : State) : Prop := s.nap.pgood = true ∧ s.ready = true

/-- The interrupt outputs are what the tree makes them (R230, R232, R234): ALERT_N is low exactly while an enabled alert stands, INTA
follows its three conditions, and a function whose summary reads zero has no pending bit and no held message. -/
def Settled (s : State) : Prop :=
  (s.nap.alertN = true ↔ s.nap.alert &&& s.nap.alertEn ≠ 0) ∧
  ∀ fn, fn < 17 →
    ((s.fn fn).inta = s.intaNow fn) ∧
    (s.summary fn = 0 → (s.fn fn).pba = false ∧ (s.fn fn).held = false ∧ (s.fn fn).bmeHeld = false)

/-- The first thing a command has sent to the host is `o`. -/
def Answers (s t : State) (o : HostOut) : Prop := ∃ l, t.outs.host = s.outs.host ++ o :: l

/-- The first thing a command has sent on the sideband lands or board buses is `o`. -/
def AnswersBoard (s t : State) (o : BoardOut) : Prop := ∃ l, t.outs.board = s.outs.board ++ o :: l

/-- Nothing differs but functions' interrupt and error state, ALERT_N and what has been sent to the host. -/
def OnlyPort (s t : State) : Prop :=
  t = { s with fns := t.fns, nap := { s.nap with alertN := t.nap.alertN }, outs := { s.outs with host := t.outs.host } }

/-- A READY package whose PF takes accesses to its BAR0 (R218, R226). -/
def PfOpen (s : State) : Prop := Ready s ∧ (s.fn 0).d3hot = false ∧ s.nap.refFault = false

/-- Nothing waits for requests of the function to cross the port (R225): at the PF no block command, request, token or service; at a VF no
registration, MIGRATE, held entry, doorbell record or completion of its hood. -/
def NothingHeld (s : State) (fn : Nat) : Prop :=
  if fn = 0 then
    s.front.heldBlk = [] ∧ s.reg rSEC_REQ_STATUS 0 ≠ 1 ∧ s.reg rDBG_TOKEN_STATUS 0 ≠ 1 ∧ s.hat.repair = none ∧
      ∀ h, h < 16 → (s.hood h).ucNext = [] ∧ s.migBusy h = false
  else
    s.front.patWait.contains (fn - 1) = false ∧ (∀ f, f ∈ (s.hood (fn - 1)).faults → f.mig = none) ∧ s.ctxs = [] ∧ s.rings = [] ∧ s.works = []

/-- The function holds what a configuration write gave it; what a function does not have of its own is the PF's (R218, R224). -/
def StoresCfg (fn : Nat) (c : FnCfg) (t : State) : Prop :=
  (t.fn fn).bme = c.bme ∧ (t.fn fn).mse = c.mse ∧ (t.fn fn).fmask = c.fmask ∧ (t.fn fn).relax = c.relax ∧ (t.fn fn).maxPay = c.maxPay ∧
    (t.fn fn).maxRd = c.maxRd ∧ (fn ≠ 0 → (t.fn fn).ats = c.ats ∧ (t.fn fn).stu = c.stu) ∧
    (fn = 0 → (t.fn 0).pasid = c.pasid ∧ (t.fn 0).pri = c.pri ∧ (t.fn 0).tags = c.tags ∧ (t.fn 0).ari = c.ari ∧ (t.fn 0).rate = c.rate ∧
      (t.fn 0).width = c.width ∧ (t.fn 0).l0p = c.l0p)

/-- Registers are all that differs, and of them only the copies named (offset, copy). -/
def OnlyRegisters (l : List (Nat × Nat)) (s t : State) : Prop :=
  t = { s with
    regs := t.regs, fns := t.fns, nap := { s.nap with alertN := t.nap.alertN }, outs := { s.outs with host := t.outs.host } } ∧
  ∀ off i, (off, i) ∉ l → off < 2 ^ 26 → i < 8192 → t.reg off i = s.reg off i

/-- The hatter answers SPDM requests (R235, R347, R366). -/
def SpdmUp (s : State) : Prop :=
  Powered s ∧ s.nap.perst = false ∧ s.nap.tripped = false ∧ s.nap.spine = false ∧ s.nap.classB = false ∧ s.nap.hatFail = false ∧
    s.hat.runs = true

/-- A local byte whose reads and writes go to memory alone: its line lies in an extent of hood `h` whose key is held and whose counting is off,
in a channel that serves; no cache holds the line, nothing about it is in flight, and no move writes it twice. -/
def PlainLine (s : State) (h line : Nat) : Prop :=
  isLocalLine line = true ∧ s.chanDown (chanOfLine line) = false ∧ s.coh.dir.find line = none ∧ s.coh.txns.find line = none ∧
    (∀ m, m ∈ s.coh.msgs → m.line ≠ line) ∧ (∀ p, p ∈ s.coh.waiting → p.1 ≠ line) ∧ (∀ c, s.coh.caches.find (cacheKey c line) = none) ∧
    s.moveTwin line = none ∧ s.coh.hot = [] ∧
    ∃ e, s.extentOf line = some e ∧ e.lent = false ∧ e.owner = h ∧ s.keyGen e.key ≠ 0 ∧ s.reg rBIR_HOT_THR h / 256 % 2 = 0

/-- Line accesses to the line send no entry to a hot list (R105, R106), and none waits to be written. -/
def Quiet (s : State) (line : Nat) : Prop :=
  s.coh.hot = [] ∧ ∀ e, s.extentOf line = some e → e.lent = true ∨ s.reg rBIR_HOT_THR e.owner / 256 % 2 = 0

/-- A request to the line can begin at its home now: the line is not in B, no request to it waits, and the directory has room (R140, R146, R148). -/
def HomeReady (s : State) (line : Nat) (r : CReq) : Prop :=
  s.coh.txns.find line = none ∧ (∀ p, p ∈ s.coh.waiting → p.1 ≠ line) ∧ s.entryFor line r = .now

/-- The hood may own the line: it is not read-only for it (R155, R191) and no move writes it twice (R181). -/
def MayOwn (s : State) (h line : Nat) : Prop := s.refuses h line = none ∧ s.moveTwin line = none

/-- The hood address `a` lies in a settled range of the hood's own local memory, which holds its whole line, and that line is plain; `ro` says
whether the range is read-only. -/
def PlainPlace (s : State) (h a line : Nat) (ro : Bool) : Prop :=
  s.roLine h line = ro ∧ ∃ r, (s.hood h).block.rangeAt (alignDown a 64) = some r ∧ r.ro = ro ∧ r.borrowed = false ∧ r.state = 0 ∧
    (s.hood h).block.rangeAt a = some r ∧ (∀ i, i < 64 → (s.hood h).block.rangeAt (alignDown a 64 + i) = some r) ∧
    (∃ ga, (s.hood h).block.placeOf (alignDown a 64) = .loc ga ∧ ga / 64 = line) ∧ PlainLine s h line

/-- Nothing differs but what one hood is charged with: its hatband counters and records, its interrupt tree, the free counter, and outputs. -/
def SameData (s t : State) : Prop :=
  t.tiles = s.tiles ∧ t.works = s.works ∧ t.rings = s.rings ∧ t.ctxs = s.ctxs ∧ t.chans = s.chans ∧ t.hat = s.hat ∧ t.pats = s.pats ∧
    t.waits = s.waits ∧ t.links = s.links ∧ t.planks = s.planks ∧ t.sites = s.sites ∧ t.hostMem = s.hostMem ∧ t.farMem = s.farMem ∧
    ∀ g, (t.hood g).block = (s.hood g).block

/-- `u`, of which `P` holds, is what the command's own effect leaves; the scheduler of R297 then decides for every hood, beginning after `h`,
what may start. -/
def ThenSchedules (s : State) (h : Nat) (P : State → Prop) (t : State) : Prop := ∃ u, P u ∧ t = finish s (u.scheduleAll h)

/-- `u`, of which `P` holds, is what the command's own effect leaves; then the scheduler decides as in `ThenSchedules`, and the services that wait for
the hood (R387, R388, R390) take their next step. -/
def ThenServes (s : State) (h : Nat) (P : State → Prop) (t : State) : Prop := ∃ u, P u ∧ t = finish s ((u.scheduleAll h).serviceNext h)

/-- Nothing waits on the hood manager for a hood: no live update (R387), no freeze (R388) and no restore (R390). -/
def NoService (s : State) (h : Nat) : Prop :=
  (s.hood h).ucNext = [] ∧ (s.reg rHOOD_MIG_STATUS h = 0 ∨ 4 ≤ s.reg rHOOD_MIG_STATUS h) ∧ (s.hood h).restore = none

/-- No service, and no repair that waits for one, would go on (R385, R387, R388, R390). -/
def NoServices (s : State) : Prop := s.hat.repair = none ∧ ∀ h, h < 16 → NoService s h

/-- No block change is staged (R174). -/
def NoneStaged (s : State) : Prop := ∀ h, h < 16 → (s.hood h).change.phase ≠ .staged

/-- No request waits at a home, and no line is in B (R140). -/
def HomesIdle (s : State) : Prop := s.coh.waiting = [] ∧ s.coh.txns = []

/-- What backed a local range that no other hood holds is free: no member channel has an extent at its base, and those in service erase it (R104, R180). -/
def FreedAtEnd (s : State) (h : Nat) (r : Range) (u : State) : Prop :=
  r.borrowed = false → s.sharers h (s.hood h).block r = [] → ∀ c, c ∈ membersOf (s.hood h).block.channels →
    (∀ e, e ∈ (u.chan c).extents → e.base ≠ r.cbase) ∧
    (s.chanDown c = false → ∃ e, e ∈ (u.stack (c / 32)).erases ∧ e.chan = c ∧ e.base = r.cbase ∧
      e.len = r.len / max (membersOf (s.hood h).block.channels).length 1)

/-- A block command of the PF for the hood is carried out (R159 to R161, R225, R369, R374). -/
def BlockOpen (s : State) (h : Nat) : Prop :=
  Ready s ∧ h < 16 ∧ s.hoodExists h = true ∧ (s.hood h).change.phase = .stable ∧ (∀ e, e ∈ s.front.heldBlk → e.2.1 ≠ h) ∧
    (s.hood h).failed = false ∧ s.nap.classB = false ∧ (s.fn 0).bme = true ∧ NoService s h

/-- The status that a block command leaves, and the interrupt of its end where it has ended (R160): code, status. -/
def BlockStatus (s t : State) (h code st : Nat) : Prop :=
  t.reg rHOOD_BLK_STATUS h = st + code * 16 ∧
    (st ≠ 1 → t.reg rHOOD_CAUSE 0 / 2 % 2 = 1 ∧ (t.reg rHOOD_END_MAP 0).testBit h = true ∧ (t.hood h).change = {}) ∧
    (st = 2 → t.reg rHOOD_CAUSE (h + 1) % 2 = 1) ∧
    (st = 3 → t.reg rHOOD_REJECT_COUNT h = satAdd 32 (s.reg rHOOD_REJECT_COUNT h) 1)

/-- A command of a hood's own function is carried out: the hood exists and has not failed, and no class B singe stands (R369, R374). -/
def HoodOpen (s : State) (h : Nat) : Prop :=
  Ready s ∧ h < 16 ∧ s.hoodExists h = true ∧ (s.hood h).failed = false ∧ s.nap.classB = false

/-- What goes out on the Stader links, and what waits to, is as in `u`. -/
def LinksAs (u t : State) : Prop := t.outs.stl = u.outs.stl ∧ t.stl = u.stl ∧ t.links = u.links

/-- The codewords a flit lies in were corrected (R196), and its CRC is good with the header fields and payload that it has (R197). -/
def GoodFlit (s : State) (f : Flit) : Prop := f.errs ≤ 15 ∧ (s.link f.link).cwErr ≤ 15 ∧ f.crc = flitCrc f

/-- The link has discarded a flit: it discards further until a replay begins, and has sent an IDLE flit with NAK and the FSEQ before the one that it
expects (R197 to R199). -/
def AsksReplay (s t : State) (l : Nat) : Prop :=
  (t.link l).drop = true ∧ (t.link l).rxSeq = (s.link l).rxSeq ∧ (t.link l).retry = (s.link l).retry ∧
    (∃ i, t.outs.stl = s.outs.stl ++ [(l, i)] ∧ i.typ = 0 ∧ i.nak = true ∧ i.ack = ((s.link l).rxSeq + 4095) % 4096) ∧
    t.stl = s.stl ∧ t.hoods = s.hoods ∧ t.rots = s.rots ∧ ∀ k, k ≠ l → t.link k = s.link k

/-- A top-level descriptor that names no completion record. -/
def Unrecorded (x : Work) : Prop := x.parent = none ∧ dCpl x.desc = 0

/-- The top-level work `w` has ended: it is no longer held, and no longer among its ring's started ones. -/
def Ended (s : State) (w : Nat) (x : Work) (u : State) : Prop :=
  u.work? w = none ∧ (u.ring x.ring).started = (s.ring x.ring).started.filter (fun i => i != w)

/-- The site on which tile `k` of the kernel runs. -/
def Work.siteIn (x : Work) (s : State) (k : Nat) : Nat := s.siteOf x.hood (x.lo + k)

/-- `w` is a started KERNEL of OP `op` whose records are in order (R249), of which no tile has run, is switched out (R120) or takes no command
(R26), and whose logical tiles are distinct sites. -/
def Whole (s : State) (w op : Nat) (x : Work) : Prop :=
  s.kernel w op = some x ∧ x.recordsOk = true ∧ x.doneT = [] ∧
    (∀ k, k < x.cnt → s.tileOut w x k = false ∧ s.siteDown (x.siteIn s k) = false) ∧
    ∀ j k, j < x.cnt → k < x.cnt → x.siteIn s j = x.siteIn s k → j = k

/-- The kernel has run on every tile of its span and awaits its completion; no other tile, and nothing of memory, has changed. -/
def RanOnSpan (s : State) (w : Nat) (x : Work) (t : State) : Prop :=
  (∃ y, t.work? w = some y ∧ y.phase = .finished ∧ y.ran = true ∧ y.doneT = List.range x.cnt) ∧
    (∀ i, (∀ k, k < x.cnt → i ≠ x.siteIn s k) → t.tile i = s.tile i) ∧ t.mem = s.mem ∧ t.hostMem = s.hostMem ∧ t.farMem = s.farMem

/-- A work but for the notes of what it has accessed: the lenders (R190), and a host read that timed out (R228). -/
def Work.core (x : Work) : Work := { x with lenders := [], late := false }

/-- An engine's access has changed nothing but memory, translations, counters, what its hood is charged with, and what its work and ring note of
the access. -/
def Accessed (s u : State) : Prop :=
  (∀ w, (u.work? w).map Work.core = (s.work? w).map Work.core) ∧ u.tiles = s.tiles ∧ u.sites = s.sites ∧ u.planks = s.planks ∧ u.waits = s.waits ∧ u.rots = s.rots ∧
    (∀ r, (u.ring r).started = (s.ring r).started) ∧ ∀ h, (u.hood h).block = (s.hood h).block

/-- The work has completed INVALID and is counted (R249); tiles and memory are as they were. -/
def EndedInvalid (s : State) (w : Nat) (x : Work) : State → Prop :=
  ThenSchedules s x.hood (fun u => Ended s w x u ∧ u.reg rCTX_INVALID x.ctx = satAdd 32 (s.reg rCTX_INVALID x.ctx) 1 ∧ u.mem = s.mem ∧
    u.hostMem = s.hostMem ∧ u.tiles = s.tiles)

/-- The VEC rows by the VOP they name (Table 8 of The Tile). -/
def vecRows (w : Nat) : List (Nat × Instr) :=
  [(0x00, .vecAdd w), (0x01, .vecSub w), (0x02, .vecMul w), (0x03, .vecFma w), (0x04, .vecMin w), (0x05, .vecMax w), (0x06, .vecAbs w),
   (0x07, .vecNeg w), (0x08, .vecCmp w), (0x09, .vecSel w), (0x10, .vecExp2 w), (0x11, .vecLog2 w), (0x12, .vecRcp w), (0x13, .vecRsqrt w),
   (0x14, .vecExp w), (0x15, .vecLn w), (0x20, .cvtDown w), (0x21, .cvtUp w), (0x22, .qmx w), (0x23, .stb w), (0x30, .rmax w),
   (0x31, .rsum w), (0x32, .accrd w)]

/-- The rows that run a KERNEL, each with its OP and the argument records that are its own (R251). -/
def kernelRows (w : Nat) : List (Nat × (List Byte → Bool) × Instr) :=
  [(1, fun _ => true, .mma w), (2, fun _ => true, .wb w), (3, fun _ => true, .merge w), (4, fun _ => true, .load w), (5, fun _ => true, .store w),
   (6, fun _ => true, .kvc w), (8, fun _ => true, .attn w), (9, fun a => !fldB a 0 0, .kvringSetUp w), (9, fun a => fldB a 0 0, .kvringTearDown w),
   (10, fun _ => true, .bar w)] ++ (vecRows w).map (fun p => (7, (fun a => vOp a == p.1), p.2))

/-- The atomics by the operation they name (Table 9 of On-Die Networks). -/
def atomRows (a : AtomArgs) : List (Nat × Instr) :=
  [(0, .atomicAdd a), (1, .atomicAnd a), (2, .atomicOr a), (3, .atomicXor a), (4, .atomicSmin a), (5, .atomicSmax a), (6, .atomicUmin a),
   (7, .atomicUmax a), (8, .atomicSwap a), (9, .atomicCas a), (10, .atomicFadd a)]

/-- Two finite operands that set no flag (R42). -/
def plainPair (p : Opnd × Opnd) : Bool :=
  !p.1.nanS && !p.2.nanS && !p.1.ovf && !p.2.ovf && !p.1.psn && !p.2.psn &&
    (match p.1.v, p.2.v with | .fin .., .fin .. => true | _, _ => false)

/-- The exponent of the product of two operands (R40). -/
def prodExp (p : Opnd × Opnd) : Int :=
  match p.1.v, p.2.v with
  | .fin _ _ e, .fin _ _ g => e + g + p.1.s + p.2.s
  | _, _ => 0

/-- The product of two operands as a whole number of units of its exponent. -/
def prodInt (p : Opnd × Opnd) : Int :=
  match p.1.v, p.2.v with
  | .fin s m _, .fin t n _ => if s != t then -((m * n : Nat) : Int) else (m * n : Nat)
  | _, _ => 0

/-- A product is truncated at an anchor when it is no whole number of units of 2^λ (R40). -/
def truncatedAt (lam : Int) (p : Opnd × Opnd) : Bool :=
  decide (prodExp p < lam) && prodInt p % 2 ^ (lam - prodExp p).toNat != 0

/-- The exact sum of products, in units of 2^(−k). -/
def exactSum (k : Int) (l : List (Opnd × Opnd)) : Int := l.foldl (fun r p => r + prodInt p * 2 ^ (prodExp p + k).toNat) 0

end Sys2Proof.Machine
end

