-- ==== Sys2Proof/Certificates/Slice0/Obligations.lean ====
section
/-!
DEFINITION. Obligations.lean: the statements for the provers, each a rule or a group of rules of the spec about what commands do.
-/

open Sys2Proof Sys2Proof.Machine

/-- While the link is up: a poisoned TLP, a completion timeout and a link error set bit 0, bit 1 and (in the PF) bit 3 of the function's AER status
and report the row of that bit, and change nothing else, except that a timeout marks the work that waited as late; an AtomicOp request to BAR0, or
to BAR2 or BAR4 of a VF, gets Unsupported Request and no AER bit. A D-state change, Interrupt Disable and a resizable-BAR write store what they name
(INTA follows its three conditions; the BAR is resized only while no VF has Memory Space Enable and no hood's interface is locked or run). A
configuration write stores every enable and control that it carries where nothing of the function waits for Bus Master Enable; setting that bit
sends the MSI-X message that it held. That one command carries the whole configuration is the model's choice (log entry 9). (R218, R221, R225, R228,
R230.) -/
def Obligations.PortErrorsAndConfigurationWrites : Prop :=
  (∀ (s : State) (fn w code bar : Nat), Powered s → s.portUp = true → fn < 17 → s.fnOn fn = true →
    Completes (.poisonedTlpReceived fn) s (fun t =>
      (t.fn fn).aer = (s.fn fn).aer ||| 1 ∧ Answers s t (.aer fn 0) ∧ OnlyPort s t) ∧
    Completes (.completionTimeout fn w) s (fun t =>
      (t.fn fn).aer = (s.fn fn).aer ||| 2 ∧ Answers s t (.aer fn 1) ∧ t.regs = s.regs ∧ t.mem = s.mem ∧ t.tiles = s.tiles ∧
      (∀ x, s.work? w = some x → x.hood + 1 = fn → t.work? w = some { x with late := true })) ∧
    Completes (.pcieLinkError code) s (fun t =>
      (t.fn 0).aer = (s.fn 0).aer ||| 8 ∧ Answers s t (.aer 0 3) ∧ OnlyPort s t) ∧
    (bar = 0 ∨ (fn ≠ 0 ∧ (bar = 2 ∨ bar = 4)) → Completes (.atomicopRequest fn bar) s (fun t =>
      (∀ i, (t.fn i).aer = (s.fn i).aer) ∧ Answers s t (.unsupported fn) ∧ OnlyPort s t))) ∧
  (∀ (s : State) (fn log2 : Nat) (d v : Bool), Powered s → s.portUp = true → fn < 17 → s.fnOn fn = true → s.ariOk fn = true →
    (d = true ∨ NothingHeld s fn → Completes (.devicePowerStateChange fn d) s (fun t => (t.fn fn).d3hot = d ∧ OnlyPort s t)) ∧
    Completes (.interruptDisableChange v) s (fun t =>
      (t.fn 0).intDis = v ∧ ((t.fn 0).inta = true ↔ t.summary 0 ≠ 0 ∧ t.reg rINT_FUNC_CTL 0 % 4 = 3 ∧ v = false) ∧ OnlyPort s t) ∧
    (30 ≤ log2 → log2 ≤ 40 → (∀ h, h < 16 → (s.fn (h + 1)).mse = false ∧ (s.hood h).tdi ≠ 1 ∧ (s.hood h).tdi ≠ 2) →
      Completes (.resizableBarWrite log2) s (fun t => t.front = { s.front with vfBar2 := log2 } ∧ t.regs = s.regs ∧ t.hoods = s.hoods)) ∧
    ((∃ h, h < 16 ∧ ((s.fn (h + 1)).mse = true ∨ (s.hood h).tdi = 1 ∨ (s.hood h).tdi = 2)) →
      Completes (.resizableBarWrite log2) s (fun t => OnlyPort s t))) ∧
  (∀ (s : State) (fn : Nat) (c : FnCfg), Powered s → s.portUp = true → fn < 17 → s.fnOn fn = true → s.ariOk fn = true → cfgOk c = true →
    (c.bme = false ∨ NothingHeld s fn → Completes (.busMasterEnableChange fn c.bme c.mse c.fmask c.toFnCtl) s (fun t => StoresCfg fn c t ∧ OnlyPort s t)) ∧
    (c.bme = true → NothingHeld s fn → (s.fn fn).bmeHeld = true → s.summary fn ≠ 0 → s.reg rINT_FUNC_CTL fn % 4 = 1 →
      (s.fn fn).modBusy = false → (s.fn fn).masked = false → c.fmask = false → (s.fn fn).d3hot = false →
      (fn ≠ 0 → (s.hood (fn - 1)).tdi ≠ 3 ∧ (((s.hood (fn - 1)).created && (s.hood (fn - 1)).block.conf) = false ∨ (s.ideStream (fn - 1)).isSome = true)) →
      Completes (.busMasterEnableChange fn c.bme c.mse c.fmask c.toFnCtl) s (fun t => Answers s t (.msix fn) ∧ (t.fn fn).bmeHeld = false)))

/-- With INT_FUNC_CTL in MSI-X mode and enabled, a function that may master the bus and whose summary is nonzero sends its message when the
moderation interval ends with one held, when it is unmasked with its PBA bit set, and at a write of REARM outside the interval; a REARM inside the
interval is held. A write of a cause register clears the causes of its W1C bits written as one and leaves everything else, and a clear of the alert
summary does the same, with ALERT_N low exactly while an enabled alert stands. (R231, R232, R234, R235.) -/
def Obligations.InterruptMessagesAndCauses : Prop :=
  (∀ (s : State) (fn : Nat) (ide : Bool), Powered s → s.reach fn ide = .ok → fn < 17 → s.fnOn fn = true →
    s.reg rINT_FUNC_CTL fn % 4 = 1 → s.mayAsk fn = true → (s.fn fn).d3hot = false → (s.fn fn).fmask = false → (s.fn fn).wasZero = false →
    (s.summary fn ≠ 0 → (s.fn fn).modBusy = true → (s.fn fn).held = true → (s.fn fn).masked = false →
      Completes (.msixModExpiry fn) s (fun t => Answers s t (.msix fn) ∧ (t.fn fn).held = false ∧ OnlyPort s t)) ∧
    (s.summary fn ≠ 0 → (s.fn fn).masked = true → (s.fn fn).pba = true → (s.fn fn).modBusy = false →
      Completes (.msixUnmask fn) s (fun t => Answers s t (.msix fn) ∧ (t.fn fn).masked = false ∧ (t.fn fn).pba = false ∧ OnlyPort s t)) ∧
    (s.presents rINT_FUNC_REARM = true → s.summary fn ≠ 0 → (s.fn fn).modBusy = false → (s.fn fn).masked = false →
      Completes (.intFuncRearm fn ide) s (fun t => Answers s t (.msix fn) ∧ OnlyPort s t)) ∧
    (s.presents rINT_FUNC_REARM = true → s.summary fn ≠ 0 → (s.fn fn).modBusy = true →
      Completes (.intFuncRearm fn ide) s (fun t => (t.fn fn).held = true ∧ OnlyPort s t))) ∧
  (∀ (s : State) (fn : Nat) (ide : Bool) (v : BitVec 64) (a : BitVec 32) (c : Nat × Nat) (r : RegInfo), Powered s → fn < 17 →
    s.reach fn ide = .ok → s.ready = true → c ∈ causeRegs → regInfo c.1 = some r → r.inFn fn = true →
    (if fn = 0 then r.w1P else r.w1V) ≠ 0 →
    Completes (.causeClear fn ide c.1 v) s (fun t =>
      BitVec.ofNat 64 (t.reg c.1 fn) = BitVec.ofNat 64 (s.reg c.1 fn) &&& ~~~(v &&& BitVec.ofNat 64 (if fn = 0 then r.w1P else r.w1V)) ∧
      OnlyRegisters [(c.1, fn)] s t) ∧
    Completes (.alertSummaryClear a) s (fun t =>
      t.nap.alert = s.nap.alert &&& ~~~a ∧ (t.nap.alertN = true ↔ t.nap.alert &&& t.nap.alertEn ≠ 0) ∧
      t.nap.alertEn = s.nap.alertEn ∧ t.nap.counter = s.nap.counter ∧ t.regs = s.regs))

/-- A read or write of BAR0 that is narrower than 32 bits, not at its natural alignment, or 64 bits wide at an offset without a 64-bit register,
changes no register but the function's HOST error count, which advances by one; a read returns all ones. (R12.) -/
def Obligations.WrongWidthAccessHasNoEffect : Prop :=
  ∀ (s : State) (fn off width : Nat) (ide isRead : Bool) (v : BitVec 64), Powered s → fn < 17 → s.reach fn ide = .ok → off < bar0Size fn →
    (width = 1 ∨ width = 2 ∨ width = 4 ∨ width = 8) → (width < 4 ∨ off % width ≠ 0 ∨ (width = 8 ∧ wideAt fn off = false)) →
    Completes (.invalidRegisterAccess fn ide off width isRead) s (fun t =>
      t.reg rHOST_ERR_COUNT fn = satAdd 32 (s.reg rHOST_ERR_COUNT fn) 1 ∧ OnlyRegisters [(rHOST_ERR_COUNT, fn)] s t ∧
      (isRead = true → Answers s t (.read fn off (BitVec.allOnes 64)))) ∧
    Completes (.registerWrite fn ide off width v) s (fun t =>
      t.reg rHOST_ERR_COUNT fn = satAdd 32 (s.reg rHOST_ERR_COUNT fn) 1 ∧ OnlyRegisters [(rHOST_ERR_COUNT, fn)] s t)

/-- A 32-bit write to a register of the map that starts no action: each RW bit takes the value written, each W1C bit written as one becomes zero,
every other bit keeps its value, and no other register changes. The PF and the VFs have their own writable bits. (R9.) -/
def Obligations.RegisterTakesWritableBits : Prop :=
  ∀ (s : State) (fn off i : Nat) (ide : Bool) (v : BitVec 64) (r : RegInfo), Powered s → fn < 17 → s.reach fn ide = .ok →
    s.presents off = true → off < bar0Size fn → off % 4 = 0 → isRoute fn off = false → regInfo off = some r → r.wide = false →
    wideAt fn (off - 4) = false → r.inFn fn = true → regCmds.find? (fun e => e.1 == r.off) = none → regWrites.find? (fun e => e.1 == r.off) = none →
    s.copyIdx fn r.scope = some i → i < 8192 →
    (if fn = 0 then r.rwP ||| r.w1P else r.rwV ||| r.w1V) ≠ 0 →
    Completes (.registerWrite fn ide off 4 v) s (fun t =>
      let rw := BitVec.ofNat 64 (if fn = 0 then r.rwP else r.rwV)
      let w1 := BitVec.ofNat 64 (if fn = 0 then r.w1P else r.w1V)
      let x := BitVec.ofNat 64 (v.toNat % 2 ^ 32)
      BitVec.ofNat 64 (t.reg off i) = ((BitVec.ofNat 64 (s.reg off i) &&& ~~~rw) ||| (x &&& rw)) &&& ~~~(x &&& w1) ∧
      OnlyRegisters [(off, i)] s t)

/-- A 32-bit read of the lower half of a 64-bit register returns it and latches the upper half, which the next 32-bit read of the upper half from
the same function returns. A write of the lower half changes no register until the upper half is written; an upper half written with no lower half
before it keeps the lower half that the register holds, and one read with none latched reads the register. A write of TOP_TS_HOST, whole or by
halves, stores it and latches TOP_COUNTER into TOP_TS_DEV, and changes no other register. (R11, R401.) -/
def Obligations.RegisterHalvesAndTimestamp : Prop :=
  (∀ (s : State) (fn off : Nat) (ide : Bool) (lo hi : BitVec 32) (r : RegInfo), Powered s → fn < 17 → s.reach fn ide = .ok → s.ready = true →
    off + 8 ≤ bar0Size fn → off % 8 = 0 → isRoute fn off = false → regInfo off = some r → r.wide = true → r.inFn fn = true →
    wideAt fn (off + 4) = false →
    Completes (.lowerHalfRead fn ide off) s (fun t =>
      Answers s t (.read fn off (BitVec.ofNat 64 ((s.readFull fn off).1 % 2 ^ 32))) ∧
      (at' t.halves (2 ^ 26 * fn + off)).rd = some (BitVec.ofNat 32 ((s.readFull fn off).1 / 2 ^ 32)) ∧ t.regs = s.regs ∧
      Completes (.lowerHalfRead fn ide (off + 4)) t (fun u =>
        Answers t u (.read fn (off + 4) ((BitVec.ofNat 32 ((s.readFull fn off).1 / 2 ^ 32)).setWidth 64)) ∧
        (at' u.halves (2 ^ 26 * fn + off)).rd = none ∧ u.regs = s.regs)) ∧
    Completes (.lowerHalfWrite fn ide off lo) s (fun t =>
      (at' t.halves (2 ^ 26 * fn + off)).wr = some lo ∧ t.regs = s.regs) ∧
    (fn = 0 → off = rTOP_TS_HOST → Completes (.lowerHalfWrite 0 ide off lo) s (fun t =>
      Completes (.registerWrite 0 ide (off + 4) 4 (hi.setWidth 64)) t (fun u =>
        u.reg rTOP_TS_HOST 0 = lo.toNat + hi.toNat * 2 ^ 32 ∧ u.reg rTOP_TS_DEV 0 = t.now))) ∧
    ((at' s.halves (2 ^ 26 * fn + off)).rd = none → Completes (.lowerHalfRead fn ide (off + 4)) s (fun t =>
      Answers s t (.read fn (off + 4) (BitVec.ofNat 64 ((s.readFull fn off).1 / 2 ^ 32))) ∧ t.halves = s.halves ∧ t.regs = s.regs)) ∧
    (∀ i, (at' s.halves (2 ^ 26 * fn + off)).wr = none → s.copyIdx fn r.scope = some i → i < 8192 →
      regCmds.find? (fun e => e.1 == r.off) = none → regWrites.find? (fun e => e.1 == r.off) = none →
      Completes (.registerWrite fn ide (off + 4) 4 (hi.setWidth 64)) s (fun t =>
        t.reg off i % 2 ^ 32 = s.reg off i % 2 ^ 32 ∧ OnlyRegisters [(off, i)] s t))) ∧
  (∀ (s : State) (fn : Nat) (ide : Bool) (v : BitVec 64), Powered s → fn < 17 → s.reach fn ide = .ok → s.presents rTOP_TS_HOST = true →
    Completes (.topTsHostWrite fn ide v) s (fun t =>
      t.reg rTOP_TS_HOST fn = v.toNat ∧ t.reg rTOP_TS_DEV fn = s.nap.counter.toNat ∧ OnlyRegisters [(rTOP_TS_HOST, fn), (rTOP_TS_DEV, fn)] s t))

/-- STL_PKG_ID takes a write until a link has been enabled, and counts one after. A pool member register takes a write while nothing of the pool is
lent, and counts one otherwise. The save area of a hood takes a write (aligned down to 4 KiB) while no kernel of the hood holds a tile, and a
rejected one is counted. A nonzero service state is stored. The hatband window, guarantee and class guarantees of the selected hood take the bits
that they have; memory and works stay. (R205, R237, R301, R304, R315, R391, R394.) -/
def Obligations.SetupRegistersStoreOrRefuse : Prop :=
  ∀ (s : State) (v : BitVec 32) (w : BitVec 64) (h i off : Nat), PfOpen s → h < 16 → s.selHood 0 = h → s.hoodExists h = true →
    (s.stl.idFixed = false → Completes (.stlPkgIdWrite v) s (fun t =>
      t.reg rSTL_PKG_ID 0 = v.toNat % 4096 ∧ OnlyRegisters [(rSTL_PKG_ID, 0)] s t)) ∧
    (s.stl.idFixed = true → Completes (.stlPkgIdWrite v) s (fun t =>
      t.reg rHOST_ERR_COUNT 0 = satAdd 32 (s.reg rHOST_ERR_COUNT 0) 1 ∧ OnlyRegisters [(rHOST_ERR_COUNT, 0)] s t)) ∧
    (i < 4 → s.reg rHOOD_POOL_USED 0 = 0 → Completes (.poolConfigWrite i w) s (fun t =>
      t.reg (rHOOD_POOL_CHAN + 8 * i) 0 = w.toNat ∧ OnlyRegisters [(rHOOD_POOL_CHAN + 8 * i, 0)] s t)) ∧
    (i < 5 → s.reg rHOOD_POOL_USED 0 ≠ 0 → Completes (.poolConfigWrite i w) s (fun t =>
      t.reg rHOST_ERR_COUNT 0 = satAdd 32 (s.reg rHOST_ERR_COUNT 0) 1 ∧ OnlyRegisters [(rHOST_ERR_COUNT, 0)] s t)) ∧
    (s.holdsTile h = false → Completes (.saveAreaWrite false w) s (fun t =>
      t.reg rHOOD_SAVE_BASE h = w.toNat &&& 0xFFFFFFFFFF000 ∧ OnlyRegisters [(rHOOD_SAVE_BASE, h)] s t)) ∧
    (s.holdsTile h = false → Completes (.saveAreaWrite true w) s (fun t =>
      t.reg rHOOD_SAVE_LEN h = w.toNat &&& 0xFFFFFFFFFFFFF ∧ t.hoods = s.hoods ∧ t.mem = s.mem ∧ t.works = s.works)) ∧
    (s.holdsTile h = true → Completes (.saveAreaWrite true w) s (fun t =>
      t.reg rHOOD_REJECT_COUNT h = satAdd 32 (s.reg rHOOD_REJECT_COUNT h) 1 ∧ OnlyRegisters [(rHOOD_REJECT_COUNT, h)] s t)) ∧
    (v.toNat % 4 ≠ 0 → Completes (.serviceStateWrite v) s (fun t =>
      t.reg rHOOD_SVC_STATE h = v.toNat % 4 ∧ OnlyRegisters [(rHOOD_SVC_STATE, h)] s t)) ∧
    (off = rHB_WIN_CFG → Completes (.hatbandConfigWrite off v) s (fun t => t.reg rHB_WIN_CFG h = v.toNat % 64 ∧ t.mem = s.mem ∧ t.works = s.works)) ∧
    (off = rHB_GUAR → Completes (.hatbandConfigWrite off v) s (fun t =>
      t.reg rHB_GUAR h = v.toNat &&& 0xFFFFFFC0 ∧ t.mem = s.mem ∧ t.works = s.works)) ∧
    (i < 4 → off = rHB_CLS_GUAR + 4 * i → Completes (.hatbandConfigWrite off v) s (fun t =>
      t.reg off h = v.toNat &&& 0xFFFFFFC0 ∧ t.mem = s.mem ∧ t.works = s.works))

/-- PWR_CAP takes 1,500 to 6,000 W and counts anything else; the sideband cap is set within the same bounds and answered with an error outside them.
A mode write that asks for mode 0 with a reservation stores it. A request for mode 1 while two other hoods have or ask for it is refused in
PWR_HOOD_STATUS, and the mode kept. An enable of the power group is stored when its member fields are in order, leaves the group state confirmed
when EN is set, and is counted when the leader index is above 25. (R324, R328, R329, R332.) -/
def Obligations.CapsModesAndGroupWrites : Prop :=
  ∀ (s : State) (v : BitVec 32) (watts h : Nat), PfOpen s → h < 16 → s.reg rPWR_SEL 0 % 16 = h → s.hoodExists h = true →
    (1500 ≤ v.toNat % 8192 → v.toNat % 8192 ≤ 6000 → Completes (.capWrite v) s (fun t =>
      t.reg rPWR_CAP 0 = v.toNat % 8192 ∧ t.hoods = s.hoods ∧ t.works = s.works ∧ t.mem = s.mem ∧ t.nap.sideCap = s.nap.sideCap)) ∧
    ((v.toNat % 8192 < 1500 ∨ 6000 < v.toNat % 8192) → Completes (.capWrite v) s (fun t =>
      t.reg rHOST_ERR_COUNT 0 = satAdd 32 (s.reg rHOST_ERR_COUNT 0) 1 ∧ OnlyRegisters [(rHOST_ERR_COUNT, 0)] s t)) ∧
    (s.hat.runs = true → 1500 ≤ watts → watts ≤ 6000 → Completes (.sidebandCapSet watts) s (fun t =>
      t.nap.sideCap = watts ∧ AnswersBoard s t (.pldm 2 0 0) ∧ t.reg rPWR_CAP 0 = s.reg rPWR_CAP 0 ∧ t.hoods = s.hoods ∧ t.mem = s.mem)) ∧
    (s.hat.runs = true → (watts < 1500 ∨ 6000 < watts) → Completes (.sidebandCapSet watts) s (fun t =>
      t.nap.sideCap = s.nap.sideCap ∧ AnswersBoard s t (.pldm 2 1 0) ∧ t.regs = s.regs ∧ t.power = s.power)) ∧
    (v.toNat % 4 = 0 → bits v.toNat 8 8 ≠ 0 → Completes (.modeWrite v) s (fun t =>
      t.reg rPWR_HOOD_CFG h = 256 * bits v.toNat 8 8 ∧
      t.reg rPWR_HOOD_STATUS h = (if s.modeOf h = 0 then 0 else s.modeOf h + 4) ∧ t.hoods = s.hoods ∧ t.mem = s.mem)) ∧
    (v.toNat % 4 = 1 → bits v.toNat 8 8 ≠ 0 → s.modeOf h ≠ 1 →
      2 ≤ ((List.range 16).filter (fun g => g != h && (s.reg rPWR_HOOD_CFG g % 4 == 1 || s.modeOf g == 1))).length →
      Completes (.modeWrite v) s (fun t =>
        t.reg rPWR_HOOD_CFG h % 4 = s.reg rPWR_HOOD_CFG h % 4 ∧ t.reg rPWR_HOOD_STATUS h = s.modeOf h + 8 ∧ t.hoods = s.hoods)) ∧
    (bits v.toNat 7 5 ≤ 25 → bits v.toNat 6 1 = 0 → s.reg rPWR_GRP_CFG 0 / 64 % 2 = 0 → Completes (.groupEnable v) s (fun t =>
      t.reg rPWR_GRP_CFG 0 = bits v.toNat 0 18 ∧ t.hoods = s.hoods ∧ t.mem = s.mem)) ∧
    (bits v.toNat 7 5 ≤ 25 → bits v.toNat 6 1 = 1 → s.reg rPWR_GRP_CFG 0 / 64 % 2 = 0 → Completes (.groupEnable v) s (fun t =>
      t.reg rPWR_GRP_CFG 0 = bits v.toNat 0 18 ∧ t.power.left = false ∧ t.power.confirm = true ∧ t.hoods = s.hoods ∧ t.mem = s.mem)) ∧
    (25 < bits v.toNat 7 5 → Completes (.groupEnable v) s (fun t =>
      t.reg rHOST_ERR_COUNT 0 = satAdd 32 (s.reg rHOST_ERR_COUNT 0) 1 ∧ OnlyRegisters [(rHOST_ERR_COUNT, 0)] s t))

/-- A write of the context or ring count of the selected hood, unsealed, applies that count with the base written before it, where the range ends
inside the package's numbers and no other hood has one; contexts, rings, hoods and memory stay. A context range that overlaps another hood's changes
nothing but the reject count. (R237.) -/
def Obligations.RangeCountsAppliedOrRejected : Prop :=
  ∀ (s : State) (v : BitVec 32) (h : Nat), PfOpen s → h < 16 → s.selHood 0 = h → s.hoodExists h = true → (s.hood h).sealed = false →
    (v.toNat % 8192 ≤ 4096 → (s.front.bases.find (2 * h)).getD (s.reg rFE_CTX_BASE h) + v.toNat % 8192 ≤ 4096 →
      (∀ g, g < 16 → g ≠ h → s.reg rFE_CTX_COUNT g = 0) → Completes (.feCtxCountWrite v) s (fun t =>
        t.reg rFE_CTX_COUNT h = v.toNat % 8192 ∧ t.reg rFE_CTX_BASE h = (s.front.bases.find (2 * h)).getD (s.reg rFE_CTX_BASE h) ∧
        t.hoods = s.hoods ∧ t.ctxs = s.ctxs ∧ t.mem = s.mem)) ∧
    (v.toNat % 16384 ≤ 8192 → (s.front.bases.find (2 * h + 1)).getD (s.reg rFE_RING_BASE h) + v.toNat % 16384 ≤ 8192 →
      (∀ g, g < 16 → g ≠ h → s.reg rFE_RING_COUNT g = 0) → Completes (.feRingCountWrite v) s (fun t =>
        t.reg rFE_RING_COUNT h = v.toNat % 16384 ∧ t.reg rFE_RING_BASE h = (s.front.bases.find (2 * h + 1)).getD (s.reg rFE_RING_BASE h) ∧
        t.hoods = s.hoods ∧ t.rings = s.rings ∧ t.mem = s.mem)) ∧
    ((∃ g, g < 16 ∧ g ≠ h ∧ s.reg rFE_CTX_COUNT g ≠ 0 ∧ v.toNat % 8192 ≠ 0 ∧ v.toNat % 8192 ≤ 4096 ∧
        (s.front.bases.find (2 * h)).getD (s.reg rFE_CTX_BASE h) + v.toNat % 8192 ≤ 4096 ∧
        overlaps ((s.front.bases.find (2 * h)).getD (s.reg rFE_CTX_BASE h)) (v.toNat % 8192) (s.reg rFE_CTX_BASE g) (s.reg rFE_CTX_COUNT g) = true) →
      Completes (.feCtxCountWrite v) s (fun t =>
        t.reg rHOOD_REJECT_COUNT h = satAdd 32 (s.reg rHOOD_REJECT_COUNT h) 1 ∧ OnlyRegisters [(rHOOD_REJECT_COUNT, h)] s t))

/-- With the record that SEC_REQ_ADDR names: an SVN commit that authenticates raises the stored SVN of its class to the larger value; a CONFIG that
authenticates stores the board maximum of its records and keeps the SVNs; one that does not authenticate, and a request of another command, is
refused with status 4 and changes nothing else. A debug token that verifies within its time opens debug with a class A singe; one that does not, or
one for another serial number, is refused with status 3; each attempt draws a new nonce. Hoods and memory stay. (R353, R354, R361.) -/
def Obligations.SignedRequestsObeyOrRefuse : Prop :=
  ∀ (s : State) (cls : Nat) (r k : List Byte), PfOpen s → s.hatServes = true → (s.fn 0).bme = true → s.reg rSEC_REQ_STATUS 0 ≠ 1 →
    s.reg rDBG_TOKEN_STATUS 0 ≠ 1 → s.hostRd (s.reg rSEC_REQ_ADDR 0) 144 = r → s.hostRd (s.reg rDBG_TOKEN_ADDR 0) 144 = k →
    (fld r 0 0 8 = 1 → fld r 1 0 8 = cls → cls < 4 → fld r 0x20 0 64 < 65536 → s.hat.flash.svn.length = 4 → (∀ h, (s.hood h).created = false) →
      fld r 0x20 0 64 ≤ s.hat.running.headD 0 → Completes .svnCommit s (fun t => t.hoods = s.hoods ∧ t.mem = s.mem ∧
        (s.reqOk r (2 + s.hat.flash.owner) false = true → t.hat.flash.svn.getD cls 0 = max (fld r 0x20 0 64) (s.hat.flash.svn.getD cls 0) ∧
          t.reg rSEC_REQ_STATUS 0 = 2) ∧
        (s.reqOk r (2 + s.hat.flash.owner) false = false → t.hat = s.hat ∧ t.reg rSEC_REQ_STATUS 0 = 4))) ∧
    (fld r 0 0 8 = 2 → Completes .config s (fun t => t.hoods = s.hoods ∧ t.mem = s.mem ∧ t.hat.flash.svn = s.hat.flash.svn ∧
        (s.reqOk r (2 + s.hat.flash.owner) true = true → (Config.recordsAt (fld r 0x20 0 64)).recordsOk = true →
          t.hat.flash.boardMax = (Config.recordsAt (fld r 0x20 0 64)).boardMax ∧ t.reg rSEC_REQ_STATUS 0 = 2) ∧
        (s.reqOk r (2 + s.hat.flash.owner) true = false ∨ (Config.recordsAt (fld r 0x20 0 64)).recordsOk = false → t.hat = s.hat ∧ t.reg rSEC_REQ_STATUS 0 = 4))) ∧
    (fld r 0 0 8 ≠ 1 → fld r 0 0 8 ≠ 2 →
      Completes .config s (fun t => t.reg rSEC_REQ_STATUS 0 = 4 ∧ OnlyRegisters [(rSEC_REQ_STATUS, 0)] s t)) ∧
    (fld k 0 0 8 = 3 → s.now ≤ fld k 0x20 0 64 → s.nap.classA < 2 → s.liveHoods = [] → s.stl.watch = [] → s.hat.repair = none →
      Completes .debugOpen s (fun t => t.nonce = Config.drbg s.free ∧ t.hoods = s.hoods ∧ t.mem = s.mem ∧
        (s.reqOk k 1 false = true → t.hat.debug = 4 + fld k 1 0 2 ∧ t.reg rDBG_TOKEN_STATUS 0 = 2 ∧ t.reg rDBG_CAUSE 0 % 2 = 1 ∧
          t.nap.classA = s.nap.classA + 1) ∧
        (s.reqOk k 1 false = false → t.hat.debug = s.hat.debug ∧ t.reg rDBG_TOKEN_STATUS 0 = 3))) ∧
    (fld k 8 0 64 ≠ s.hat.serial.toNat →
      Completes .debugOpen s (fun t => t.reg rDBG_TOKEN_STATUS 0 = 3 ∧ t.nonce = Config.drbg s.free ∧ t.hat.debug = s.hat.debug ∧ t.hoods = s.hoods))

/-- An access of the window at hood address HOST_WIN_BASE + offset. Outside the block a read gives ones and a write nothing, and each is counted
once. Within one line of a plain local range, a read gives the bytes that the line holds with the poison mark of the line, and a write stores its
bytes, every other byte reads as before, and the mark of the line ends only where all 64 bytes were written. A write to a read-only range stores
nothing and is counted. (R221, R222, R191, R99, R100.) -/
def Obligations.WindowReadsAndWritesMemory : Prop :=
  ∀ (s : State) (h off len line : Nat) (ide : Bool) (d : List Byte), Powered s → s.reach (h + 1) ide = .ok → h < 16 →
    off + len ≤ 2 ^ s.front.vfBar2 → 0 < len → len ≤ 4096 → d.length = len → s.coh.hot = [] →
    ((∀ x, alignDown (s.winAt h + off) 64 ≤ x → x < s.winAt h + off + len → (s.hood h).block.rangeAt x = none) →
      Completes (.windowRead h ide off len 0) s (fun t =>
        Answers s t (.window (h + 1) (List.replicate len 0xFF) false) ∧
        t.reg rHOST_ERR_COUNT (h + 1) = satAdd 32 (s.reg rHOST_ERR_COUNT (h + 1)) 1 ∧ t.mem = s.mem ∧ t.poison = s.poison) ∧
      Completes (.windowWrite h ide off d) s (fun t =>
        t.reg rHOST_ERR_COUNT (h + 1) = satAdd 32 (s.reg rHOST_ERR_COUNT (h + 1)) 1 ∧ t.mem = s.mem ∧ t.poison = s.poison ∧
        t.hoods = s.hoods)) ∧
    ((s.winAt h + off) % 64 + len ≤ 64 → PlainPlace s h (s.winAt h + off) line false →
      Completes (.windowRead h ide off len 0) s (fun t =>
        Answers s t (.window (h + 1) ((List.range len).map (fun i => s.rawByte (line * 64 + (s.winAt h + off) % 64 + i))) (s.linePsn line)) ∧
        t.mem = s.mem ∧ t.poison = s.poison ∧ SameData s t) ∧
      Completes (.windowWrite h ide off d) s (fun t =>
        (∀ x, t.rawByte x = if line * 64 + (s.winAt h + off) % 64 ≤ x ∧ x < line * 64 + (s.winAt h + off) % 64 + len
          then d.getD (x - (line * 64 + (s.winAt h + off) % 64)) 0 else s.rawByte x) ∧
        (∀ l, l ≠ line → (t.poison.find l).isSome = (s.poison.find l).isSome) ∧
        (t.poison.find line).isSome = ((s.poison.find line).isSome && decide (len < 64)) ∧ SameData s t)) ∧
    ((s.winAt h + off) % 64 + len ≤ 64 → PlainPlace s h (s.winAt h + off) line true →
      Completes (.windowWrite h ide off d) s (fun t =>
        t.reg rMEM_RO_DROP (chanOfLine line) = satAdd 32 (s.reg rMEM_RO_DROP (chanOfLine line)) 1 ∧ t.mem = s.mem ∧ t.poison = s.poison ∧
        SameData s t))

/-- A 32- or 64-bit write to offset 0 of the page of a context that the hood holds wakes the one ring of it that sleeps, and does nothing where none
sleeps. A write to the page of a context that the hood does not hold, at another offset or of another width is counted in the HOST error count; one
beyond the wake pages gets Unsupported Request. (R223, R242.) -/
def Obligations.WakePagesWakeRings : Prop :=
  ∀ (s : State) (h c off width r : Nat) (ide : Bool) (v : BitVec 64), Powered s → s.reach (h + 1) ide = .ok → h < 16 →
    (c < 4096 → s.ctxOf h c = true → width = 4 ∨ width = 8 → s.asleep c = [r] → s.awakeRings.length < 512 →
      Completes (.wakePageWrite h ide (4096 * c) width v) s (fun t =>
        t.rings = (s.setAwake r).rings ∧ (t.ring r).awake = s.now ∧ t.hostMem = (s.setAwake r).hostMem ∧ t.works = s.works)) ∧
    (c < 4096 → s.ctxOf h c = true → width = 4 ∨ width = 8 → s.asleep c = [] →
      Completes (.wakePageWrite h ide (4096 * c) width v) s (fun t => OnlyPort s t)) ∧
    (off < 16777216 → s.ctxOf h (off / 4096) = false ∨ off % 4096 ≠ 0 ∨ (width ≠ 4 ∧ width ≠ 8) →
      Completes (.wakePageWrite h ide off width v) s (fun t =>
        t.reg rHOST_ERR_COUNT (h + 1) = satAdd 32 (s.reg rHOST_ERR_COUNT (h + 1)) 1 ∧
        OnlyRegisters [(rHOST_ERR_COUNT, h + 1)] s t)) ∧
    (16777216 ≤ off → Completes (.wakePageWrite h ide off width v) s (fun t =>
      Answers s t (.unsupported (h + 1)) ∧ OnlyPort s t))

/-- With the hatter running: version, capabilities, algorithms, digests, a certificate of slot 0, a challenge of slot 0 and a chunk are answered and
change nothing; another slot gives InvalidRequest, and a vendor request that is not supported its error. KEY_EXCHANGE opens a session (busy at
eight), FINISH establishes it, HEARTBEAT answers, KEY_UPDATE advances its key, END_SESSION ends it, and CHUNK_SEND stores the next chunk number. The
numbers of messages and errors are the model's (log entry 40, PRESUMED). (R349, R363.) -/
def Obligations.SpdmRequestsAndSessions : Prop :=
  (∀ (s : State) (slot off len seq : Nat), SpdmUp s → s.hat.aliasKey = true →
    Completes .getVersion s (fun t => Answers s t (.spdm 0x04 0x13 false) ∧ OnlyPort s t) ∧
    Completes .getCapabilities s (fun t => Answers s t (.spdm 0x61 0x262F6 false) ∧ OnlyPort s t) ∧
    Completes .negotiateAlgorithms s (fun t => Answers s t (.spdm 0x63 (0x81B + 32 * 2 ^ 16) false) ∧ OnlyPort s t) ∧
    Completes .getDigests s (fun t => Answers s t (.spdm 0x01 1 false) ∧ OnlyPort s t) ∧
    Completes (.getCertificate 0 off len) s (fun t => Answers s t (.cert 0 off len) ∧ OnlyPort s t) ∧
    Completes (.challenge 0) s (fun t => Answers s t (.spdm 0x03 0 true) ∧ OnlyPort s t) ∧
    Completes (.chunkGet seq) s (fun t => Answers s t (.spdm 0x06 seq false) ∧ OnlyPort s t) ∧
    Completes (.vendorDefinedRequest .unsupported) s (fun t => Answers s t (.spdm 0x7F 7 false) ∧ OnlyPort s t) ∧
    (slot ≠ 0 → Completes (.getCertificate slot off len) s (fun t => Answers s t (.spdm 0x7F 1 false) ∧ OnlyPort s t) ∧
      Completes (.challenge slot) s (fun t => Answers s t (.spdm 0x7F 1 false) ∧ OnlyPort s t))) ∧
  (∀ (s : State) (sid seq : Nat) (last : Bool), SpdmUp s → s.hat.aliasKey = true →
    (s.hat.sessions.find sid = none → s.hat.sessions.length < 8 → Completes (.keyExchange sid) s (fun t =>
      t.hat = { s.hat with sessions := s.hat.sessions.insert sid 1, sessKeys := s.hat.sessKeys.insert sid 0 } ∧
      Answers s t (.spdm 0x64 sid true) ∧ t.regs = s.regs ∧ t.mem = s.mem)) ∧
    (s.hat.sessions.find sid = none → 8 ≤ s.hat.sessions.length → Completes (.keyExchange sid) s (fun t =>
      Answers s t (.spdm 0x7F 10 false) ∧ OnlyPort s t)) ∧
    (s.hat.sessions.find sid = some 1 → Completes (.finish sid) s (fun t =>
      t.hat = { s.hat with sessions := s.hat.sessions.insert sid 2 } ∧ Answers s t (.spdm 0x65 sid false) ∧ t.regs = s.regs ∧ t.mem = s.mem)) ∧
    (s.hat.sessions.find sid = some 2 →
      Completes (.heartbeat sid) s (fun t => Answers s t (.spdm 0x68 sid false) ∧ OnlyPort s t) ∧
      Completes (.keyUpdate sid) s (fun t =>
        t.hat = { s.hat with sessKeys := s.hat.sessKeys.insert sid ((s.hat.sessKeys.find sid).getD 0 + 1) } ∧
        Answers s t (.spdm 0x69 sid false) ∧ t.regs = s.regs ∧ t.mem = s.mem) ∧
      Completes (.endSession sid) s (fun t =>
        t.hat.sessions.find sid = none ∧ (∀ i, i ≠ sid → t.hat.sessions.find i = s.hat.sessions.find i) ∧
        Answers s t (.spdm 0x6A sid false) ∧ t.regs = s.regs ∧ t.mem = s.mem)) ∧
    (s.hat.sessions.find sid ≠ some 2 → Completes (.heartbeat sid) s (fun t => Answers s t (.spdm 0x7F 2 false) ∧ OnlyPort s t)) ∧
    (seq = s.hat.chunk → Completes (.chunkSend seq last) s (fun t =>
      t.hat = { s.hat with chunk := if last then 0 else seq + 1 } ∧ Answers s t (.spdm 0x05 seq false) ∧ t.regs = s.regs)))

/-- GET_MEASUREMENTS of a package index that holds a value answers it, and of a hood's index answers the epoch, GEN, state, seal and digest of that
content; a hood due for re-measurement, and all-indices while one is, is answered Busy; a hood that does not exist InvalidRequest. Nothing changes.
The code numbers are the model's (log entry 40, PRESUMED). (R364, R366.) -/
def Obligations.MeasurementsAnsweredOrBusy : Prop :=
  ∀ (s : State) (idx h k : Nat) (v : List Byte) (c : List Nat), SpdmUp s → h < 16 → k < 8 →
    (idx < 0x10 → idx ≠ 0 → s.measurement idx = some v → Completes (.getMeasurements idx) s (fun t =>
      (∃ l, t.outs.host = s.outs.host ++ .meas idx v :: .spdm 0x60 idx true :: l) ∧ OnlyPort s t)) ∧
    (s.hoodExists h = true → (s.hood h).meas = false → s.hoodContent h k = some c → Completes (.getMeasurements (0x10 + 8 * h + k)) s (fun t =>
      (∃ l, t.outs.host = s.outs.host ++ .meas (0x10 + 8 * h + k)
        (leBytes 4 (s.reg rHOOD_EPOCH h) ++ leBytes 2 (s.hood h).gen ++ leBytes 1 (s.hood h).measState ++ leBytes 1 (b2n (s.hood h).sealed) ++
          leBytes 48 (Config.digest c).toNat ++ leBytes 8 0) :: .spdm 0x60 (0x10 + 8 * h + k) true :: l) ∧ OnlyPort s t)) ∧
    (s.hoodExists h = true → (s.hood h).meas = true →
      Completes (.getMeasurements (0x10 + 8 * h + k)) s (fun t => Answers s t (.spdm 0x7F 3 false) ∧ OnlyPort s t) ∧
      Completes (.getMeasurements 0xFF) s (fun t => Answers s t (.spdm 0x7F 3 false) ∧ OnlyPort s t)) ∧
    (s.hoodExists h = false → Completes (.getMeasurements (0x10 + 8 * h + k)) s (fun t =>
      Answers s t (.spdm 0x7F 1 false) ∧ OnlyPort s t))

/-- Over an established session: LOCK of a sealed unlocked hood locks its interface, and of an unsealed one is refused; START of a locked one runs
it; the state and the report are answered; STOP unlocks it; IDE key programming, K_SET_GO and K_SET_STOP change the keys and started streams alone.
An IDE failure of a stream without keys sets the cause and names the stream; of a hood's stream it puts the interface in ERROR and the hood fails.
The code numbers are the model's (log entry 40, PRESUMED). (R226, R227, R366.) -/
def Obligations.DeviceInterfaceLifeCycle : Prop :=
  (∀ (s : State) (h stream : Nat), SpdmUp s → h < 16 → stream < 16 → s.isTdi h = true → s.hat.sessions.any (fun e => e.2 == 2) = true →
    ((s.hood h).sealed = true → (s.hood h).tdi = 0 → Completes (.lockInterfaceRequest h) s (fun t =>
      t.hoods = (s.modHood h (fun k => { k with tdi := 1 })).hoods ∧ (t.hood h).tdi = 1 ∧ Answers s t (.tdisp 3 h []) ∧ t.regs = s.regs)) ∧
    ((s.hood h).sealed = false → Completes (.lockInterfaceRequest h) s (fun t => Answers s t (.tdisp 0x7F h []) ∧ OnlyPort s t)) ∧
    ((s.hood h).tdi = 1 → Completes (.vendorDefinedRequest (.tdispStart h)) s (fun t =>
      t.hoods = (s.modHood h (fun k => { k with tdi := 2 })).hoods ∧ (t.hood h).tdi = 2 ∧ Answers s t (.tdisp 6 h []) ∧ t.regs = s.regs)) ∧
    Completes (.vendorDefinedRequest (.tdispGetState h)) s (fun t => Answers s t (.tdisp 5 h [(s.hood h).tdi]) ∧ OnlyPort s t) ∧
    Completes (.vendorDefinedRequest (.tdispGetReport h)) s (fun t =>
      Answers s t (.tdisp 4 h [s.front.vfBar2, s.winAt h, 0x10 + 8 * h]) ∧ OnlyPort s t) ∧
    Completes (.vendorDefinedRequest (.ideKeyProg stream h)) s (fun t =>
      t.hat = { s.hat with ideKeys := s.hat.ideKeys.insert stream (h + 1) } ∧ t.hoods = s.hoods ∧ t.regs = s.regs) ∧
    ((s.hat.ideKeys.find stream).isSome = true → (∀ fn, s.hat.ideKeys.find stream = some fn → fn = 0 ∨ NothingHeld s fn) → Completes (.vendorDefinedRequest (.ideKeySetGo stream)) s (fun t =>
      t.hat = { s.hat with ideGo := s.hat.ideGo.insert stream true } ∧ t.hoods = s.hoods ∧ t.regs = s.regs)) ∧
    Completes (.vendorDefinedRequest (.ideKeySetStop stream)) s (fun t =>
      t.hat = { s.hat with ideGo := s.hat.ideGo.erase stream } ∧ t.hoods = s.hoods ∧ t.regs = s.regs) ∧
    (NothingHeld s (h + 1) → Completes (.stopInterfaceRequest h) s (fun t => HostOut.tdisp 7 h [] ∈ t.outs.host ∧
      (t.hood h).tdi = 0 ∧ (∀ g, g ≠ h → t.hood g = s.hood g) ∧ t.regs = s.regs ∧ t.mem = s.mem)) ∧
    (s.portUp = true → s.hat.ideKeys.find stream = none ∨ s.hat.ideKeys.find stream = some 0 → Completes (.ideIntegrityFailure stream) s (fun t =>
      t.reg rHOST_IDE_STREAM 0 = stream ∧ t.reg rHOST_CAUSE 0 / 2 % 2 = 1 ∧
      OnlyRegisters [(rHOST_IDE_STREAM, 0), (rHOST_CAUSE, 0)] s t)) ∧
    (s.portUp = true → s.hat.ideKeys.find stream = some (h + 1) → (s.hood h).tdi ≠ 3 → Completes (.ideIntegrityFailure stream) s (fun t =>
      (t.hood h).tdi = 3 ∧ (t.hood h).failed = true))) ∧
  ∀ (s : State) (h stream : Nat) (c : Instr), SpdmUp s → h < 16 →
    (s.hat.sessions.any (fun e => e.2 == 2) = false → c ∈ [.vendorDefinedRequest (.ideKeyProg stream h), .vendorDefinedRequest (.ideKeySetGo stream),
      .vendorDefinedRequest (.ideKeySetStop stream)] → Completes c s (fun t => Answers s t (.spdm 0x7F 11 false) ∧ OnlyPort s t)) ∧
    (s.isTdi h = false → c ∈ [.vendorDefinedRequest (.tdispStart h), .vendorDefinedRequest (.tdispGetState h), .vendorDefinedRequest (.tdispGetReport h),
      .lockInterfaceRequest h] → Completes c s (fun t => Answers s t (.tdisp 0x7F h []) ∧ OnlyPort s t)) ∧
    ((s.hood h).tdi ≠ 0 → Completes (.lockInterfaceRequest h) s (fun t => Answers s t (.tdisp 0x7F h []) ∧ OnlyPort s t)) ∧
    ((s.hood h).tdi ≠ 1 → Completes (.vendorDefinedRequest (.tdispStart h)) s (fun t => Answers s t (.tdisp 0x7F h []) ∧ OnlyPort s t)) ∧
    (s.isTdi h = false → (s.hood h).tdi = 0 → Completes (.stopInterfaceRequest h) s (fun t => Answers s t (.tdisp 0x7F h []) ∧ OnlyPort s t))

/-- MCTP endpoint assignment is stored and answered; a dynamic I3C address moves the sideband lands from SMBus to I3C, and RSTDAA back; PLDM is
refused while the hatter does not run, and otherwise answers its type, temperatures, package power and effective cap. A firmware update stages its
image (in RECOVERY only classes 0 and 4); verification marks it STAGED when step, signature, digest, key and SVN are in order, and otherwise drops
it as REJECTED. The code numbers are the model's (log entry 40, PRESUMED). (R235, R351, R381, R414.) -/
def Obligations.SidebandAndImages : Prop :=
  (∀ (s : State) (bus eid addr code arg : Nat), Powered s → bus < 3 → s.busUp bus = true →
    (8 ≤ eid → eid < 255 → Completes (.mctpControlMessage bus 1 eid) s (fun t =>
      t.nap = { s.nap with mctpEid := eid, alertN := t.nap.alertN } ∧ AnswersBoard s t (.mctp 1 0) ∧ t.regs = s.regs)) ∧
    Completes (.mctpControlMessage bus 2 eid) s (fun t =>
      t.nap = { s.nap with alertN := t.nap.alertN } ∧ AnswersBoard s t (.mctp 2 s.nap.mctpEid) ∧ t.regs = s.regs) ∧
    (addr < 128 → Completes (.dynamicAddressAssignment addr) s (fun t =>
      t.nap = { s.nap with i3cAddr := some addr, alertN := t.nap.alertN } ∧ t.busUp 1 = false ∧ t.busUp 2 = true ∧ t.regs = s.regs)) ∧
    Completes .rstdaa s (fun t =>
      t.nap = { s.nap with i3cAddr := none, alertN := t.nap.alertN } ∧ t.busUp 1 = true ∧ t.busUp 2 = false ∧ t.regs = s.regs) ∧
    (s.hat.runs = false → s.nap.classB = false → Completes (.pldmRequest code arg) s (fun t =>
      AnswersBoard s t (.pldm code 4 0) ∧ t.nap = { s.nap with alertN := t.nap.alertN } ∧ t.regs = s.regs)) ∧
    (s.hat.runs = true → Completes (.pldmRequest 0 arg) s (fun t => AnswersBoard s t (.pldm 0 0 0) ∧ t.regs = s.regs)) ∧
    (s.hat.runs = true → arg < 155 → Completes (.pldmRequest 2 arg) s (fun t =>
      AnswersBoard s t (.pldm 2 0 (int16 ((s.thermal.temps.find arg).getD 0))) ∧ t.regs = s.regs)) ∧
    (s.hat.runs = true → Completes (.pldmRequest 2 155) s (fun t => AnswersBoard s t (.pldm 2 0 (s.reg rPWR_PKG_POWER 0)) ∧ t.regs = s.regs)) ∧
    (s.hat.runs = true → Completes (.pldmRequest 2 156) s (fun t => AnswersBoard s t (.pldm 2 0 (s.reg rPWR_CAP_EFF 0 % 8192)) ∧ t.regs = s.regs))) ∧
  (∀ (s : State) (im : Image) (cls : Nat), Powered s → s.hatServes = true →
    (im.cls ≤ 4 → s.reg rTOP_START_STATE 0 ≠ 5 → Completes (.pldmFirmwareUpdate im) s (fun t =>
      t.hat = { s.hat with staged := s.hat.staged.insert im.cls im } ∧ t.reg rSEC_UPD_STATUS im.cls = 2 + im.svn % 65536 * 256 ∧
      AnswersBoard s t (.pldm 5 0 0) ∧ t.hoods = s.hoods ∧ t.mem = s.mem)) ∧
    (im.cls ≠ 0 → im.cls ≠ 4 → s.reg rTOP_START_STATE 0 = 5 → Completes (.pldmFirmwareUpdate im) s (fun t =>
      t.hat = s.hat ∧ AnswersBoard s t (.pldm 5 2 0) ∧ t.regs = s.regs)) ∧
    (cls < 4 → s.hat.staged.find cls = some im → im.cls = cls → s.reg rSEC_UPD_STATUS cls % 8 = 2 →
      im.stepB0 = true → im.sigOk = true → im.digestOk = true → im.keySerial ∉ s.hat.flash.revoked → s.hat.flash.svn.getD cls 0 ≤ im.svn →
      Completes (.imageVerified cls) s (fun t => t.reg rSEC_UPD_STATUS cls = 3 + im.svn % 65536 * 256 ∧ t.hat = s.hat ∧ t.hoods = s.hoods)) ∧
    (cls < 4 → s.hat.staged.find cls = some im → im.cls = cls → s.reg rSEC_UPD_STATUS cls % 8 = 2 →
      (im.stepB0 = false ∨ im.sigOk = false ∨ im.digestOk = false ∨ im.keySerial ∈ s.hat.flash.revoked ∨ im.svn < s.hat.flash.svn.getD cls 0) →
      Completes (.imageVerified cls) s (fun t =>
        t.reg rSEC_UPD_STATUS cls = 4 ∧ t.hat = { s.hat with staged := s.hat.staged.erase cls } ∧ t.hoods = s.hoods)))

/-- From an unpowered package, with every site and channel good: where flash, records, replay memory and image verify, the start ends READY with a
zero counter, the READY alert, all rails on, no hoods and the host's memory and the waiting commands as they were; where one of them does not, in
RECOVERY with FLASHFAIL and only the spine rails on; with a failed known-answer test in the error state with HATTERFAIL; and with a spine rail out
of regulation it stops there. (R377, R378, R381, R347.) -/
def Obligations.ColdStartOutcomes : Prop :=
  ∀ (s : State) (f : FlashImage) (sites chans : List Nat) (r : Nat), s.nap.pgood = false →
    (f.present = true → f.recordsOk = true → f.rpmbOk = true →
      f.image0Ok = true ∨ ((s.hat.staged.find 0).isSome = true ∧ s.reg rSEC_UPD_STATUS 0 % 8 = 3) → Completes (.coldStart f true [] [] none) s (fun t =>
      t.ready = true ∧ t.hat.step = 12 ∧ t.hat.runs = true ∧ t.nap.counter = 0 ∧ t.nap.alert = 0x100 ∧ t.mem = [] ∧ t.hoods = [] ∧
      t.hat.rails = spineRails ++ coreRails ∧ t.hostMem = s.hostMem ∧ t.pending = s.pending)) ∧
    ((f.present = false ∨ f.recordsOk = false ∨ f.rpmbOk = false ∨ (f.image0Ok = false ∧ s.reg rSEC_UPD_STATUS 0 % 8 ≠ 3)) →
      Completes (.coldStart f true sites chans none) s (fun t =>
        t.reg rTOP_START_STATE 0 = 5 ∧ t.nap.alert = 8 ∧ t.hat.runs = true ∧ t.hat.rails = spineRails ∧ t.mem = [] ∧ t.hoods = [])) ∧
    Completes (.coldStart f false sites chans none) s (fun t =>
      t.reg rTOP_START_STATE 0 = 6 ∧ t.nap.alert = 0x10 ∧ t.nap.hatFail = true ∧ t.hat.runs = false ∧ t.hoods = []) ∧
    (r ∈ spineRails → Completes (.coldStart f true sites chans (some r)) s (fun t =>
      t.reg rTOP_START_STATE 0 = 0 ∧ t.hat.stuck = some r ∧ r ∉ t.hat.rails ∧ t.hat.runs = false ∧ t.nap.alert = 0))

/-- A hatter that misses its start bound sets HATTERFAIL, enters the error state and gates every plank. A rail that stays out of regulation sets
REGFAULT alone. The fall of PGOOD_NAP switches the rails off in reverse order and clears everything but the flash and the staged images. A reference
fault sets CLKFAULT and gates every plank. PERST# ends the hoods, links, rings and works, keeps memory contents until its release, and the release
restarts the package to READY with erased memory and the counter running on; DL_Down does both at once and sets PCIEDOWN. After a hardware trip
PERST# changes nothing until every sensor is cool, and DL_Down sets PCIEDOWN alone. (R219, R320, R340, R378, R380, R410.) -/
def Obligations.PackageStopsAndResets : Prop :=
  (∀ (s : State) (rail : Nat), Powered s → rail < 15 →
    (s.hat.runs = false → s.nap.hatFail = false → s.nap.perst = false → Completes .hatterStartTimeout s (fun t =>
      t.nap = { s.nap with hatFail := true, alert := s.nap.alert ||| 0x10, alertN := t.nap.alertN } ∧ t.reg rTOP_START_STATE 0 = 6 ∧
      (∀ p, p < 128 → (t.plank p).gated = true) ∧ t.hoods = s.hoods ∧ t.mem = s.mem)) ∧
    (s.hat.stuck = some rail → Completes (.railRegulationTimeout rail) s (fun t =>
      t.nap = { s.nap with alert := s.nap.alert ||| 4, alertN := t.nap.alertN } ∧ t.regs = s.regs ∧ t.hat = s.hat)) ∧
    Completes .pgoodNapFall s (fun t =>
      t.nap = { t.nap with pgood := false, counter := 0, alert := 0, classA := 0, classB := false, mctpEid := 0, i3cAddr := none } ∧
      t.hat.flash = s.hat.flash ∧ t.hat.rails = [] ∧ t.mem = [] ∧ t.hoods = [] ∧ t.hat.staged = s.stagedImages.1 ∧ t.regs = s.stagedImages.2 ∧
      t.outs.board = s.outs.board ++ s.hat.rails.reverse.map .railOff) ∧
    (s.nap.refCheck = true → s.liveHoods = [] → s.stl.watch = [] → s.rots = [] → Completes .referenceCheckFault s (fun t =>
      t.nap.refFault = true ∧ t.portUp = false ∧ (∀ l, l < 40 → (t.link l).st ≠ 2) ∧ (∀ p, p < 128 → (t.plank p).gated = true) ∧ t.mem = s.mem)) ∧
    (s.nap.refCheck = true → s.liveHoods = [] → (∀ l, (s.link l).st ≠ 2) → Completes .referenceCheckFault s (fun t =>
      t.nap = { s.nap with refFault := true, alert := s.nap.alert ||| 0x400, alertN := t.nap.alertN } ∧
      (∀ p, p < 128 → (t.plank p).gated = true) ∧ t.mem = s.mem ∧ t.regs = s.regs))) ∧
  (∀ (s : State) (refOk katOk : Bool) (stuck : Option Nat), Powered s → s.nap.tripped = false → s.nap.hatFail = false →
    (s.nap.perst = false → Completes .perst s (fun t =>
      t.nap = { s.nap with perst := true, alertN := t.nap.alertN } ∧ t.ready = false ∧ t.hat.keys = [] ∧ t.hat.table3 = s.hat.table3 ∧
      t.hat.aliasKey = false ∧ t.hat.flash = s.hat.flash ∧ t.hoods = [] ∧ t.links = [] ∧ t.rings = [] ∧ t.works = [] ∧ t.mem = s.mem)) ∧
    (s.nap.perst = true → s.hat.step = 12 → s.nap.spine = false → Completes (.perstDeassert refOk katOk [] stuck) s (fun t =>
      t.nap.perst = false ∧ t.ready = true ∧ t.nap.counter = s.nap.counter ∧ t.hat.runs = true ∧ t.hat.aliasKey = s.hat.table3 ∧ t.mem = [] ∧
      t.nap.alert = s.nap.alert ||| 0x100)) ∧
    (s.nap.perst = false → s.hat.step = 12 → s.nap.spine = false → Completes .dlDown s (fun t =>
      t.ready = true ∧ t.nap.counter = s.nap.counter ∧ t.nap.alert = s.nap.alert ||| 0x40 ||| 0x100 ∧ t.hoods = [] ∧ t.links = [] ∧ t.mem = []))) ∧
  (∀ s : State, Powered s → s.nap.perst = false → s.nap.tripped = true →
    Completes .dlDown s (fun t => t.nap = { s.nap with alert := s.nap.alert ||| 0x40, alertN := t.nap.alertN } ∧ t.regs = s.regs ∧ t.hoods = s.hoods) ∧
    (s.cool = false → Completes .perst s (fun t => OnlyPort s t)))

/-- Where no hood is created: setting VF Enable with n makes hoods 0 to n − 1 exist at once, or waits while one is still on its disable path;
clearing it, or a PF function-level reset, puts every existing hood on that path, and the PF reset also resets the PF's registers but not the alert
enables; the path's end leaves the hood absent; and the enable that waited takes effect with the last one. (R220, R382, R383.) -/
def Obligations.VfEnableAndDisable : Prop :=
  ∀ (s : State) (n h : Nat), Ready s → n ≤ 16 → h < 16 → (∀ g, (s.hood g).created = false ∧ (s.hood g).change.phase = .stable) →
    s.front.heldBlk = [] → s.hat.repair = none →
    (s.front.vfEn = false → s.front.enQ = false → (∀ g, g < 16 → (s.hood g).vf ≠ 2) → Completes (.vfEnableSet n) s (fun t =>
      t.front = { s.front with vfEn := true, numVfs := n } ∧ (∀ g, (t.hood g).vf = if g < n then 1 else (s.hood g).vf) ∧ t.regs = s.regs)) ∧
    (s.front.vfEn = false → s.front.enQ = false → (∃ g, g < 16 ∧ (s.hood g).vf = 2) → Completes (.vfEnableSet n) s (fun t =>
      t.front = { s.front with enQ := true, enNum := n } ∧ (∀ g, g < 16 → (t.hood g).vf = if (s.hood g).vf = 2 then 3 else (s.hood g).vf) ∧
      t.regs = s.regs)) ∧
    Completes .vfEnableClear s (fun t =>
      t.front.vfEn = false ∧ t.front.enQ = false ∧ (∀ g, g < 16 → (t.hood g).vf = if (s.hood g).vf = 1 ∨ (s.hood g).vf = 3 then 2 else (s.hood g).vf) ∧
      t.mem = s.mem ∧ t.nap.counter = s.nap.counter) ∧
    Completes .pfFunctionLevelReset s (fun t =>
      t.front.vfEn = false ∧ t.front.enQ = false ∧ (∀ g, g < 16 → (t.hood g).vf = if (s.hood g).vf = 1 ∨ (s.hood g).vf = 3 then 2 else (s.hood g).vf) ∧
      (t.fn 0).bme = false ∧ t.reg rHOST_CAUSE 0 = 0 ∧ t.reg rHOOD_SEL 0 = 0 ∧ t.nap.alertEn = s.nap.alertEn ∧ t.mem = s.mem) ∧
    ((s.hood h).vf = 2 ∨ (s.hood h).vf = 3 → s.front.enQ = false → Completes (.disablePathComplete h) s (fun t =>
      (t.hood h).vf = 0 ∧ (t.hood h).tdi = 0 ∧ t.reg rHOOD_BLK_STATUS h = 0 ∧ (∀ g, g ≠ h → t.hood g = s.hood g) ∧ t.mem = s.mem)) ∧
    ((s.hood h).vf = 3 → s.front.enQ = true → s.front.enNum = n → (∀ g, g < 16 → g ≠ h → (s.hood g).vf < 2) →
      Completes (.disablePathComplete h) s (fun t =>
        t.front.vfEn = true ∧ t.front.enQ = false ∧ t.front.numVfs = n ∧ (∀ g, g < n → (t.hood g).vf = 1)))

/-- A function-level reset of a VF clears its error state and causes; it and a hood reset advance GEN by one, clear FAILED and keep the seal. A
plank reset acts at once where no work exists: its tiles are cleared, it and its active sites leave isolation, and it reports done; where works hold
its tiles it waits for their saves and changes no tile; a save still outstanding at the timeout fails its hood; an index above 127 is invalid.
(R236, R373, R375, R384, R395, R28.) -/
def Obligations.HoodAndPlankResets : Prop :=
  (∀ (s : State) (h : Nat), Ready s → h < 16 → s.hoodExists h = true → s.nap.classB = false →
    s.hat.repair = none → s.namesRetired h = false →
    ((s.hood h).created = true ∨ (s.hood h).change.phase = .stable → Completes (.functionLevelReset h) s (fun t =>
      (t.fn (h + 1)).bme = false ∧ (t.fn (h + 1)).aer = 0 ∧ (∀ c, c ∈ causeRegs → c.1 ≠ rSEC_CAUSE → (s.hood h).created = false → t.reg c.1 (h + 1) = 0))) ∧
    ((s.hood h).created = true → (s.hood h).block.conf = false → Completes (.functionLevelReset h) s (fun t =>
      (t.hood h).gen = ((s.hood h).gen + 1) % 65536 ∧ (t.hood h).failed = false ∧ (t.hood h).sealed = (s.hood h).sealed)) ∧
    ((s.hood h).created = true → Completes (.hoodReset (h + 1)) s (fun t =>
      (t.hood h).gen = ((s.hood h).gen + 1) % 65536 ∧ (t.hood h).failed = false ∧ (t.hood h).sealed = (s.hood h).sealed ∧
      (t.hood h).tdi = (s.hood h).tdi ∧ (t.hood h).teardown = [] ∧ t.nap.counter = s.nap.counter)) ∧
    ((s.hood h).created = false → (s.hood h).change.phase = .stable → (∀ e, e ∈ s.front.heldBlk → e.2.1 ≠ h) →
      Completes (.hoodReset (h + 1)) s (fun t => OnlyPort s t))) ∧
  (∀ (s : State) (p : Nat) (bad : List Nat) (w : Nat) (x : Work), Ready s → s.reg rTOP_MAINT_STATUS 0 % 8 ≠ 1 →
    (p < 128 → s.works = [] → Completes (.plankReset p []) s (fun t =>
      t.reg rTOP_MAINT_STATUS 0 = 2 ∧ (t.plank p).isol = false ∧ (t.plank p).saveWait = false ∧
      (∀ i, i ∈ sitesOf p → t.tile i = default ∧ (s.siteActive i = true → (t.site i).isol = false)) ∧ t.mem = s.mem)) ∧
    (p < 128 → s.worksOn p ≠ [] → Completes (.plankReset p bad) s (fun t =>
      t.reg rTOP_MAINT_STATUS 0 = 1 ∧ (t.plank p).saveWait = true ∧ t.sites = s.sites ∧ t.tiles = s.tiles ∧ t.mem = s.mem)) ∧
    (128 ≤ p → Completes (.plankReset p bad) s (fun t => t.reg rTOP_MAINT_STATUS 0 = 3 ∧ OnlyRegisters [(rTOP_MAINT_STATUS, 0)] s t)) ∧
    (p < 128 → (s.plank p).saveWait = true → (w, x) ∈ s.worksOn p → (s.hood x.hood).created = true → x.hood < 16 →
      Completes (.plankResetSaveTimeout p) s (fun t =>
        (t.hood x.hood).failed = true ∧ (t.plank p).saveWait = false ∧ (t.plank p).isol = false ∧ t.reg rTOP_MAINT_STATUS 0 % 8 = 2)) ∧
    (p < 128 → (s.plank p).saveWait = false → Completes (.plankResetSaveTimeout p) s (fun t => OnlyPort s t)))

/-- CREATE binds the block of its record: epoch 1, GEN advanced by one, not sealed, every site of TMAP owned by the hood, no memory written. RESTART
does the same for a hood that exists. SEAL locks the hood and nothing else, and is INVALID for a sealed one. DESTROY of a hood without ranges frees
its sites and its key and zeroes its epoch. (R162, R163, R169, R375, R423.) -/
def Obligations.HoodLifeCycle : Prop :=
  (∀ (s u : State) (h : Nat) (b b' : Block), BlockOpen s h → s.recordBlock h (s.reg rHOOD_BLK_ADDR 0) = some b → b.keydom = 0 → b.conf = false →
    (∀ r, r ∈ b.ranges → r.borrowed = false) → s.bindRanges h b = some (b', u) →
    ((s.hood h).created = false → Completes (.create h) s (fun t =>
      BlockStatus s t h 1 2 ∧ (t.hood h).created = true ∧ (t.hood h).block = b' ∧ (t.hood h).sealed = false ∧
      (t.hood h).gen = ((s.hood h).gen + 1) % 65536 ∧ t.reg rHOOD_EPOCH h = 1 ∧ t.reg rHOOD_SVC_STATE h = 1 ∧
      t.reg rHOOD_REJECT_COUNT h = 0 ∧ (∀ i, i ∈ b.tmap → (t.site i).owner = some h) ∧ (s.coh.waiting = [] → t.mem = s.mem))) ∧
    ((s.hood h).created = true → (s.hood h).block.keydom = 0 → (s.hood h).block.conf = false → Completes (.restart h) s (fun t =>
      BlockStatus s t h 8 2 ∧ (t.hood h).created = true ∧ (t.hood h).block = b' ∧ (t.hood h).sealed = false ∧ (t.hood h).frozen = false ∧
      (t.hood h).gen = ((s.hood h).gen + 1) % 65536 ∧ t.reg rHOOD_EPOCH h = 1 ∧ (∀ i, i ∈ b.tmap → (t.site i).owner = some h)))) ∧
  (∀ (s : State) (h : Nat), BlockOpen s h → (s.hood h).created = true →
    ((s.hood h).sealed = false → Completes (.seal h) s (fun t =>
      BlockStatus s t h 7 2 ∧ t.hoods = (s.modHood h (fun k => { k with sealed := true, change := {} })).hoods ∧ t.mem = s.mem ∧ t.chans = s.chans)) ∧
    ((s.hood h).sealed = true → Completes (.seal h) s (fun t => BlockStatus s t h 7 3 ∧ (t.hood h).sealed = true ∧ t.mem = s.mem)) ∧
    ((s.hood h).block.conf = false → (s.hood h).block.ranges = [] → Completes (.destroy h) s (fun t =>
      BlockStatus s t h 9 2 ∧ (t.hood h).created = false ∧ (t.hood h).sealed = false ∧ (t.hood h).gen = ((s.hood h).gen + 1) % 65536 ∧
      t.keyGen h = 0 ∧ t.reg rHOOD_EPOCH h = 0 ∧ (∀ i, i ∈ (s.hood h).block.tmap → (t.site i).owner = none))))

/-- CREATE and RESTART of a record that is not in order, and RELEASE_RANGE, MOVE_RANGE and MARK_RO that name no range, end INVALID and change no
memory and no channel. While a change is in progress CREATE and DESTROY, and for a FAILED hood SEAL and RESHAPE, change nothing but the reject
count. CREATE of a hood that does not exist is INVALID, and while the PF may not master the bus a command waits with the record address that stood
when it was written. (R160, R161, R162, R374.) -/
def Obligations.BlockCommandsRefused : Prop :=
  ∀ (s : State) (h i : Nat), h < 16 → i < 256 →
    (BlockOpen s h → s.recordBlock h (s.reg rHOOD_BLK_ADDR 0) = none → Completes (.create h) s (fun t => BlockStatus s t h 1 3 ∧ t.mem = s.mem ∧ t.chans = s.chans) ∧
      Completes (.restart h) s (fun t => BlockStatus s t h 8 3 ∧ t.mem = s.mem ∧ t.chans = s.chans)) ∧
    (BlockOpen s h → s.namedRange h i (s.reg rHOOD_BLK_ADDR 0) = none → Completes (.releaseRange h i) s (fun t => BlockStatus s t h 4 3 ∧ t.mem = s.mem ∧ t.chans = s.chans) ∧
      Completes (.moveRange h i) s (fun t => BlockStatus s t h 5 3 ∧ t.mem = s.mem ∧ t.chans = s.chans) ∧
      Completes (.markRo h i) s (fun t => BlockStatus s t h 6 3 ∧ t.mem = s.mem ∧ t.chans = s.chans)) ∧
    (Ready s → (s.hood h).change.phase ≠ .stable →
      Completes (.create h) s (fun t => t.reg rHOOD_REJECT_COUNT h = satAdd 32 (s.reg rHOOD_REJECT_COUNT h) 1 ∧
        OnlyRegisters [(rHOOD_REJECT_COUNT, h)] s t) ∧
      Completes (.destroy h) s (fun t => t.reg rHOOD_REJECT_COUNT h = satAdd 32 (s.reg rHOOD_REJECT_COUNT h) 1 ∧
        OnlyRegisters [(rHOOD_REJECT_COUNT, h)] s t)) ∧
    (Ready s → (s.hood h).failed = true → s.nap.classB = false →
      Completes (.seal h) s (fun t => t.reg rHOOD_REJECT_COUNT h = satAdd 32 (s.reg rHOOD_REJECT_COUNT h) 1 ∧
        OnlyRegisters [(rHOOD_REJECT_COUNT, h)] s t) ∧
      Completes (.reshape h) s (fun t => t.reg rHOOD_REJECT_COUNT h = satAdd 32 (s.reg rHOOD_REJECT_COUNT h) 1 ∧
        OnlyRegisters [(rHOOD_REJECT_COUNT, h)] s t)) ∧
    (Ready s → (s.hood h).change.phase = .stable → (∀ e, e ∈ s.front.heldBlk → e.2.1 ≠ h) → (s.hood h).failed = false → s.nap.classB = false →
      (s.hoodExists h = false → Completes (.create h) s (fun t => BlockStatus s t h 1 3 ∧ t.mem = s.mem ∧ t.chans = s.chans)) ∧
      (s.hoodExists h = true → (s.fn 0).bme = false → Completes (.create h) s (fun t =>
        t.front.heldBlk = s.front.heldBlk ++ [(1, h, 0, s.reg rHOOD_BLK_ADDR 0)] ∧ t.reg rHOOD_BLK_STATUS h = 1 + 1 * 16 ∧ t.hoods = s.hoods)))

/-- RELEASE_RANGE takes the named range out of the block, MARK_RO makes it read-only, MOVE_RANGE binds a target of the same length and marks the
range as moving to it, and ADD_RANGE appends the checked range where it was bound; each advances the epoch and leaves the change draining, memory as
it was. ADD_RANGE of a range that does not check is INVALID. (R169, R179, R180, R181, R191.) -/
def Obligations.RangeCommandsCommitAndDrain : Prop :=
  ∀ (s u : State) (h i base a : Nat) (r : Range), BlockOpen s h → i < 256 → (s.hood h).created = true → a = s.reg rHOOD_BLK_ADDR 0 →
    (s.namedRange h i a = some r →
      Completes (.releaseRange h i) s (fun t =>
        BlockStatus s t h 4 1 ∧ (t.hood h).block.ranges = (s.hood h).block.ranges.filter (fun q => q.hbase != r.hbase) ∧
        (t.hood h).change.phase = .draining ∧ t.reg rHOOD_EPOCH h = nextEpoch (s.reg rHOOD_EPOCH h) ∧ t.mem = s.mem ∧ t.chans = s.chans) ∧
      Completes (.markRo h i) s (fun t =>
        BlockStatus s t h 6 1 ∧ (t.hood h).block = (s.hood h).block.setRange r.hbase (fun q => { q with ro := true }) ∧
        (t.hood h).change.phase = .draining ∧ t.reg rHOOD_EPOCH h = nextEpoch (s.reg rHOOD_EPOCH h) ∧
        (s.coh.txns = [] → s.coh.waiting = [] → t.chans = s.chans))) ∧
    (s.namedRange h i a = some r → entryOk (s.recEntry a i) = true → entryInRange (s.recEntry a i) (membersOf (s.hood h).block.channels).length = true →
      r.state = 0 → r.borrowed = false → s.sharers h (s.hood h).block r = [] →
      fldB (s.recEntry a i) 0x30 0 = false → fld (s.recEntry a i) 0x28 0 64 = allOnes → (membersOf (s.hood h).block.channels).length ≠ 0 →
      r.len % ((membersOf (s.hood h).block.channels).length * 65536) = 0 →
      s.bindLocal h (s.hood h).block { r with cbase := allOnes } = some (base, u) →
      Completes (.moveRange h i) s (fun t =>
        BlockStatus s t h 5 1 ∧ (t.hood h).change.phase = .draining ∧ t.reg rHOOD_EPOCH h = nextEpoch (s.reg rHOOD_EPOCH h) ∧
        (s.coh.txns = [] → s.coh.waiting = [] → t.chans = u.chans) ∧ ∃ x, x.cbase = base ∧ x.borrowed = false ∧
          (t.hood h).block = (s.hood h).block.setRange r.hbase (fun q => { q with state := 2, moved := 0, target := some x }))) ∧
    (headOk (s.recHead a) h false = true → entryOk (s.recEntry a i) = true → s.checkRange h (s.hood h).block (entryRange (s.recEntry a i)) = some r →
      r.borrowed = false → r.shared = false → s.bindLocal h (s.hood h).block r = some (base, u) →
      Completes (.addRange h i) s (fun t =>
        BlockStatus s t h 3 1 ∧ (t.hood h).block = { (s.hood h).block with ranges := (s.hood h).block.ranges ++ [{ r with cbase := base }] } ∧
        (t.hood h).change.phase = .draining ∧ t.reg rHOOD_EPOCH h = nextEpoch (s.reg rHOOD_EPOCH h) ∧ t.chans = u.chans ∧ t.mem = s.mem)) ∧
    (headOk (s.recHead a) h false = true → s.checkRange h (s.hood h).block (entryRange (s.recEntry a i)) = none →
      Completes (.addRange h i) s (fun t => BlockStatus s t h 3 3 ∧ t.mem = s.mem ∧ t.chans = s.chans))

/-- With no work in the package: RESHAPE of a created hood with an accepted map leaves the block and epoch and stages the change with the sites that
leave; the commit of a staged RESHAPE puts the new block in force, advances the epoch, gives the hood the sites that join, keeps the leaving ones
for the drain, and writes no memory. (R170, R174, R175.) -/
def Obligations.ReshapeStagesAndCommits : Prop :=
  ∀ (s : State) (h a : Nat) (hd : List Byte) (tm : List Nat) (b : Block), s.works = [] → a = s.reg rHOOD_BLK_ADDR 0 → hd = s.recHead a →
    (BlockOpen s h → (s.hood h).created = true → tmapOf hd (s.recTmap a hd) = some tm → headOk hd h false = true →
      s.tmapOk h true tm = true → BitVec.ofNat 40 (fld hd 0x10 0 40) = (s.hood h).block.links → Completes (.reshape h) s (fun t =>
        BlockStatus s t h 2 1 ∧ (t.hood h).block = (s.hood h).block ∧ t.reg rHOOD_EPOCH h = s.reg rHOOD_EPOCH h ∧
        (t.hood h).change.phase = .staged ∧ (t.hood h).change.cmd = 2 ∧ (t.hood h).change.new = some { (s.hood h).block with tmap := tm } ∧
        (t.hood h).change.leaving = (s.hood h).block.tmap.filter (fun i => !tm.contains i) ∧ (t.hood h).change.saves = [] ∧ t.mem = s.mem ∧ t.tiles = s.tiles)) ∧
    (Powered s → h < 16 → (s.hood h).change.phase = .staged → (s.hood h).change.cmd = 2 → (s.hood h).change.new = some b →
      (∀ i, i ∈ b.tmap → i ∉ (s.hood h).block.tmap → (s.site i).owner = none) → s.modeOf h ≠ 2 →
      (s.hood h).block.links &&& ~~~b.links = 0 → Completes (.blockCommit h) s (fun t =>
        (t.hood h).block = b ∧ (t.hood h).change.phase = .draining ∧ (t.hood h).change.leaving = (s.hood h).change.leaving ∧
        t.reg rHOOD_EPOCH h = nextEpoch (s.reg rHOOD_EPOCH h) ∧
        (∀ i, i ∈ b.tmap → i ∉ (s.hood h).block.tmap → (t.site i).owner = some h) ∧ t.mem = s.mem))

/-- A drain that ends with nothing left to drain completes RESHAPE (whose leaving sites lose their owner), ADD_RANGE and MARK_RO, completes
RELEASE_RANGE and a move's second drain (what backed the range is freed: its extents leave the channels and go to the pouncers), starts the copy of
a move, and of a move that is to end on its source commits E + 2 on the source. A drain with anything left, or none at all, changes nothing. The end
of the copy has copied the range and redirects it to its target under E + 2, which drains again. The end of an erase leaves every byte and mark of
its extent as never written, every other byte as before, and reports the stack; with nothing under erase it changes nothing. (R103, R104, R171,
R175, R180, R181, R182, R183.) -/
def Obligations.ChangesDrainCopyAndErase : Prop :=
  (∀ (s : State) (h : Nat), Powered s → h < 16 →
    ((s.hood h).change.phase = .draining → s.drainCount h = 0 → s.hoodExists h = true →
      ((s.hood h).change.cmd = 2 → Completes (.drainComplete h) s (ThenServes s h (fun u =>
        BlockStatus s u h 2 2 ∧ (∀ i, i ∈ (s.hood h).change.leaving → (u.site i).owner = none) ∧ (u.hood h).block = (s.hood h).block ∧ u.mem = s.mem ∧
          u.chans = s.chans))) ∧
      ((s.hood h).change.cmd = 3 ∨ (s.hood h).change.cmd = 6 → Completes (.drainComplete h) s (ThenServes s h (fun u =>
        BlockStatus s u h (s.hood h).change.cmd 2 ∧ (u.hood h).block = (s.hood h).block ∧ u.mem = s.mem ∧ u.chans = s.chans))) ∧
      (∀ r, (s.hood h).change.cmd = 4 → (s.hood h).change.range = some r → Completes (.drainComplete h) s (ThenServes s h (fun u =>
        BlockStatus s u h 4 2 ∧ (u.hood h).block = (s.hood h).block ∧ FreedAtEnd s h r u))) ∧
      (∀ r, (s.hood h).change.cmd = 5 → (s.hood h).change.second = true → (s.hood h).change.range = some r →
        Completes (.drainComplete h) s (ThenServes s h (fun u =>
          BlockStatus s u h 5 (if (s.hood h).change.aborted then 6 else 2) ∧ (u.hood h).block = (s.hood h).block ∧ FreedAtEnd s h r u))) ∧
      ((s.hood h).change.cmd = 5 → (s.hood h).change.second = false → (s.hood h).change.aborted = false →
        Completes (.drainComplete h) s (ThenServes s h (fun u =>
          (u.hood h).change = { (s.hood h).change with phase := .copying } ∧ (u.hood h).block = (s.hood h).block ∧
            u.reg rHOOD_EPOCH h = s.reg rHOOD_EPOCH h ∧ u.mem = s.mem ∧ u.chans = s.chans))) ∧
      (∀ r, (s.hood h).change.cmd = 5 → (s.hood h).change.second = false → (s.hood h).change.aborted = true → (s.hood h).change.range = some r →
        Completes (.drainComplete h) s (ThenServes s h (fun u =>
          (u.hood h).change.phase = .draining ∧ (u.hood h).change.second = true ∧ u.reg rHOOD_EPOCH h = nextEpoch (s.reg rHOOD_EPOCH h) ∧
            (u.hood h).block = (s.hood h).block.setRange r.hbase (fun q => { q with state := 0, target := none }) ∧ u.mem = s.mem ∧ u.chans = s.chans)))) ∧
    ((s.hood h).change.phase ≠ .draining ∨ 0 < s.drainCount h → Completes (.drainComplete h) s (fun t => OnlyPort s t))) ∧
  (∀ (s : State) (h : Nat) (r : Range) (x : Target), Powered s → h < 16 →
    ((s.hood h).change.phase = .copying → (s.hood h).change.range = some r →
      ((s.hood h).block.ranges.find? (fun q => q.hbase == r.hbase)).bind (fun q => q.target) = some x → Completes (.moveCopyComplete h) s (fun t =>
        (t.hood h).change.phase = .draining ∧ (t.hood h).change.second = true ∧ t.reg rHOOD_EPOCH h = nextEpoch (s.reg rHOOD_EPOCH h) ∧
        t.mem = (s.copyRange h (s.hood h).block r x).mem ∧ t.farMem = (s.copyRange h (s.hood h).block r x).farMem ∧
        ∀ q, q ∈ (t.hood h).block.ranges → q.hbase = r.hbase → q.cbase = x.cbase ∧ q.borrowed = x.borrowed ∧ q.lender = x.lender ∧
          q.leaseId = x.leaseId ∧ q.state = 0 ∧ q.moved = q.len ∧ q.target = none)) ∧
    ((s.hood h).change.phase ≠ .copying → Completes (.moveCopyComplete h) s (fun t => OnlyPort s t))) ∧
  (∀ (s : State) (st : Nat) (e : Erase) (rest : List Erase), Powered s → st < 8 →
    ((s.stack st).erases = e :: rest → Completes (.eraseComplete st) s (fun t =>
      (∀ a, gaOf e.chan e.base ≤ a → a < gaOf e.chan e.base + e.len → t.mem.find a = none) ∧
      (∀ l, gaOf e.chan e.base ≤ 64 * l → 64 * l < gaOf e.chan e.base + e.len → t.poison.find l = none) ∧
      (∀ a, (∀ y, y ∈ e :: rest → a < gaOf y.chan y.base ∨ gaOf y.chan y.base + y.len ≤ a) → t.mem.find a = s.mem.find a) ∧
      (t.stack st).erases = (e :: rest).filter (fun y => !(y.base == e.base && y.len == e.len)) ∧
      t.reg rBIR_CAUSE 0 % 2 = 1 ∧ (t.reg rBIR_ERASE_MAP 0).testBit st = true ∧ t.hoods = s.hoods ∧ t.chans = s.chans)) ∧
    ((s.stack st).erases = [] → Completes (.eraseComplete st) s (fun t => OnlyPort s t)))

/-- ASK is denied without pool members, for nothing, or beyond the budget, and is otherwise granted where the pool places it: a lease of the next
number, with its own handle (log entry 90), and the time of the grant. RENEW sets the lease's time and is acknowledged. RETURN, and a reclaim once D
+ M has passed since the last grant or renewal, remove the lease and free its budget; a reclaim before that does nothing. (R184, R185, R186.) -/
def Obligations.LenderGrantsAndTakesBack : Prop :=
  ∀ (s : State) (pkg len id dMs base : Nat) (ro : Bool) (l : Lease), Ready s → pkg < 4096 →
    (s.poolMembers = [] ∨ len = 0 ∨ s.reg rHOOD_POOL_BUDGET 0 < s.reg rHOOD_POOL_USED 0 + len → Completes (.ask pkg len ro dMs) s (fun t =>
      LinksAs (s.stlSend (s.dieFor pkg) pkg none .deny) t ∧ t.lender = s.lender ∧ t.chans = s.chans ∧ t.hoods = s.hoods)) ∧
    (s.poolMembers ≠ [] → len ≠ 0 → s.nap.classB = false → s.reg rHOOD_POOL_USED 0 + len ≤ s.reg rHOOD_POOL_BUDGET 0 →
      s.placeFor s.poolMembers (lentPlen len s.poolMembers.length) none = some base → Completes (.ask pkg len ro dMs) s (fun t =>
        t.lender.leases = s.lender.leases ++ [{ id := s.lender.next, pkg := pkg, handle := leaseHandle s.lender.next, cbase := base, plen := lentPlen len s.poolMembers.length, len := len, ro := ro, dMs := dMs, g := s.now }] ∧
        t.reg rHOOD_POOL_USED 0 = s.reg rHOOD_POOL_USED 0 + len ∧
        t.chans = (s.bindExt s.poolMembers base (lentPlen len s.poolMembers.length) s.lender.next 32 true ro).chans ∧ t.hoods = s.hoods ∧
        t.mem = s.mem)) ∧
    (s.leaseOf pkg id = some l → Completes (.renew pkg id) s (fun t =>
      t.lender.leases = s.lender.leases.map (fun x => if x.id == id then { x with g := s.now } else x) ∧ t.chans = s.chans ∧
      ∃ u, u = { s with lender := { s.lender with leases := t.lender.leases } } ∧ LinksAs (u.stlSend (u.dieFor pkg) pkg none (.ack id)) t)) ∧
    (s.leaseOf pkg id = some l → Completes (.returnLease pkg id) s (fun t =>
      t.lender.leases = s.lender.leases.filter (fun x => x.id != id) ∧ t.reg rHOOD_POOL_USED 0 = s.reg rHOOD_POOL_USED 0 - l.len ∧
      t.hoods = s.hoods)) ∧
    (s.lender.leases.find? (fun x => x.id == id) = some l →
      (l.g + l.dMs * 1000000 + driftMargin l.dMs ≤ s.now → Completes (.leaseReclaim id) s (fun t =>
        t.lender.leases = s.lender.leases.filter (fun x => x.id != id) ∧ t.reg rHOOD_POOL_USED 0 = s.reg rHOOD_POOL_USED 0 - l.len ∧
        t.hoods = s.hoods)) ∧
      (s.now < l.g + l.dMs * 1000000 + driftMargin l.dMs → Completes (.leaseReclaim id) s (fun t => OnlyPort s t)))

/-- GRANT fills the ranges that asked its lender; the last one of ADD_RANGE commits the block. DENY ends the command with its status. ACK moves the
time of the lease to that of the renewal sent. A renewal tick sends RENEW. At the deadline the range lapses and its hood fails; before it, nothing.
A lender silent for 10 ms ends the command. An answer that no hood asked for changes nothing. (R185, R186, R187, R189.) -/
def Obligations.BorrowerFollowsItsLeases : Prop :=
  ∀ (s : State) (pkg id handle g h i : Nat) (r : Range) (b : Block), Powered s → pkg < 4096 → h < 16 → i < 256 →
    (s.asker pkg = some h → NoService s h → (s.hood h).change.lenders.erase pkg ≠ [] → (s.hood h).change.new = some b →
      Completes (.grant pkg id ⟨handle, g⟩) s (fun t =>
        (t.hood h).change.new = some { b with ranges := fillGrant pkg id handle b.ranges } ∧
        (t.hood h).change.grants = (s.hood h).change.grants ++ [(pkg, id)] ∧ (t.hood h).change.lenders = (s.hood h).change.lenders.erase pkg ∧
        (t.hood h).block = (s.hood h).block ∧ t.regs = s.regs)) ∧
    (s.asker pkg = some h → NoService s h → (s.hood h).change.lenders = [pkg] → (s.hood h).change.new = some b → (s.hood h).change.cmd = 3 →
      Completes (.grant pkg id ⟨handle, g⟩) s (fun t =>
        (t.hood h).block = { b with ranges := fillGrant pkg id handle b.ranges } ∧ (t.hood h).change.phase = .draining ∧
        t.reg rHOOD_EPOCH h = nextEpoch (s.reg rHOOD_EPOCH h) ∧ t.mem = s.mem)) ∧
    (s.asker pkg = some h → NoService s h → (s.hood h).change.cmd < 16 → Completes (.deny pkg) s (fun t =>
      BlockStatus s t h (s.hood h).change.cmd 4 ∧ (t.hood h).block = (s.hood h).block ∧
        ((∀ c, (s.hood h).change.new = some c → ∀ q, q ∈ c.ranges → q.shared = false) → t.mem = s.mem))) ∧
    (s.asker pkg = none → Completes (.grant pkg id ⟨handle, g⟩) s (fun t => OnlyPort s t) ∧ Completes (.deny pkg) s (fun t => OnlyPort s t)) ∧
    ((s.hood h).created = true → (∀ q, q ∈ (s.hood h).block.ranges → q.target = none) → Completes (.ack pkg id) s (fun t =>
      (t.hood h).block.ranges = (s.hood h).block.ranges.map (fun q =>
        if q.borrowed && q.lender == pkg && q.leaseId == id then { q with asked := q.renews.headD q.asked, renews := q.renews.drop 1 } else q) ∧
      t.regs = s.regs ∧ t.mem = s.mem)) ∧
    ((s.hood h).created = true → (s.hood h).block.ranges[i]? = some r → r.borrowed = true → r.state ≠ 4 → r.target = none →
      Completes (.leaseRenewTick h i) s (fun t =>
        LinksAs (s.stlSend r.carrier r.lender none (.renew r.leaseId)) t ∧
        (∀ q, q ∈ (t.hood h).block.ranges → q.borrowed = true → q.lender = r.lender → q.leaseId = r.leaseId → q.sent = s.now ∧ s.now ∈ q.renews) ∧
        t.mem = s.mem)) ∧
    ((s.hood h).block.ranges[i]? = some r → r.borrowed = true → r.state ≠ 4 → r.target = none →
      (s.now < r.asked + r.leaseMs * 1000000 → Completes (.leaseDeadline h i) s (fun t => OnlyPort s t)) ∧
      (r.asked + r.leaseMs * 1000000 ≤ s.now → (s.hood h).created = true → s.works = [] → (∀ g, (s.hood g).change.phase = .stable) →
        Completes (.leaseDeadline h i) s (fun t => (t.hood h).failed = true ∧
          ∀ q, q ∈ (t.hood h).block.ranges → q.borrowed = true → q.lender = r.lender → q.leaseId = r.leaseId → q.state = 4))) ∧
    ((s.hood h).change.phase = .staged → (s.hood h).change.new = some b → (s.hood h).change.cmd < 16 → NoService s h →
      ((∃ q, q ∈ b.ranges ∧ q.borrowed = true ∧ q.state = 1 ∧ q.sent + 10000000 ≤ s.now) → Completes (.leaseAskTimeout h) s (fun t =>
        BlockStatus s t h (s.hood h).change.cmd 5 ∧ (t.hood h).block = (s.hood h).block ∧ ((∀ q, q ∈ b.ranges → q.shared = false) → t.mem = s.mem))) ∧
      ((∀ q, q ∈ b.ranges → q.target = none ∧ s.now < q.sent + 10000000) → Completes (.leaseAskTimeout h) s (fun t => OnlyPort s t)))

/-- CTX_CREATE of a free context of the hood with an object in order makes it RUNNING with the fields of its object; otherwise INVALID. CTX_DESTROY
puts it and its dismantling fence on the teardown list. SET_SHARE stores a share from 1 to 65,535. REGISTER of a well-formed pattern within the
hood's quota and the store stores it in the lowest free number; a bad or poisoned header is INVALID. UNREGISTER frees a pattern of the hood, and is
INVALID for another's. (R238, R239, R240, R257, R262, R269, R290, R294.) -/
def Obligations.ContextsAndPatterns : Prop :=
  (∀ (s u : State) (h c share : Nat) (b : List Byte), HoodOpen s h → c < 4096 →
    (s.hasCtx h c = true → (s.ctx c).state = 0 → (s.hood h).created = true → s.objectAt h 64 = (some b, u) → ctxObjectOk b = true →
      Completes (.ctxCreate h c) s (fun t =>
        (t.ctx c).state = 1 ∧ (t.ctx c).hood = h ∧ (t.ctx c).gen = (s.ctx c).gen ∧ (t.ctx c).ptroot = alignDown (fld b 0 0 64) 4096 ∧
        (t.ctx c).pasid = fld b 8 0 20 ∧ (t.ctx c).pasidv = fldB b 8 20 ∧ (t.ctx c).share = fld b 0xC 0 16 ∧ (t.ctx c).evbase = fld b 0x10 0 48 ∧
        (t.ctx c).evlog2 = fld b 0x18 0 5 ∧ (t.ctx c).defto = fld b 0x1C 0 32 ∧ (t.ctx c).vt = 0 ∧ t.reg rCTX_CMD_STATUS h = 2 ∧
        t.reg rCTX_INVALID c = 0 ∧ t.reg rCTX_CLAMP c = 0 ∧ (∀ d, d ≠ c → t.ctx d = s.ctx d) ∧ t.hoods = s.hoods ∧ t.rings = s.rings ∧ t.mem = u.mem)) ∧
    (s.hasCtx h c = false ∨ (s.ctx c).state ≠ 0 ∨ (s.hood h).created = false → Completes (.ctxCreate h c) s (fun t =>
      t.reg rCTX_CMD_STATUS h = 3 ∧ OnlyRegisters [(rCTX_CMD_STATUS, h)] s t)) ∧
    (s.objectAt h 64 = (none, u) ∨ (s.objectAt h 64 = (some b, u) ∧ ctxObjectOk b = false) → Completes (.ctxCreate h c) s (fun t =>
      t.reg rCTX_CMD_STATUS h = 3 ∧ t.ctxs = s.ctxs ∧ t.hoods = s.hoods ∧ t.rings = s.rings)) ∧
    (s.ctxOf h c = true → (s.ctx c).state ≠ 3 → s.dfenceOk h (some c) = true → (s.hood h).teardown.length < 16 →
      (∀ e, e ∈ s.rings → e.2.live = true → e.2.ctx ≠ c) → Completes (.ctxDestroy h c) s (fun t =>
        (t.ctx c).state = 3 ∧ (∀ d, d ≠ c → t.ctx d = s.ctx d) ∧ t.reg rCTX_CMD_STATUS h = 2 ∧
        (t.hood h).teardown = (s.hood h).teardown ++ [{ isCtx := true, num := c, dctx := s.reg rCTX_DFENCE_CTX h, dva := s.reg rCTX_DFENCE_VA h, dval := s.reg rCTX_DFENCE_VAL h }] ∧ t.rings = s.rings ∧ t.mem = s.mem)) ∧
    (s.ctxOf h c = true → (s.ctx c).state ≠ 3 → 0 < share → share < 65536 → Completes (.setShare h c share) s (ThenSchedules s h (fun u =>
      (u.ctx c).share = share ∧ u.reg rCTX_CMD_STATUS h = 2 ∧ u.mem = s.mem ∧ u.rings = s.rings))) ∧
    (s.ctxOf h c = true → share = 0 ∨ 65536 ≤ share → Completes (.setShare h c share) s (fun t =>
      t.reg rCTX_CMD_STATUS h = 3 ∧ OnlyRegisters [(rCTX_CMD_STATUS, h)] s t))) ∧
  (∀ (s u v : State) (h n : Nat) (hd d : List PB) (p : Pattern), HoodOpen s h → s.patBusy h = false → s.front.patWait = [] →
    s.ctxOf h (s.reg rFE_PAT_CTX h) = true →
    (s.rdVA (feEng h (s.reg rFE_PAT_CTX h)) (s.reg rFE_PAT_ADDR h) 64 = (hd, u, none) →
      (anyPsn hd = false → patHeaderOk (bytesOf hd) = true →
        u.rdVA (feEng h (s.reg rFE_PAT_CTX h)) (s.reg rFE_PAT_ADDR h) (patBytes (bytesOf hd)) = (d, v, none) → anyPsn d = false →
        parsePattern (bytesOf d) = some p → (List.range 1024).find? (fun k => !(v.pat k).live) = some n →
        ((v.pats.filter (fun e => e.2.hood == h)).map (fun e => e.2.bytes)).foldl (· + ·) p.bytes ≤ v.reg rFE_PAT_QUOTA h * 2 ^ 20 →
        (v.pats.map (fun e => e.2.bytes)).foldl (· + ·) p.bytes ≤ 2 ^ 26 → Completes (.register h) s (fun t =>
          t.pat n = { p with hood := h } ∧ (∀ k, k ≠ n → t.pat k = v.pat k) ∧ t.reg rFE_PAT_STATUS h = 2 + n * 65536)) ∧
      (anyPsn hd = true ∨ patHeaderOk (bytesOf hd) = false → Completes (.register h) s (fun t =>
        t.reg rFE_PAT_STATUS h = 3 ∧ t.pats = u.pats))) ∧
    (n < 1024 → (s.pat n).live = true → (s.pat n).hood = h → (s.pat n).dying = false → s.works = [] → Completes (.unregister h n) s (fun t =>
      (t.pat n).live = false ∧ (∀ k, k ≠ n → t.pat k = s.pat k) ∧ t.reg rFE_PAT_STATUS h = 2 + n * 65536 ∧ t.mem = s.mem)) ∧
    (n < 1024 → (s.pat n).live = false ∨ (s.pat n).hood ≠ h → Completes (.unregister h n) s (fun t =>
      t.reg rFE_PAT_STATUS h = 3 + n * 65536 ∧ OnlyRegisters [(rFE_PAT_STATUS, h)] s t)))

/-- RING_CREATE of a free ring with a record in order makes it live with the fields of its record and no entry consumed; otherwise INVALID and
nothing else. RING_DESTROY stops the ring, advances its generation and lists its dismantling fence. The release of the only teardown frees the ring,
or the context with its GEN advanced; with none listed it does nothing. (R241, R286, R287.) -/
def Obligations.RingsCreatedAndReleased : Prop :=
  ∀ (s u : State) (h r : Nat) (b : List Byte) (d : Teardown), HoodOpen s h →
    (s.hasRing h r = true → (s.ring r).live = false → (∀ t, t ∈ (s.hood h).teardown → t.isCtx = false → t.num ≠ r) → (s.hood h).created = true →
      s.objectAt h 32 = (some b, u) → ringRecordOk b r = true → s.ctxOf h (fld b 0x12 0 12) = true → (s.ctx (fld b 0x12 0 12)).state ≠ 3 →
      (s.rings.filter (fun e => e.2.live && e.2.ctx == fld b 0x12 0 12)).length < 256 → s.awakeRings.length < 512 →
      Completes (.ringCreate h r) s (fun t =>
        (t.ring r).live = true ∧ (t.ring r).hood = h ∧ (t.ring r).ctx = fld b 0x12 0 12 ∧ (t.ring r).dbase = alignDown (fld b 0 0 48) 4096 ∧
        (t.ring r).dbrec = alignDown (fld b 8 0 48) 64 ∧ (t.ring r).log2n = fld b 0x14 0 5 ∧ (t.ring r).pfd = 16 * 2 ^ fld b 0x14 5 2 ∧
        (t.ring r).ci = 0 ∧ (t.ring r).state = 0 ∧ (t.ring r).rgen = (s.ring r).rgen ∧ t.reg rCTX_CMD_STATUS h = 2 ∧
        (∀ q, q ≠ r → t.ring q = s.ring q) ∧ t.ctxs = s.ctxs ∧ t.mem = u.mem)) ∧
    (s.hasRing h r = false ∨ (s.ring r).live = true ∨ (s.hood h).created = false → Completes (.ringCreate h r) s (fun t =>
      t.reg rCTX_CMD_STATUS h = 3 ∧ OnlyRegisters [(rCTX_CMD_STATUS, h)] s t)) ∧
    (s.objectAt h 32 = (none, u) ∨ (s.objectAt h 32 = (some b, u) ∧ ringRecordOk b r = false) → Completes (.ringCreate h r) s (fun t =>
      t.reg rCTX_CMD_STATUS h = 3 ∧ t.rings = s.rings ∧ t.ctxs = s.ctxs ∧ t.hoods = s.hoods)) ∧
    (s.hasRing h r = true → (s.ring r).live = true → (s.ring r).hood = h → (s.hood h).teardown = [] → s.dfenceOk h none = true →
      s.front.wakeQ = [] → Completes (.ringDestroy h r) s (fun t =>
        (t.ring r).state = 2 ∧ (t.ring r).rgen = (s.ring r).rgen + 1 ∧ t.reg rCTX_CMD_STATUS h = 2 ∧
        (t.hood h).teardown = [{ isCtx := false, num := r, dctx := s.reg rCTX_DFENCE_CTX h, dva := s.reg rCTX_DFENCE_VA h, dval := s.reg rCTX_DFENCE_VAL h }])) ∧
    ((s.hood h).teardown = [d] → d.isCtx = false → d.num = r → s.ringsQuiet [r] = true →
      Completes (.teardownRelease h false r) s (ThenSchedules s h (fun u =>
        (u.ring r).live = false ∧ ∀ x, x ∈ (u.hood h).teardown → x.isCtx = true ∨ x.num ≠ r))) ∧
    ((s.hood h).teardown = [d] → d.isCtx = true → d.num = r → s.stl.mreqs = [] → (∀ v, v ∈ (s.hood h).invals → v.ctx ≠ r) →
      Completes (.teardownRelease h true r) s (ThenSchedules s h (fun u =>
        (u.ctx r).state = 0 ∧ (u.ctx r).gen = ((s.ctx r).gen + 1) % 65536 ∧ ∀ x, x ∈ (u.hood h).teardown → x.isCtx = false ∨ x.num ≠ r))) ∧
    ((s.hood h).teardown = [] ∨ (∃ v, v ∈ (s.hood h).invals ∧ v.ctx = r) → Completes (.teardownRelease h true r) s (fun t => OnlyPort s t)) ∧
    ((s.hood h).teardown = [] ∨ s.ringsQuiet [r] = false → Completes (.teardownRelease h false r) s (fun t => OnlyPort s t))

/-- An answer that names no outstanding fault only counts. RETRY removes the fault, lets its ring go on when it was the last, and lets its stalled
kernel run again; FAIL stops the context and its rings; MIGRATE without a level-0 entry only answers. A fault unanswered after the timeout is
reported and fails its context; one before its time stays. (R118, R120, R121, R240.) -/
def Obligations.FaultAnswersReachTheirFault : Prop :=
  ∀ (s u v : State) (h seq w r : Nat) (f : XFault) (x : Work), Ready s → h < 16 → s.hoodExists h = true → (s.hood h).failed = false →
    u = s.modHood h (fun k => { k with faults := k.faults.map (fun g => if g.seq == seq then
      { g with mig := some (s.reg rXLT_RESP_SRC h, s.reg rXLT_RESP_DST h, s.reg rXLT_RESP_PTE h) } else g) }) →
    (s.faultOf h seq = none →
      Completes (.retry h seq) s (fun t => t.reg rXLT_DROP_COUNT h = satAdd 32 (s.reg rXLT_DROP_COUNT h) 1 ∧
        OnlyRegisters [(rXLT_DROP_COUNT, h)] s t) ∧
      Completes (.fail h seq) s (fun t => t.reg rXLT_DROP_COUNT h = satAdd 32 (s.reg rXLT_DROP_COUNT h) 1 ∧
        OnlyRegisters [(rXLT_DROP_COUNT, h)] s t) ∧
      Completes (.migrate h seq) s (fun t => t.reg rXLT_DROP_COUNT h = satAdd 32 (s.reg rXLT_DROP_COUNT h) 1 ∧
        OnlyRegisters [(rXLT_DROP_COUNT, h)] s t)) ∧
    (s.faultOf h seq = some f → s.works = [] → f.atom = none → (∀ e, e ∈ s.rings → e.2.dbDue = false) →
      Completes (.retry h seq) s (fun t =>
        (t.hood h).faults = (s.hood h).faults.filter (fun g => g.seq != seq) ∧ t.mem = s.mem ∧ t.regs = s.regs ∧
        (f.ring = some r → (∀ g, g ∈ (s.hood h).faults → g.seq ≠ seq → g.ring ≠ some r) → (t.ring r).xstop = false)) ∧
      ((s.ctx f.ctx).state = 1 → Completes (.fail h seq) s (fun t =>
        (t.ctx f.ctx).state = 2 ∧ ∀ q, (s.ring q).live = true → (s.ring q).ctx = f.ctx → 2 ≤ (t.ring q).state)) ∧
      (entryAt ((migEng h f.ctx).acc u 0) (u.hood h).block f.va u 3 (u.ctx f.ctx).ptroot = (none, v) → (s.hood h).invals = [] →
        Completes (.migrate h seq) s (fun t =>
          (t.hood h).faults = (s.hood h).faults.filter (fun g => g.seq != seq) ∧ t.mem = v.mem ∧ t.regs = v.regs))) ∧
    (s.faultOf h seq = some f → s.works = [(w, x)] → f.work = some w → f.switch = false → f.due = none → f.atom = none →
      (∀ e, e ∈ s.rings → e.2.dbDue = false) → x.phase = .stalled → x.ran = false → x.hood = h →
      (∀ g, g ∈ (s.hood h).faults → g.seq = seq) → Completes (.retry h seq) s (ThenSchedules s h (fun u =>
        u.works = [(w, { x with phase := .started })] ∧ u.mem = s.mem))) ∧
    (s.faultOf h seq = some f → f.written = true → seq < 2 ^ 32 →
      (f.wtime + s.reg rXLT_FQ_TIMEOUT h * 1000 ≤ s.now → s.works = [] → (s.ctx f.ctx).state = 1 → Completes (.faultTimeout h seq) s (fun t =>
        t.reg rXLT_TO_SEQ (h + 1) = seq ∧ t.reg rXLT_CAUSE (h + 1) / 2 % 2 = 1 ∧ (t.ctx f.ctx).state = 2)) ∧
      (s.now < f.wtime + s.reg rXLT_FQ_TIMEOUT h * 1000 → Completes (.faultTimeout h seq) s (fun t => OnlyPort s t)))

/-- MIGRATE of a fault whose source pages are readable and whose destination lies in the block copies 64 KiB of host memory there and writes the
level-0 entry, and the fault is answered; memory otherwise as the hood's writes leave it. The oldest unwritten fault is written to the queue's
producer slot where the queue has room and the function may master the bus, and the producer index and cause advance; otherwise nothing happens.
(R116, R117, R122.) -/
def Obligations.MigrateAndFaultQueue : Prop :=
  (∀ (s u v z : State) (h seq ea src dst pte : Nat) (f : XFault) (data : List Byte), Ready s → h < 16 → s.hoodExists h = true →
    (s.hood h).failed = false → s.works = [] → (∀ e, e ∈ s.rings → e.2.dbDue = false) → s.faultOf h seq = some f → f.atom = none →
    src = s.reg rXLT_RESP_SRC h → dst = s.reg rXLT_RESP_DST h → pte = s.reg rXLT_RESP_PTE h →
    u = s.modHood h (fun k => { k with faults := k.faults.map (fun g => if g.seq == seq then { g with mig := some (src, dst, pte) } else g) }) →
    entryAt ((migEng h f.ctx).acc u 0) (u.hood h).block f.va u 3 (u.ctx f.ctx).ptroot = (some ea, v) → (s.fn (h + 1)).ats = true →
    (s.fn 0).pasid = true → (s.ctx f.ctx).pasidv = true → s.portOpen h = true → (s.hood h).block.holds dst 65536 = true →
    (∀ p, src / 4096 ≤ p → p ≤ (src + 65535) / 4096 → ∃ a, s.atsHit h f.ctx (s.ctx f.ctx).pasid p = some a ∧ a.r = true) →
    data = (List.range 65536).map (fun i => (s.hostRd (((s.atsHit h f.ctx (s.ctx f.ctx).pasid ((src + i) / 4096)).map
      (fun a => a.hostOf ((src + i) / 4096))).getD 0 * 4096 + (src + i) % 4096) 1).headD 0) →
    z = v.wrHood ((migEng h f.ctx).acc v (bits pte 6 2)) dst (clean data) →
    Completes (.migrate h seq) s (fun t =>
      t.mem = (z.wrHood ((migEng h f.ctx).acc z 0) ea (clean (leBytes 8 pte))).mem ∧ ∀ g, g ∈ (t.hood h).faults → g.seq ≠ seq)) ∧
  (∀ (s : State) (h : Nat) (f : XFault), Powered s → h < 16 → s.hoodExists h = true →
    (s.hood h).faults.find? (fun g => !g.written) = some f →
    (s.portOpen h = true → f.due = none → (s.reg rXLT_FQ_PI h + 2 ^ 32 - s.reg rXLT_FQ_CI h) % 2 ^ 32 < 2 ^ s.reg rXLT_FQ_CFG h →
      Completes (.faultRecordWrite h) s (fun t =>
        t.hostMem = (s.hostWr (s.reg rXLT_FQ_BASE h + 64 * (s.reg rXLT_FQ_PI h % 2 ^ s.reg rXLT_FQ_CFG h)) (f.record h)).hostMem ∧
        t.reg rXLT_FQ_PI h = (s.reg rXLT_FQ_PI h + 1) % 2 ^ 32 ∧ t.reg rXLT_CAUSE (h + 1) % 2 = 1 ∧
        (t.hood h).faults = (s.hood h).faults.map (fun g => if g.seq == f.seq then { g with written := true, wtime := s.now } else g) ∧
        OnlyRegisters [(rXLT_FQ_PI, h), (rXLT_CAUSE, h + 1)] { s with hoods := t.hoods, hostMem := t.hostMem } t)) ∧
    (s.portOpen h = false ∨ 2 ^ s.reg rXLT_FQ_CFG h ≤ (s.reg rXLT_FQ_PI h + 2 ^ 32 - s.reg rXLT_FQ_CI h) % 2 ^ 32 →
      Completes (.faultRecordWrite h) s (fun t => OnlyPort s t)))

/-- An invalidation drops every TLB entry of its context that its range, rounded outward to 64 KiB, overlaps, and queues its fence; beyond 64 it is
counted. Its fence is signalled when nothing is left before it. A walk-cache entry of its context on that range is dropped too, and the fence waits
for the requests to lenders and the transactions that were under way. A translation completion caches the page, of whatever size it is, for each
context of its PASID and ends its request, and one without rights joins the page requests; a page request is sent while fewer than 1,024 are
outstanding and page requests are enabled; a response ends it and drops the page, and a failing one denies it to those that wait; an invalidate
request drops exactly the entries that it meets and is answered. (R113, R114, R125, R126, R127.) -/
def Obligations.InvalidationsAndHostTranslations : Prop :=
  (∀ (s : State) (h c : Nat) (v : Inval) (l : List Inval), Ready s → h < 16 → s.hoodExists h = true → (s.hood h).failed = false →
    ((s.hood h).invals.length < 64 → s.ctxOf h c = true → (∀ f, f ∈ (s.hood h).faults → f.ctx = c → f.mig = none) →
      Completes (.invalidationRequest h c) s (fun t =>
        (∀ e, e ∈ t.xlt.tlbs → ¬ (e.hood = h ∧ e.ctx = c ∧ overlaps e.page e.size (alignDown (s.reg rXLT_INV_VA h) 65536)
          (alignUp (s.reg rXLT_INV_VA h + s.reg rXLT_INV_LEN h) 65536 - alignDown (s.reg rXLT_INV_VA h) 65536) = true)) ∧
        (∀ e, e ∈ t.xlt.walks → ¬ (e.hood = h ∧ e.ctx = c ∧ overlaps e.page (2 ^ lvlShift e.level) (alignDown (s.reg rXLT_INV_VA h) 65536)
          (alignUp (s.reg rXLT_INV_VA h + s.reg rXLT_INV_LEN h) 65536 - alignDown (s.reg rXLT_INV_VA h) 65536) = true)) ∧
        (t.hood h).invals = (s.hood h).invals ++ [{
          ctx := c, va := s.reg rXLT_INV_VA h, len := s.reg rXLT_INV_LEN h, fva := s.reg rXLT_INV_FENCE h, val := s.reg rXLT_INV_FVAL h
          far := (s.stl.mreqs.filter (fun m => m.who.hood == h)).map (fun m => (m.die, m.dst, m.tag)), reqs := s.openReqs h }] ∧
        t.mem = s.mem ∧ t.regs = s.regs)) ∧
    (64 ≤ (s.hood h).invals.length ∨ s.ctxOf h c = false → Completes (.invalidationRequest h c) s (fun t =>
      t.reg rXLT_DROP_COUNT h = satAdd 32 (s.reg rXLT_DROP_COUNT h) 1 ∧ OnlyRegisters [(rXLT_DROP_COUNT, h)] s t)) ∧
    ((s.hood h).invals = v :: l → v.after = [] → s.flown h v = true → Completes (.invalidationFence h) s (fun t =>
      (t.hood h).invals = l ∧ t.front = ((s.modHood h (fun k => { k with invals := l })).signalAt h v.ctx v.fva v.val).front ∧
      t.mem = ((s.modHood h (fun k => { k with invals := l })).signalAt h v.ctx v.fva v.val).mem)) ∧
    ((s.hood h).invals = v :: l → v.after ≠ [] ∨ s.flown h v = false → Completes (.invalidationFence h) s (fun t => OnlyPort s t)) ∧
    ((s.hood h).invals = [] → Completes (.invalidationFence h) s (fun t => OnlyPort s t))) ∧
  (∀ (s : State) (h pasid page pages host code : Nat) (r w : Bool), Powered s → h < 16 → s.works = [] → s.front.patWait = [] →
    (∀ f, f ∈ (s.hood h).faults → f.mig = none) → (∀ e, e ∈ s.rings → e.2.dbDue = false) → (∀ e, e ∈ s.ctxs → e.2.evheld = []) →
    ((h, pasid, page) ∈ s.xlt.atsReq → atsSizeOk pages = true → s.xlt.ats.length + s.ctxs.length ≤ 4096 →
      Completes (.atsTranslationCompletion h pasid ⟨page, pages⟩ host r w) s (fun t =>
        (∀ e, e ∈ s.ctxs → e.2.hood = h → e.2.state ≠ 0 → e.2.pasidv = true → e.2.pasid = pasid → ({
          hood := h, pasid := pasid, ctx := e.1, gen := (s.hood h).gen, page := alignDown page pages, pages := pages, host := alignDown host pages
          r := r, w := w } : Ats) ∈ t.xlt.ats) ∧ (h, pasid, page) ∉ t.xlt.atsReq ∧
        (r = false → w = false → t.xlt.priWait = s.xlt.priWait ++ [(h, pasid, page)]) ∧ t.xlt.tlbs = s.xlt.tlbs ∧ t.regs = s.regs ∧ t.mem = s.mem)) ∧
    ((h, pasid, page) ∉ s.xlt.atsReq → atsSizeOk pages = true →
      Completes (.atsTranslationCompletion h pasid ⟨page, pages⟩ host r w) s (fun t => OnlyPort s t)) ∧
    ((h, pasid, page) ∈ s.xlt.priWait → s.xlt.pri.length < 1024 → s.portOpen h = true → (s.fn 0).pri = true →
      Completes (.priPageRequest h pasid page) s (fun t =>
        Answers s t (.priReq h pasid page) ∧ t.xlt.pri = s.xlt.pri ++ [(h, pasid, page)] ∧ (h, pasid, page) ∉ t.xlt.priWait ∧ t.regs = s.regs)) ∧
    ((h, pasid, page) ∉ s.xlt.priWait ∨ 1024 ≤ s.xlt.pri.length ∨ s.portOpen h = false ∨ (s.fn 0).pri = false →
      Completes (.priPageRequest h pasid page) s (fun t => OnlyPort s t)) ∧
    ((h, pasid, page) ∈ s.xlt.pri → Completes (.priResponse h pasid page code) s (fun t =>
      (h, pasid, page) ∉ t.xlt.pri ∧ (∀ a, a ∈ t.xlt.ats → ¬ (a.hood = h ∧ a.pasid = pasid ∧ a.page ≤ page ∧ page < a.page + a.pages)) ∧
      t.xlt.denied = (if code = 0 then s.xlt.denied else s.xlt.denied ++ s.waitersOf h pasid (fun p => p == page)) ∧ t.regs = s.regs ∧ t.mem = s.mem)) ∧
    Completes (.atsInvalidateRequest h pasid page pages) s (fun t =>
      Answers s t (.atsInvDone h pasid page pages) ∧ t.regs = s.regs ∧ t.mem = s.mem ∧
      (∀ a, a ∈ t.xlt.ats ↔ a ∈ s.xlt.ats ∧ ¬ (a.hood = h ∧ a.pasid = pasid ∧ overlaps a.page a.pages page pages = true))))

/-- REPAIR_SITE of an isolated active site of no hood retires it in the flash; with a good spare the spare serves in its place; where it is taken,
or its test fails, which is kept, the result is RETIRED. A site that is not active gives its own result, and an index of a channel above 255 is
invalid. RETIRE_CHANNEL records the channel and leaves the running package as it is. (R143, R385, R386.) -/
def Obligations.RepairRetiresSitesAndChannels : Prop :=
  ∀ (s : State) (f c : Nat) (ok : Bool), Ready s → s.reg rTOP_MAINT_STATUS 0 % 8 ≠ 1 →
    (f < 1664 → s.siteActive f = true → s.hoodsOfSite f = [] → (s.site f).isol = true → (s.plank (plankOf f)).spare = false →
      (s.plank (plankOf f)).spareBad = false → Completes (.repairSite f true) s (fun t =>
        t.reg rTOP_MAINT_STATUS 0 = 2 ∧ (t.site f).retired = true ∧ (t.plank (plankOf f)).spare = true ∧
        (t.site (13 * plankOf f + 12)).isol = false ∧ t.hat.flash.retiredSites = s.hat.flash.retiredSites ++ [f] ∧
        t.hat.flash.spares = s.hat.flash.spares ++ [plankOf f] ∧ t.reg rTOP_ACTIVE_TILES 0 = t.activeTiles ∧ t.hoods = s.hoods)) ∧
    (f < 1664 → s.siteActive f = true → s.hoodsOfSite f = [] → (s.site f).isol = true → (s.plank (plankOf f)).spare = true →
      Completes (.repairSite f ok) s (fun t =>
        t.reg rTOP_MAINT_STATUS 0 = 5 ∧ (t.site f).retired = true ∧ t.hat.flash.retiredSites = s.hat.flash.retiredSites ++ [f] ∧
        t.hat.flash.spares = s.hat.flash.spares ∧ t.hoods = s.hoods)) ∧
    (f < 1664 → s.siteActive f = true → s.hoodsOfSite f = [] → (s.site f).isol = true → (s.plank (plankOf f)).spare = false →
      Completes (.repairSite f false) s (fun t =>
        t.reg rTOP_MAINT_STATUS 0 = 5 ∧ (t.site f).retired = true ∧ (t.plank (plankOf f)).spareBad = true ∧
        t.hat.flash.retiredSites = s.hat.flash.retiredSites ++ [f] ∧ t.hat.flash.spares = s.hat.flash.spares ∧ t.hoods = s.hoods)) ∧
    (f < 1664 → s.siteActive f = false → Completes (.repairSite f ok) s (fun t =>
      t.reg rTOP_MAINT_STATUS 0 = 4 ∧ OnlyRegisters [(rTOP_MAINT_STATUS, 0)] s t)) ∧
    (c < 256 → Completes (.retireChannel c) s (fun t =>
      t.reg rTOP_MAINT_STATUS 0 = 2 ∧ c ∈ t.hat.flash.retiredChans ∧ (∀ d, d ∈ s.hat.flash.retiredChans → d ∈ t.hat.flash.retiredChans) ∧
      t.chans = s.chans ∧ t.hoods = s.hoods)) ∧
    (256 ≤ c → Completes (.retireChannel c) s (fun t => t.reg rTOP_MAINT_STATUS 0 = 3 ∧ OnlyRegisters [(rTOP_MAINT_STATUS, 0)] s t))

/-- APPLY sets the SVN of the classes selected to those of the staged images and leaves the others and the block; a class without a fit image, or a
hood not created, refuses it. FREEZE of an idle hood with room for its image leaves it FROZEN and held, with its image and a key; a peer that does
not attest fails it. THAW releases the hood. RESTORE of a good image leaves the hood held with the image's GEN and the source's identity, and uses
the key up; without a key, in the wrong sequence or with a used key it fails; and while the PF may not master the bus it waits with its image. A
command in the wrong state changes only the status. (R387, R388, R389, R390.) -/
def Obligations.LiveUpdateAndMigration : Prop :=
  (∀ (s : State) (h classes : Nat), Ready s → s.selHood 0 = h → h < 16 → s.hoodExists h = true → NoService s h → s.hat.repair = none →
    ((s.hood h).created = true → (s.hood h).failed = false → (s.hood h).frozen = false → (s.hood h).change.phase = .stable → s.works = [] →
      classes % 8 ≠ 0 →
      (∀ i, i < 3 → classes.testBit i = true → ∃ im, s.hat.staged.find (i + 1) = some im ∧ s.reg rSEC_UPD_STATUS (i + 1) % 8 = 3 ∧
        s.hat.flash.svn.getD (i + 1) 0 ≤ im.svn) → Completes (.apply classes) s (fun t =>
      t.reg rHOOD_UCODE_STATUS h = 3 ∧ (t.hood h).ucNext = [] ∧
      (∀ i im, i < 3 → classes.testBit i = true → s.hat.staged.find (i + 1) = some im → (t.hood h).ucode.getD i 0 = im.svn) ∧
      (∀ i, i < 3 → classes.testBit i = false → (t.hood h).ucode.getD i 0 = (s.hood h).ucode.getD i 0) ∧ (t.hood h).block = (s.hood h).block ∧
      t.mem = s.mem)) ∧
    ((∃ i, i < 3 ∧ classes.testBit i = true ∧ s.hat.staged.find (i + 1) = none) → Completes (.apply classes) s (fun t =>
      t.reg rHOOD_UCODE_STATUS h = 4 ∧ OnlyRegisters [(rHOOD_UCODE_STATUS, h)] s t)) ∧
    ((s.hood h).created = false → Completes (.apply classes) s (fun t =>
      t.reg rHOOD_UCODE_STATUS h = 4 ∧ OnlyRegisters [(rHOOD_UCODE_STATUS, h)] s t))) ∧
  (∀ (s u : State) (h : Nat) (peer : Bool) (img : MigImage), Ready s → s.selHood 0 = h → h < 16 → s.hoodExists h = true → NoService s h →
    s.migBusy h = false →
    ((s.hood h).created = true → (s.hood h).failed = false → (s.hood h).frozen = false → (∀ r, r ∈ (s.hood h).block.ranges → r.borrowed = false) →
      (∀ e, e ∈ s.rots → e.2.hood ≠ h + 1) → s.imageSize h ≤ s.reg rHOOD_MIG_LEN h → (s.hood h).change.phase = .stable →
      (s.works = [] → (s.fn 0).bme = true → Completes (.freeze true) s (fun t =>
        t.reg rHOOD_MIG_STATUS h = 4 ∧ (t.hood h).frozen = true ∧ (t.hood h).held = true ∧ (t.hood h).image ≠ none ∧
        t.hat.migKeys.find h = some (s.reg rHOOD_MIG_PEER h + 1) ∧ (t.hood h).block = (s.hood h).block)) ∧
      Completes (.freeze false) s (fun t => t.reg rHOOD_MIG_STATUS h = 9 ∧ (t.hood h).frozen = false ∧ t.hat = s.hat ∧ t.mem = s.mem)) ∧
    ((s.hood h).created = false → Completes (.freeze peer) s (fun t =>
      t.reg rHOOD_MIG_STATUS h = 7 ∧ OnlyRegisters [(rHOOD_MIG_STATUS, h)] s t)) ∧
    ((s.hood h).frozen = true → s.reg rHOOD_PREEMPT h % 2 = 0 → Completes .thaw s (ThenSchedules s h (fun v =>
      v.reg rHOOD_MIG_STATUS h = 0 ∧ (v.hood h).frozen = false ∧ (v.hood h).held = false ∧ v.hat.migKeys.find h = none ∧ v.mem = s.mem))) ∧
    ((s.hood h).frozen = false → Completes .thaw s (fun t => OnlyPort s t)) ∧
    ((s.hood h).created = true → (s.hood h).failed = false → (s.hood h).frozen = false → (s.hood h).sealed = false → (s.hood h).block.ranges = [] →
      s.hoodCtxs h = [] → (∀ e, e ∈ s.pats → e.2.live = true → e.2.hood ≠ h) →
      ((s.fn 0).bme = true →
        (((s.setReg rHOOD_MIG_STATUS h 5).modHood h (fun k => { k with restore := some img })).modHood h (fun k => { k with restore := none })).restoreTo
          h img = (6, u) → Completes (.restore img) s (fun t =>
            t.reg rHOOD_MIG_STATUS h = 6 ∧ (t.hood h).gen = img.gen ∧ (t.hood h).held = true ∧ (t.hood h).migAlias = some img.srcPkg ∧
            img.key ∈ t.hat.migUsed ∧ t.hoods = u.hoods ∧ t.mem = u.mem ∧ t.ctxs = u.ctxs ∧ t.rings = u.rings ∧ t.works = u.works)) ∧
      ((s.fn 0).bme = true → img.keyOk = false ∨ img.seqOk = false ∨ img.key ∈ s.hat.migUsed → Completes (.restore img) s (fun t =>
        t.reg rHOOD_MIG_STATUS h = 9 ∧ (∀ g, t.hood g = s.hood g) ∧ t.mem = s.mem ∧ t.chans = s.chans)) ∧
      ((s.fn 0).bme = false → Completes (.restore img) s (fun t =>
        t.reg rHOOD_MIG_STATUS h = 5 ∧ (t.hood h).restore = some img ∧ (∀ g, g ≠ h → t.hood g = s.hood g) ∧ t.mem = s.mem ∧ t.chans = s.chans))) ∧
    ((s.hood h).sealed = true → Completes (.restore img) s (fun t =>
      t.reg rHOOD_MIG_STATUS h = 7 ∧ OnlyRegisters [(rHOOD_MIG_STATUS, h)] s t)))

/-- For a ring that may be fetched from: a poll takes the producer index from the doorbell record; a fetch of one descriptor reads it from the ring
at the consumer index, advances that index by one, and queues a work with that descriptor, its argument records and its elements, of which the
scheduler then decides; a fetch that meets a translation fault stops the ring and takes nothing; a poll clamps an index beyond the ring and counts
it; an idle ring sleeps after its idle time and not before; and a ring awake for 100 µs gives way where another waits, keeping its consumer index.
(R242, R243, R246.) -/
def Obligations.RingServiceSteps : Prop :=
  ∀ (s u v : State) (r : Nat) (d : List PB) (a : List Byte) (l : List (List Byte × List Byte)) (f : Stop), Powered s → r < 8192 →
    (s.fetchable r = false → Completes (.doorbellPoll r) s (fun t => OnlyPort s t) ∧ Completes (.descriptorFetch r) s (fun t => OnlyPort s t) ∧
      Completes (.ringSleep r) s (fun t => OnlyPort s t) ∧ Completes (.ringRotate r) s (fun t => OnlyPort s t)) ∧
    (s.fetchable r = true →
      (s.waiting r = 0 → s.rdVA (feEng (s.ring r).hood (s.ring r).ctx) (s.ring r).dbrec 4 = (d, u, none) → u.rings = s.rings →
        Completes (.doorbellPoll r) s (fun t =>
          ((leNat (bytesOf d) + 2 ^ 32 - (s.ring r).ci) % 2 ^ 32 ≤ 2 ^ (s.ring r).log2n → (t.ring r).pi = leNat (bytesOf d)) ∧
          (2 ^ (s.ring r).log2n < (leNat (bytesOf d) + 2 ^ 32 - (s.ring r).ci) % 2 ^ 32 →
            (t.ring r).pi = ((s.ring r).ci + 2 ^ (s.ring r).log2n) % 2 ^ 32 ∧ t.reg rCTX_CLAMP_ROW (s.ring r).ctx = 2) ∧
          (t.ring r).ci = (s.ring r).ci ∧ (t.ring r).state = 0 ∧ (∀ q, q ≠ r → t.ring q = s.ring q) ∧ t.mem = u.mem ∧ t.works = u.works)) ∧
      (s.waiting r ≠ 0 → Completes (.doorbellPoll r) s (fun t => OnlyPort s t)) ∧
      (min (min 16 ((s.ring r).pfd - (s.ring r).queue.length)) (s.waiting r) = 0 → Completes (.descriptorFetch r) s (fun t => OnlyPort s t)) ∧
      (min (min 16 ((s.ring r).pfd - (s.ring r).queue.length)) (s.waiting r) = 1 →
        s.rdVA (feEng (s.ring r).hood (s.ring r).ctx) ((s.ring r).dbase + 64 * ((s.ring r).ci % 2 ^ (s.ring r).log2n)) 64 = (d, u, none) →
        u.readInputs (feEng (s.ring r).hood (s.ring r).ctx) (bytesOf d) = (a, l, v, none) → v.rings = s.rings →
        Completes (.descriptorFetch r) s (ThenSchedules s (s.ring r).hood (fun y =>
          (y.ring r).ci = ((s.ring r).ci + 1) % 2 ^ 32 ∧ (y.ring r).queue = (s.ring r).queue ++ [v.front.nextW] ∧
          ∃ x, y.work? v.front.nextW = some x ∧ x.desc = bytesOf d ∧ x.args = a ∧ x.elems = l ∧ x.ring = r ∧ x.ctx = (s.ring r).ctx ∧
            x.hood = (s.ring r).hood ∧ x.phase = .queued ∧ x.parent = none))) ∧
      (min (min 16 ((s.ring r).pfd - (s.ring r).queue.length)) (s.waiting r) ≠ 0 →
        s.rdVA (feEng (s.ring r).hood (s.ring r).ctx) ((s.ring r).dbase + 64 * ((s.ring r).ci % 2 ^ (s.ring r).log2n)) 64 = (d, u, some f) →
        (∃ ty ac lv en va rm, f = .fault ty ac lv en va rm) → u.rings = s.rings →
        Completes (.descriptorFetch r) s (ThenSchedules s (s.ring r).hood (fun y =>
          (y.ring r).xstop = true ∧ (y.ring r).ci = (s.ring r).ci ∧ (y.ring r).queue = (s.ring r).queue ∧ y.works = u.works))) ∧
      (s.waiting r = 0 → (s.ring r).idle + s.reg rFE_SLEEP_IDLE (s.ring r).hood * 1000 ≤ s.now → s.front.wakeQ = [] →
        Completes (.ringSleep r) s (fun t =>
          (t.ring r).wgen = ((s.ring r).wgen + 1) % 2 ^ 32 ∧ ((t.ring r).pi = (t.ring r).ci → (t.ring r).state = 1) ∧
          t.rings = (s.sleepRing r).rings)) ∧
      (s.waiting r ≠ 0 ∨ s.now < (s.ring r).idle + s.reg rFE_SLEEP_IDLE (s.ring r).hood * 1000 →
        Completes (.ringSleep r) s (fun t => OnlyPort s t)) ∧
      (s.waiting r ≠ 0 → s.front.wakeQ ≠ [] → (s.ring r).awake + 100000 ≤ s.now → Completes (.ringRotate r) s (fun t =>
        (t.ring r).wgen = ((s.ring r).wgen + 1) % 2 ^ 32 ∧ (t.ring r).ci = (s.ring r).ci)) ∧
      (s.waiting r = 0 ∨ s.front.wakeQ = [] ∨ s.now < (s.ring r).awake + 100000 → Completes (.ringRotate r) s (fun t => OnlyPort s t)))

/-- A command of a dispatch made under another epoch than the current one may be refused and counted for each of its tiles (log entry 93). NOP
completes, one that is not in order completes INVALID and is counted, and a completion record is written where the descriptor names one. BAR waits
at its unit, or is INVALID at a unit that is not the hood's; an arrival with another GEN does nothing, one from a foreign tile is counted, one that
is not the last is kept, and the last releases every BAR that waits there. The completion of what has run ends it and frees its engine, once
everything written to lenders is acknowledged; an OP without an argument record completes INVALID; and a command for no work does nothing. (R138,
R141, R173, R247, R249, R250, R251.) -/
def Obligations.CompletionsAndBarriers : Prop :=
  (∀ (s v : State) (w n : Nat) (x y : Work), Powered s → s.begun w (fun k => k == 0 || decide (8 ≤ k)) = some x → x.parent = none →
    (dCpl x.desc = 0 → descOk x.desc = true → Completes (.nop w) s (ThenSchedules s x.hood (fun u =>
      Ended s w x u ∧ u.mem = s.mem ∧ u.hostMem = s.hostMem ∧ u.tiles = s.tiles ∧ u.regs = s.regs))) ∧
    (dCpl x.desc = 0 → descOk x.desc = false → Completes (.nop w) s (EndedInvalid s w x)) ∧
    (dCpl x.desc ≠ 0 → y = { x with status := if descOk x.desc then 0 else 1, ran := true, phase := .finished } →
      ((if descOk x.desc then s else s.countReg rCTX_INVALID x.ctx 1).modWork w (fun _ => y)).wrVA ((feEng x.hood x.ctx).of w) (dCpl x.desc)
        (clean (y.record s.now)) = (n, v, none) →
      Completes (.nop w) s (ThenSchedules s x.hood (fun u => Ended s w x u ∧ u.mem = v.mem ∧ u.hostMem = v.hostMem ∧ u.tiles = s.tiles)))) ∧
  (∀ (s z : State) (w n i : Nat) (x : Work), Powered s →
    (∀ p, p ∈ kernelRows w → s.kernel w p.1 = some x → p.2.1 x.args = true → x.taken = false → x.epoch ≠ s.reg rHOOD_EPOCH x.hood →
      Completes p.2.2 s (fun t => Config.choice s.draw.1 % 2 = 0 ∨
        ((∃ y, t.work? w = some y ∧ y.phase = .finished ∧ y.ran = true ∧ y.doneT = List.range x.cnt) ∧ t.tiles = s.tiles ∧ t.mem = s.mem ∧
        t.reg rHOOD_REJECT_COUNT x.hood = satAdd 32 (s.reg rHOOD_REJECT_COUNT x.hood) x.cnt))) ∧
    (z = s.arrive w 10 (fun _ => true) → z.kernel w 10 = some x → x.recordsOk = true → n = 64 * x.hood + fld x.args 0 0 6 → (s.bar n).owner = x.hood + 1 →
      x.prog.find 4097 = none → 0 < x.cnt → Completes (.bar w) s (fun t =>
        (∃ q, t.waits = s.waits ++ [q] ∧ q.work = w ∧ q.kind = 2 ∧ q.start = s.now ∧ q.timeout = (s.ctx x.ctx).defto) ∧
        (∃ y, t.work? w = some y ∧ y.phase = .waiting ∧ y.ran = false) ∧ t.tiles = s.tiles ∧ t.mem = s.mem ∧ t.bars = s.bars)) ∧
    (z = s.arrive w 10 (fun _ => true) → z.kernel w 10 = some x → Unrecorded x →
      (x.recordsOk = false ∨ (s.bar (64 * x.hood + fld x.args 0 0 6)).owner ≠ x.hood + 1) → Completes (.bar w) s (EndedInvalid z w x)) ∧
    (z = s.arrive w 10 (fun _ => true) → z.kernel w 10 = some x → x.recordsOk = true → (s.bar (64 * x.hood + fld x.args 0 0 6)).owner = x.hood + 1 →
      x.prog.find 4097 = none → x.cnt = 0 → x.doneT = [] → Completes (.bar w) s (fun t =>
        (∃ y, t.work? w = some y ∧ y.phase = .finished ∧ y.ran = true) ∧ t.tiles = s.tiles ∧ t.mem = s.mem ∧ t.bars = s.bars)) ∧
    (n < 1024 → i < 1664 → (s.bar n).owner ≠ n / 64 + 1 → ∀ g, Completes (.barrierArrival n i g) s (fun t => OnlyPort s t)) ∧
    (n < 1024 → i < 1664 → (s.bar n).owner = n / 64 + 1 →
      (∀ g, g ≠ (s.hood (n / 64)).gen → Completes (.barrierArrival n i g) s (fun t => OnlyPort s t)) ∧
      ((s.tmap (n / 64)).contains i = false → Completes (.barrierArrival n i (s.hood (n / 64)).gen) s (fun t =>
        t.reg rHOOD_REJECT_COUNT (n / 64) = satAdd 32 (s.reg rHOOD_REJECT_COUNT (n / 64)) 1 ∧
        OnlyRegisters [(rHOOD_REJECT_COUNT, n / 64)] s t)) ∧
      (∀ lt, (s.tmap (n / 64)).contains i = true → lt = (s.tmap (n / 64)).idxOf i → lt ∈ s.barMembers n → lt ∉ (s.bar n).arrived →
        ((∃ m, m ∈ s.barMembers n ∧ m ≠ lt ∧ m ∉ (s.bar n).arrived) → Completes (.barrierArrival n i (s.hood (n / 64)).gen) s (fun t =>
          lt ∈ (t.bar n).arrived ∧ t.works = s.works ∧ t.waits = s.waits ∧ t.mem = s.mem ∧ t.tiles = s.tiles ∧
          ∀ m, m ≠ n → t.bar m = s.bar m)) ∧
        ((∀ m, m ∈ s.barMembers n → m = lt ∨ m ∈ (s.bar n).arrived) → Completes (.barrierArrival n i (s.hood (n / 64)).gen) s (fun t =>
          (t.bar n).arrived = [] ∧ (t.bar n).fulling = 0 ∧
          ∀ v y, s.work? v = some y → y.kind = 1 → y.op = 10 → y.ran = false → (y.prog.find 4097).isSome = true →
            64 * y.hood + fld y.args 0 0 6 = n → y.phase = .waiting → ∃ z, t.work? v = some z ∧ z.phase = .finished ∧ z.ran = true)))) ∧
    (s.work? w = some x → s.current x = true → x.phase = .finished → Unrecorded x → s.allAcked w = true →
      (x.kind = 1 → Completes (.kernelComplete w) s (ThenSchedules s x.hood (fun u => Ended s w x u ∧ u.mem = s.mem ∧ u.tiles = s.tiles))) ∧
      (∀ c, x.kind = 6 → x.engine = some c → Completes (.copyComplete w) s (ThenSchedules s x.hood (fun u =>
        Ended s w x u ∧ u.front.engines.find c = none ∧ u.mem = s.mem ∧ u.tiles = s.tiles)))) ∧
    (s.work? w = some x → s.current x = true → x.phase = .started → x.ran = false → x.kind = 1 →
      (argBytes x.op = 0 ∨ (x.op = 7 ∧ vopListed (fld x.args 0 0 8) = false)) → Unrecorded x →
      Completes (.kernelComplete w) s (EndedInvalid s w x)) ∧
    (s.work? w = none → Completes (.kernelComplete w) s (fun t => OnlyPort s t) ∧ Completes (.copyComplete w) s (fun t => OnlyPort s t)) ∧
    (s.work? w = some x → x.phase = .finished → s.allAcked w = false →
      Completes (.kernelComplete w) s (fun t => OnlyPort s t) ∧ Completes (.copyComplete w) s (fun t => OnlyPort s t)))

/-- A CHAIN starts its next element as a child work, and does nothing more where it has none left or one runs. A launch of a pattern of the hood
runs with the values of its slots, marked when its values were clamped; of an unknown pattern it completes INVALID and is counted. A PATCH waits for
the launches before it, then stores its values in the resident slots that the pattern uses and completes, counted as invalid where it names one that
the pattern does not use. A descriptor with reserved bits set completes INVALID, and none of the three runs inside a chain or pattern. (R249, R255,
R257, R260, R261.) -/
def Obligations.ChainsLaunchesAndPatches : Prop :=
  (∀ (s : State) (w k : Nat) (x : Work) (e : List Byte × List Byte), Powered s → s.begun w (fun k => k == 7) = some x →
    (x.parent = none → descOk x.desc = true → x.elems[k]? = some e → x.doneN.length = k → x.runN = [] → statusRank x.status < 2 →
      s.work? s.front.nextW = none → Completes (.chain w) s (ThenSchedules s x.hood (fun u =>
        (∃ y, u.work? s.front.nextW = some y ∧ y.desc = e.1 ∧ y.args = e.2 ∧ y.parent = some w ∧ y.idx = k ∧
          y.phase = if dKind e.1 = 6 ∧ y.engine = none then .queued else .started) ∧
        (∃ y, u.work? w = some y ∧ y.ran = true ∧ y.runN = [k] ∧ y.doneN = x.doneN ∧ y.phase = .started) ∧ u.mem = s.mem ∧ u.tiles = s.tiles))) ∧
    (x.parent = none → descOk x.desc = true → (x.elems.length ≤ x.doneN.length ∨ x.runN ≠ [] ∨ 2 ≤ statusRank x.status) →
      Completes (.chain w) s (ThenSchedules s x.hood (fun u => ∃ y, u = s.modWork w (fun _ => y) ∧ y = { x with ran := true }))) ∧
    (x.parent = none → descOk x.desc = false → dCpl x.desc = 0 → Completes (.chain w) s (EndedInvalid s w x)) ∧
    (∀ p y, x.parent = some p → s.work? p = some y → p ≠ w → dCpl x.desc = 0 → dCpl y.desc = 0 → w < s.front.nextW →
      Completes (.chain w) s (ThenSchedules s x.hood (fun u => u.work? w = none ∧ u.mem = s.mem)))) ∧
  (∀ (s : State) (w : Nat) (x : Work) (p : Pattern), Powered s → s.begun w (fun k => k == 2) = some x →
    (x.parent = none → descOk x.desc = true → s.patFor x (lPid x.desc) = some p → Completes (.patternLaunch w) s (ThenSchedules s x.hood (fun u =>
      ∃ (v : State) (y : Work), u = v.advance w ∧ v.work? w = some y ∧ y.ran = true ∧ y.pid = lPid x.desc ∧ y.phase = .started ∧
        y.vals = (p.launchVals (x.args.take (min (lPlen x.desc) p.plenMax))).1 ∧ v.mem = s.mem ∧ v.tiles = s.tiles ∧ v.pats = s.pats ∧
        y.clamped = (x.clamped || decide (p.plenMax < lPlen x.desc) ||
          (p.launchVals (x.args.take (min (lPlen x.desc) p.plenMax))).2 != 0)))) ∧
    (x.parent = none → (descOk x.desc = false ∨ s.patFor x (lPid x.desc) = none) → dCpl x.desc = 0 →
      Completes (.patternLaunch w) s (EndedInvalid s w x)) ∧
    (∀ q y, x.parent = some q → s.work? q = some y → q ≠ w → dCpl x.desc = 0 → dCpl y.desc = 0 → w < s.front.nextW →
      Completes (.patternLaunch w) s (ThenSchedules s x.hood (fun u => u.work? w = none ∧ u.mem = s.mem)))) ∧
  (∀ (s : State) (w : Nat) (x : Work) (p : Pattern), Powered s → s.begun w (fun k => k == 3) = some x →
    (x.parent = none → descOk x.desc = true → s.patFor x (fld x.desc 0x10 0 10) = some p →
      (s.launchBefore x = true → Completes (.patch w) s (fun t => OnlyPort s t)) ∧
      (s.launchBefore x = false → dCpl x.desc = 0 → Completes (.patch w) s (ThenSchedules s x.hood (fun u =>
        Ended s w x u ∧ u.mem = s.mem ∧ u.tiles = s.tiles ∧ (∀ q, q ≠ fld x.desc 0x10 0 10 → u.pat q = s.pat q) ∧
        u.pat (fld x.desc 0x10 0 10) = { p with
          res := ((patchWrites x.desc).filter (fun e => p.uses e.1)).foldl (fun m e => m.put (fun _ => 0) e.1 e.2) p.res } ∧
        ((∀ e, e ∈ patchWrites x.desc → p.uses e.1 = true) → u.regs = s.regs) ∧
        ((∃ e, e ∈ patchWrites x.desc ∧ p.uses e.1 = false) →
          u.reg rCTX_INVALID x.ctx = satAdd 32 (s.reg rCTX_INVALID x.ctx) 1))))) ∧
    (x.parent = none → (descOk x.desc = false ∨ s.patFor x (fld x.desc 0x10 0 10) = none) → dCpl x.desc = 0 →
      Completes (.patch w) s (EndedInvalid s w x)) ∧
    (∀ q y, x.parent = some q → s.work? q = some y → q ≠ w → dCpl x.desc = 0 → dCpl y.desc = 0 → w < s.front.nextW →
      Completes (.patch w) s (ThenSchedules s x.hood (fun u => u.work? w = none ∧ u.mem = s.mem))))

/-- FENCE_SIGNAL sends a signal event with its value (at most 2^64 − 2), location, context, ring and GEN. FENCE_WAIT of a fence below its threshold
waits with its timeout or the context's default; of one that has reached it completes at once. A wait that times out stops its ring; before its time
the timeout does nothing; and a poll of a borrowed fence sends one read. A signal event above VALUE writes it, releases the wait that it reaches,
and raises the event of an armed fence; one that is not above it is counted in IGN; one of a past generation is discarded. (R247, R268, R270, R273,
R274.) -/
def Obligations.SignalsAndWaits : Prop :=
  (∀ (s v z : State) (w : Nat) (x : Work) (l : FLoc) (ro : Bool) (wt : Wait), Powered s →
    (s.begun w (fun k => k == 4) = some x → descOk x.desc = true → (s.ring x.ring).xstop = false →
      s.fenceAt x.hood x.ctx (fVa x.desc) 1 = (.at l ro, v) → v.works = s.works → Completes (.fenceSignal w) s (fun t =>
        (∃ g, t.front.sigs = v.front.sigs ++ [g] ∧ g.loc = l ∧ g.va = fVa x.desc ∧ g.ctx = x.ctx ∧ g.ring = x.ring ∧ g.hood = x.hood ∧
          g.hgen = x.hgen ∧ g.value = min (fValue x.desc) (2 ^ 64 - 2) ∧ g.ro = ro ∧ g.work = some w ∧
          (l.1 = 0 → x.parent = none → g.psn = (v.ring x.ring).psn)) ∧
        (∃ y, t.work? w = some y ∧ y.ran = true ∧ y.phase = .started ∧ (fValue x.desc = 2 ^ 64 - 1 → y.clamped = true)) ∧ t.mem = v.mem ∧
        (l.1 = 0 → fValue x.desc ≠ 2 ^ 64 - 1 → t.regs = v.regs) ∧
        (l.1 ≠ 0 → fValue x.desc ≠ 2 ^ 64 - 1 →
          LinksAs (((v.modWork w (fun y => { y with ran := true, clamped := y.clamped || false })).noteLender (some w) (some x.ring)
            (tagPkg l.1)).fenceMreq x.hood l (fun id => .fence id l.2 (min (fValue x.desc) (2 ^ 64 - 2)))) t))) ∧
    (s.begun w (fun k => k == 4) = some x → x.parent = none → dCpl x.desc = 0 → (s.ring x.ring).xstop = false → descOk x.desc = false →
      Completes (.fenceSignal w) s (EndedInvalid s w x)) ∧
    (s.begun w (fun k => k == 5) = some x → x.parent = none → dCpl x.desc = 0 → (s.ring x.ring).xstop = false → descOk x.desc = false →
      Completes (.fenceWait w) s (EndedInvalid s w x)) ∧
    (s.begun w (fun k => k == 5) = some x → descOk x.desc = true → (s.ring x.ring).xstop = false →
      s.fenceAt x.hood x.ctx (fVa x.desc) 0 = (.at l ro, v) → v.works = s.works → z = v.startWait w x l →
      anyPsn (z.fenceRd l) = false → fcErr (bytesOf (z.fenceRd l)) = 0 → z.orphan l (bytesOf (z.fenceRd l)) = false →
      ((fcValue (bytesOf (z.fenceRd l)) < fValue x.desc ∨ fValue x.desc = 2 ^ 64 - 1) → Completes (.fenceWait w) s (fun t =>
        t.waits = v.waits ++ [v.newWait w x l] ∧ (∃ y, t.work? w = some y ∧ y.phase = .waiting) ∧ t.mem = v.mem ∧ t.regs = v.regs)) ∧
      (fValue x.desc ≤ fcValue (bytesOf (z.fenceRd l)) → fValue x.desc ≠ 2 ^ 64 - 1 → Completes (.fenceWait w) s (fun t =>
        ∃ (u : State), t = finish s (u.completeAs w 0) ∧ (∀ y, y ∈ u.waits → y.work ≠ w) ∧ u.mem = v.mem ∧ u.regs = v.regs ∧ u.front = v.front))) ∧
    (s.waits.find? (fun y => y.work == w) = some wt →
      (wt.start + wt.timeout * 1000 ≤ s.now → s.works = [(w, x)] → wt.work = w → Unrecorded x → wt.kind = 0 → (s.ring wt.ring).state < 2 →
        Completes (.waitTimeout w) s (fun t => t.works = [] ∧ (t.ring wt.ring).state = 2 ∧ ∀ y, y ∈ t.waits → y.work ≠ w)) ∧
      (s.now < wt.start + wt.timeout * 1000 → Completes (.waitTimeout w) s (fun t => OnlyPort s t)) ∧
      (wt.kind = 0 → wt.loc.1 ≠ 0 → z = s.fenceMreq wt.hood wt.loc (fun id => .rdU id wt.loc.2 64) → anyPsn (z.fenceRd wt.loc) = false →
        fcErr (bytesOf (z.fenceRd wt.loc)) = 0 → z.orphan wt.loc (bytesOf (z.fenceRd wt.loc)) = false →
        (fcValue (bytesOf (z.fenceRd wt.loc)) < wt.thr ∨ wt.thr = 2 ^ 64 - 1) → Completes (.fencePoll w) s (fun t =>
          t.waits = s.waits ∧ t.works = s.works ∧ t.mem = s.mem ∧ t.farMem = s.farMem ∧ LinksAs z t)) ∧
      (wt.kind ≠ 0 ∨ wt.loc.1 = 0 → Completes (.fencePoll w) s (fun t => OnlyPort s t))) ∧
    (s.waits.find? (fun y => y.work == w) = none →
      Completes (.waitTimeout w) s (fun t => OnlyPort s t) ∧ Completes (.fencePoll w) s (fun t => OnlyPort s t))) ∧
  (∀ (s z : State) (g : Sig) (l : List Sig), Powered s →
    (s.front.sigs = [] → Completes .signalApply s (fun t => OnlyPort s t)) ∧
    (s.front.sigs = g :: l → z = { s with front := { s.front with sigs := l } } →
      (g.hgen ≠ (s.hood g.hood).gen → Completes .signalApply s (fun t => t = finish s z)) ∧
      (g.hgen = (s.hood g.hood).gen → anyPsn (z.fenceRd g.loc) = false → fcErr (bytesOf (z.fenceRd g.loc)) = 0 →
        z.orphan g.loc (bytesOf (z.fenceRd g.loc)) = false → g.psn = false →
        (fcValue (bytesOf (z.fenceRd g.loc)) < g.value → (g.ro = true ∨ ∀ y, y ∈ s.waits → y.loc = g.loc → g.value < y.thr) →
          ((fcArm (bytesOf (z.fenceRd g.loc)) = 0 ∨ g.value < fcArm (bytesOf (z.fenceRd g.loc)) ∨ g.ro = true) →
            Completes .signalApply s (fun t => ∃ u : State, t = finish s (u.signalDone g) ∧ u.front.sigs = l ∧
              u.mem = (z.fenceWr g.loc g.ro 0 (leBytes 8 g.value)).mem ∧ u.farMem = (z.fenceWr g.loc g.ro 0 (leBytes 8 g.value)).farMem ∧
              u.waits = s.waits ∧ u.works = s.works ∧ u.rings = s.rings ∧ u.ctxs = s.ctxs)) ∧
          (fcArm (bytesOf (z.fenceRd g.loc)) ≠ 0 → fcArm (bytesOf (z.fenceRd g.loc)) ≤ g.value → g.ro = false →
            z.ownFence g.loc (bytesOf (z.fenceRd g.loc)) = true → s.waits = [] → Completes .signalApply s (fun t => t = finish s
              (((((z.fenceWr g.loc false 0 (leBytes 8 g.value)).fenceWr g.loc false 8 (leBytes 8 0)).event (fcOwnCtx (bytesOf (z.fenceRd g.loc)))
                (fcCookie (bytesOf (z.fenceRd g.loc))) g.value g.va 0 0 0)).signalDone g)))) ∧
        (fcValue (bytesOf (z.fenceRd g.loc)) < g.value → g.ro = false → fcArm (bytesOf (z.fenceRd g.loc)) = 0 → g.work = none →
          ∀ y x, s.waits = [y] → y.loc = g.loc → y.thr ≤ g.value → s.works = [(y.work, x)] → Unrecorded x →
            Completes .signalApply s (fun t => t.waits = [] ∧ t.works = [] ∧ t.front.sigs = l ∧
              t.mem = (z.fenceWr g.loc false 0 (leBytes 8 g.value)).mem)) ∧
        (g.value ≤ fcValue (bytesOf (z.fenceRd g.loc)) → Completes .signalApply s (fun t => ∃ u : State, t = finish s (u.signalDone g) ∧
          u.front.sigs = l ∧
          u.mem = (z.fenceWr g.loc g.ro 0x28 (leBytes 4 (satAdd 32 (fcIgn (bytesOf (z.fenceRd g.loc))) 1))).mem ∧
          u.farMem = (z.fenceWr g.loc g.ro 0x28 (leBytes 4 (satAdd 32 (fcIgn (bytesOf (z.fenceRd g.loc))) 1))).farMem ∧
          u.waits = s.waits ∧ u.works = s.works ∧ u.rings = s.rings ∧ u.ctxs = s.ctxs)))))

/-- For a hood without descriptors in flight, HOLD sets and clears its preemption register and state, and a frozen hood stays held. The first scan
that finds a wait cycle breaks nothing. The end of a quantum of a kernel that runs while another waits begins its save; the save's end clears its
tiles and keeps its slots, also for the tiles that a RESHAPE moves; a save to a slot that may not be written stops the work's ring; and a save's end
for a work that is not saving does nothing. (R175, R283, R300, R304, R308, R309.) -/
def Obligations.HoldsSavesAndDeadlocks : Prop :=
  (∀ (s : State) (h : Nat), PfOpen s → h < 16 → s.selHood 0 = h → s.hoodExists h = true → s.works = [] → (s.hood h).ucNext = [] →
    s.reg rHOOD_MIG_STATUS h = 0 →
    Completes .holdSet s (fun t => t.reg rHOOD_PREEMPT h = 1 ∧ (t.hood h).held = true ∧ t.mem = s.mem ∧
      (∀ g, g ≠ h → t.hood g = s.hood g)) ∧
    ((s.hood h).frozen = false → Completes .holdClear s (fun t => t.reg rHOOD_PREEMPT h = 0 ∧ (t.hood h).held = false ∧ t.mem = s.mem ∧
      (∀ g, g ≠ h → t.hood g = s.hood g))) ∧
    ((s.hood h).frozen = true → Completes .holdClear s (fun t => t.reg rHOOD_PREEMPT h = 0 ∧ t.hoods = s.hoods ∧ t.mem = s.mem))) ∧
  (∀ (s : State) (w : Nat) (x : Work), Powered s →
    ((∀ y, y ∈ s.waits → y.scans = 0) → Completes .deadlockScan s (fun t =>
      t.waits.map (fun y => { y with scans := 0 }) = s.waits ∧ (∀ y, y ∈ t.waits → y.scans ≤ 1) ∧ t.works = s.works ∧ t.rings = s.rings ∧
      t.regs = s.regs ∧ t.mem = s.mem)) ∧
    (s.work? w = some x → (s.accrueHood x.hood).mayRun x.hood = true → (s.accrueHood x.hood).qualifies x = true →
      (∀ e, e ∈ (s.accrueHood x.hood).works → e.2.hood = x.hood → (s.accrueHood x.hood).qualifies e.2 = true → e.1 = w) →
      Completes (.quantumExpiry w) s (fun t =>
        (∃ y, t.work? w = some y ∧ y.phase = .saving ∧ y.holds = true ∧ y.slots.map (fun e => e.1) <+: x.heldTiles) ∧ t.mem = s.mem ∧
        t.tiles = s.tiles)) ∧
    (s.work? w = some x → ((s.accrueHood x.hood).mayRun x.hood = false ∨ (s.accrueHood x.hood).qualifies x = false) →
      Completes (.quantumExpiry w) s (fun t =>
        (∀ i, (t.work? i).map (fun y => y.phase) = (s.work? i).map (fun y => y.phase)) ∧ t.mem = s.mem ∧ t.tiles = s.tiles)) ∧
    (s.work? w = some x → s.noneFlying w = true →
      (x.phase = .saving → (∀ e, e ∈ x.slots → s.slotBad x.hood e.2 = false) → x.moveT = [] → Completes (.saveComplete w) s (fun t =>
        ∃ u : State, t = finish s ((u.afterSave x.hood).scheduleAll x.hood) ∧
        (∃ y, u.work? w = some y ∧ y.phase = .saved ∧ y.holds = false ∧ y.slots = x.slots) ∧
        (∀ e, e ∈ x.slots → u.tile (s.siteOf x.hood (x.lo + e.1)) = default))) ∧
      (x.phase ≠ .saving → x.moveT ≠ [] → x.slots = [] → (∀ e, e ∈ x.moveT → s.slotBad x.hood e.2 = false) → Completes (.saveComplete w) s (fun t =>
        ∃ u : State, t = finish s ((u.afterSave x.hood).scheduleAll x.hood) ∧
        (∃ y, u.work? w = some y ∧ y.phase = x.phase ∧ y.holds = x.holds ∧ y.moveT = [] ∧
          y.outT = x.moveT.foldl (fun m e => m.insert e.1 e.2) x.outT) ∧
        (∀ e, e ∈ x.moveT → u.tile (s.siteOf x.hood (x.lo + e.1)) = default))) ∧
      (x.phase = .saving → Unrecorded x → (∃ e, e ∈ x.slots ∧ s.slotBad x.hood e.2 = true) → (∀ e, e ∈ x.slots → s.inReset x.hood (x.lo + e.1) = false) →
        (s.ring x.ring).state < 2 → (∀ e, e ∈ s.works → e.2.parent ≠ some w) → w < s.front.nextW → Completes (.saveComplete w) s (fun t =>
          ∃ u : State, t = finish s ((u.afterSave x.hood).scheduleAll x.hood) ∧ u.work? w = none ∧ (u.ring x.ring).state = 2)) ∧
      (x.phase ≠ .saving → x.moveT = [] → Completes (.saveComplete w) s (fun t => OnlyPort s t))) ∧
    (s.work? w = some x → s.noneFlying w = false → Completes (.saveComplete w) s (fun t => OnlyPort s t)) ∧
    (s.work? w = none → Completes (.saveComplete w) s (fun t => OnlyPort s t) ∧ Completes (.quantumExpiry w) s (fun t => OnlyPort s t)))

/-- MMA on every tile of a span: with START the element is the truncated sum of its products anchored by the side maxima and the tag is set, and
otherwise the products are added to the resident element at its own anchor; the other bank, scratchpad, vector registers and status stay. WB writes
each element converted (or raw) at its address and the flags where asked, and no other byte. MERGE adds the element of the tile at the distance,
tile by tile of the pairs, and leaves every other tile; tiles that do not match keep their state and complete INVALID. Bad arguments complete
INVALID. (R36, R37, R40, R41, R42, R44, R46, R47, R48, R251, R252.) -/
def Obligations.MatrixKernelResults : Prop :=
  ∀ (s z : State) (w : Nat) (x : Work), Powered s →
    (z = s.arrive w 1 (fun _ => true) → Whole z w 1 x → mmaOk x.args = true →
      (fldB x.args 0 29 = true ∨ ∀ k, k < x.cnt →
        ((z.tile (x.siteIn z k)).tags.find (fld x.args 0 28 1)).getD 0 = BitVec.ofNat 32 (fld x.args 0x18 0 32)) →
      Completes (.mma w) s (fun t => RanOnSpan z w x t ∧ ∀ k i j, k < x.cnt → i < 32 → j < 64 →
        let old := z.tile (x.siteIn z k)
        let new := t.tile (x.siteIn z k)
        let bank := fld x.args 0 28 1
        let a := (mmaSides x.args k).1
        let b := (mmaSides x.args k).2
        let lam := lamFor a.f b.f (old.sideMax a i + old.sideMax b j)
        let r0 := macAll lam (0, 0) (old.products a b i j)
        let e := old.el (elKey bank i j)
        let r1 := macAll e.lam (e.win, e.flags) (old.products a b i j)
        (fldB x.args 0 29 = true → new.el (elKey bank i j) = mkElem r0.2 (anchorOf lam) r0.1 ∧
          new.modes.find bank = (if fldB x.args 0 30 then some true else none) ∧
          new.tags.find bank = (if BitVec.ofNat 32 (fld x.args 0x18 0 32) = 0 then none else some (BitVec.ofNat 32 (fld x.args 0x18 0 32)))) ∧
        (fldB x.args 0 29 = false → new.el (elKey bank i j) = mkElem r1.2 e.anchor r1.1 ∧ new.tags = old.tags ∧ new.modes = old.modes) ∧
        new.el (elKey (1 - bank) i j) = old.el (elKey (1 - bank) i j) ∧
        new.spad = old.spad ∧ new.poison = old.poison ∧ new.vregs = old.vregs ∧ new.vstat = old.vstat)) ∧
    (z = s.arrive w 2 (fun _ => true) → Whole z w 2 x → Completes (.wb w) s (fun t => RanOnSpan z w x t ∧ ∀ k, k < x.cnt →
        let old := z.tile (x.siteIn z k)
        let new := t.tile (x.siteIn z k)
        let size := wbSize x.args
        let el := fun n => old.el (2048 * fld x.args 0 0 1 + n)
        new.acc = old.acc ∧ new.vregs = old.vregs ∧ new.vstat = old.vstat ∧ new.tags = old.tags ∧
        (a32none x.args 8 = none → ∀ n m, n < wbCount x.args → m < size → new.rd (a32 x.args 4 + size * n + m) =
          if fldB x.args 0 3 then (leBytes 16 (el n).toNat).getD m 0
          else (leBytes size (convEl (wbFmt (fld x.args 0 1 2)) (fld x.args 0 4 2) (fldB x.args 0 6) (toSigned 7 (fld x.args 0 7 7)) (el n)).1).getD m 0) ∧
        (a32none x.args 8 = none → ∀ b, b < a32 x.args 4 ∨ a32 x.args 4 + size * wbCount x.args ≤ b → new.rd b = old.rd b) ∧
        (∀ f n, a32none x.args 8 = some f → n < min (wbCount x.args) (fitSpad f 2048) → new.rd (f + n) = (el n).flags.setWidth 8))) ∧
    (z = s.arrive w 3 (fun _ => true) → Whole z w 3 x → fld x.args 2 0 11 ≠ 0 →
      (∀ k, k % (2 * fld x.args 2 0 11) = 0 → k + fld x.args 2 0 11 < x.cnt →
        (z.tile (x.siteIn z k)).mergeOk (z.tile (x.siteIn z (k + fld x.args 2 0 11))) (fld x.args 0 0 1) = true) →
      Completes (.merge w) s (fun t => RanOnSpan z w x t ∧ ∀ k n, k < x.cnt → n < 2048 →
        let d := fld x.args 2 0 11
        let bank := fld x.args 0 0 1
        let old := z.tile (x.siteIn z k)
        let new := t.tile (x.siteIn z k)
        (k % (2 * d) = 0 → k + d < x.cnt →
          new.el (2048 * bank + n) = mergeEl (old.el (2048 * bank + n)) ((z.tile (x.siteIn z (k + d))).el (2048 * bank + n)) ∧
          new.el (2048 * (1 - bank) + n) = old.el (2048 * (1 - bank) + n) ∧ new.spad = old.spad ∧ new.vregs = old.vregs ∧ new.tags = old.tags) ∧
        (k % (2 * d) ≠ 0 ∨ x.cnt ≤ k + d → new = old))) ∧
    (z = s.arrive w 3 (fun _ => true) → Whole z w 3 x → fld x.args 2 0 11 ≠ 0 → ∀ k, k % (2 * fld x.args 2 0 11) = 0 → k + fld x.args 2 0 11 < x.cnt →
      (z.tile (x.siteIn z k)).mergeOk (z.tile (x.siteIn z (k + fld x.args 2 0 11))) (fld x.args 0 0 1) = false →
      Completes (.merge w) s (fun t => t.tile (x.siteIn z k) = z.tile (x.siteIn z k) ∧ (∃ y, t.work? w = some y ∧ y.status = 1) ∧
        t.reg rCTX_INVALID x.ctx = satAdd 32 (z.reg rCTX_INVALID x.ctx) 1)) ∧
    (Unrecorded x →
      (z = s.arrive w 1 (fun _ => true) → z.kernel w 1 = some x → (x.recordsOk = false ∨ mmaOk x.args = false ∨ (fldB x.args 0 29 = false ∧
        ∃ k, k ∈ z.tilesLeft w x ∧ ((z.tile (z.siteOf x.hood (x.lo + k))).tags.find (fld x.args 0 28 1)).getD 0 ≠ BitVec.ofNat 32 (fld x.args 0x18 0 32))) →
        Completes (.mma w) s (EndedInvalid z w x)) ∧
      (z = s.arrive w 2 (fun _ => true) → z.kernel w 2 = some x → x.recordsOk = false → Completes (.wb w) s (EndedInvalid z w x)) ∧
      (z = s.arrive w 3 (fun _ => true) → z.kernel w 3 = some x → (x.recordsOk = false ∨ fld x.args 2 0 11 = 0) → Completes (.merge w) s (EndedInvalid z w x)))

/-- Every VEC row on every tile of a span: the tile becomes what the operation writes from sources read before any write, with the status word of
the operation; an elementwise operation gives each lane from its own operands and writes nothing else; RMAX and RSUM give each group of 64 lanes by
the pairwise tree; ACCRD gives each element converted to FP32; accumulators and vector registers stay. Bad arguments complete INVALID. (R35, R51,
R52, R53, R251.) -/
def Obligations.VectorKernelResults : Prop :=
  ∀ (s z : State) (w n : Nat) (x : Work) (p : Nat × Instr), Powered s → p ∈ vecRows w → vOp x.args = p.1 →
    z = s.arrive w 7 (fun a => vOp a == p.1) →
    (Whole z w 7 x → vecOk x.args = true → n = min (vNum x.args) (vecFit x.args) → 0 < n → Completes p.2 s (fun t =>
      RanOnSpan z w x t ∧ ∀ k, k < x.cnt →
        let old := z.tile (x.siteIn z k)
        let new := t.tile (x.siteIn z k)
        let word := fun i => leNat (bytesOf (new.rdN (vDst x.args + 4 * i) 4))
        let lanes := (List.range n).map (fun i => (old.lane (vSrc1 x.args) i).1)
        new = { (old.vec x.args n).arrays.foldl (fun u q => u.wr q.1 q.2) old with vstat := (old.vec x.args n).vs } ∧
        new.acc = old.acc ∧ new.vregs = old.vregs ∧
        (p.1 < 0x20 → (∀ i, i < n → word i = (vLane x.args (old.lane (vSrc1 x.args) i).1
            (if 2 ≤ vArity p.1 then (old.lane (vSrc2 x.args) i).1 else 0) (if 3 ≤ vArity p.1 then (old.lane (vSrc3 x.args) i).1 else 0)).1 % 2 ^ 32) ∧
          ∀ b, b < vDst x.args ∨ vDst x.args + 4 * n ≤ b → new.rd b = old.rd b) ∧
        (p.1 = 0x30 → ∀ g, g < (n + 63) / 64 → word g = (laneTree (fminmax true) ((chunks 64 lanes).getD g [])).1 % 2 ^ 32) ∧
        (p.1 = 0x31 → ∀ g, g < (n + 63) / 64 → word g = (laneTree fadd ((chunks 64 lanes).getD g [])).1 % 2 ^ 32) ∧
        (p.1 = 0x32 → ∀ i, i < n → vSrc1 x.args / 16 + i < 4096 →
          word i = (convEl fFP32 (vRnd x.args) false 0 (old.el (vSrc1 x.args / 16 + i))).1 % 2 ^ 32))) ∧
    (z.kernel w 7 = some x → Unrecorded x → (x.recordsOk = false ∨ vecOk x.args = false) → Completes p.2 s (EndedInvalid z w x)) ∧
    (Whole z w 7 x → vecOk x.args = true → min (vNum x.args) (vecFit x.args) = 0 → Unrecorded x →
      Completes p.2 s (ThenSchedules z x.hood (fun u => Ended z w x u ∧ u.tiles = z.tiles ∧ u.mem = z.mem)))

/-- LOAD writes the bytes that the read gives into the scratchpad and no other tile; a fault stalls the kernel with a fault record in a hood of
fewer than 193 tiles, and in a larger one switches the tile out, which starts again from the step's beginning; STORE writes the scratchpad's bytes
to memory and changes no tile; KVC of a record that is not a region completes INVALID, and otherwise writes the converted token into its slot and
counts NaN and saturation. (R66, R68, R69, R70, R72, R115, R119, R120, R127, R251.) -/
def Obligations.TransferKernelResults : Prop :=
  ∀ (s z u v : State) (w n : Nat) (x y : Work) (e : Eng) (d : List PB) (g : Region) (r : List Byte), Powered s → x.cnt = 1 → x.prog = [] →
    (z = s.arrive w 4 (fun _ => true) → Whole z w 4 x → e = (tileEng x.hood x.ctx (x.siteIn z 0) 0 x.ring).of w → n = fld x.args 0xC 0 32 →
      fitSpad (fld x.args 8 0 20) n = n →
      (z.rdVA e (xferVa x.args 0) n = (d, u, none) → Completes (.load w) s (fun t =>
        t.tile (x.siteIn z 0) = (s.tile (x.siteIn z 0)).wr (fld x.args 8 0 20) d ∧ (∀ i, i ≠ x.siteIn z 0 → t.tile i = s.tile i) ∧
        (∃ q, t.work? w = some q ∧ q.phase = .finished ∧ q.ran = true ∧ q.psnw = (x.psnw || anyPsn d)) ∧ t.mem = u.mem ∧ t.hostMem = u.hostMem)) ∧
      (∀ typ acc lvl ent va rem, z.rdVA e (xferVa x.args 0) n = ([], u, some (.fault typ acc lvl ent va rem)) →
        (u.ntile x.hood < 193 → Completes (.load w) s (fun t =>
          (∃ q, t.work? w = some q ∧ q.phase = .stalled ∧ q.ran = x.ran) ∧ (∀ i, t.tile i = s.tile i) ∧ t.mem = u.mem ∧
          ∃ f, (t.hood x.hood).faults = (u.hood x.hood).faults ++ [f] ∧ f.typ = typ ∧ f.access = acc ∧ f.va = va ∧ f.ctx = x.ctx ∧
            f.epoch = u.reg rHOOD_EPOCH x.hood ∧ f.switch = false ∧ f.work = some w)) ∧
        (193 ≤ u.ntile x.hood → u.faultFull x.hood = false → x.parent = none → Completes (.load w) s (fun t =>
          (∃ q, t.work? w = some q ∧ q.phase = .started ∧ (q.outT.find 0).isSome = true ∧ q.prog.find 0 = none ∧ q.doneT = []) ∧
          t.tile (x.siteIn z 0) = default ∧ (∀ i, i ≠ x.siteIn z 0 → t.tile i = s.tile i) ∧
          ∃ f, (t.hood x.hood).faults = (u.hood x.hood).faults ++ [f] ∧ f.typ = typ ∧ f.access = acc ∧ f.va = va ∧ f.ctx = x.ctx ∧
            f.switch = true ∧ f.straddle = false ∧ f.work = some w ∧ f.tile = 0)))) ∧
    (z = s.arrive w 5 (fun _ => true) → Whole z w 5 x → e = (tileEng x.hood x.ctx (x.siteIn z 0) 0 x.ring).of w → n = fld x.args 0xC 0 32 →
      fitSpad (fld x.args 8 0 20) n = n →
      z.wrVA e (xferVa x.args 0) ((s.tile (x.siteIn z 0)).rdN (fld x.args 8 0 20) n) = (n, u, none) → Completes (.store w) s (fun t =>
        t.mem = u.mem ∧ t.hostMem = u.hostMem ∧ t.farMem = u.farMem ∧ t.poison = u.poison ∧ (∀ i, t.tile i = s.tile i) ∧
        ∃ q, t.work? w = some q ∧ q.phase = .finished ∧ q.ran = true)) ∧
    (z = s.arrive w 6 (fun _ => true) → Whole z w 6 x → z.kernelRecord w x (fld x.args 0 0 64) 32 = (some r, u) →
      ((parseRegion r = none ∨ ∃ g, parseRegion r = some g ∧ (g.layers ≤ fld x.args 8 0 8 ∨ g.nb ≤ fld x.args 0xC 0 32)) → Unrecorded x →
        Completes (.kvc w) s (ThenSchedules z x.hood (fun q =>
          Ended z w x q ∧ q.reg rCTX_INVALID x.ctx = satAdd 32 (u.reg rCTX_INVALID x.ctx) 1 ∧ q.mem = u.mem ∧ q.tiles = s.tiles))) ∧
      (parseRegion r = some g → fld x.args 8 0 8 < g.layers → fld x.args 9 0 6 < g.heads → fld x.args 0xC 0 32 < g.nb →
        fld x.args 0xB 0 6 = 0 → kvcTokens x.args = 1 → e = (tileEng x.hood x.ctx (x.siteIn z 0) 1 x.ring).of w →
        kvcWrites e w 0 (g.addr (fld x.args 8 0 8) (fld x.args 9 0 6) (fld x.args 0xC 0 32)) ((s.tile (x.siteIn z 0)).token g x.args 0).1 0 u =
          (v, none) → v.work? w = some y → y.phase = .started → y.doneT = [] → y.cnt = 1 →
        Completes (.kvc w) s (fun t =>
          t.mem = v.mem ∧ t.hostMem = v.hostMem ∧ t.farMem = v.farMem ∧ t.tiles = v.tiles ∧
          t.reg rMEM_KV_NAN x.hood = satAdd 32 (v.reg rMEM_KV_NAN x.hood) ((s.tile (x.siteIn z 0)).token g x.args 0).2.1 ∧
          t.reg rMEM_KV_SAT x.hood = satAdd 32 (v.reg rMEM_KV_SAT x.hood) ((s.tile (x.siteIn z 0)).token g x.args 0).2.2 ∧
          ∃ q, t.work? w = some q ∧ q.phase = .finished ∧ q.ran = true)) ∧
      (parseRegion r = some g → fld x.args 8 0 8 < g.layers → fld x.args 0xC 0 32 < g.nb → g.heads ≤ fld x.args 9 0 6 → Unrecorded x →
        Completes (.kvc w) s (ThenSchedules z x.hood (fun q => Ended z w x q ∧ q.mem = u.mem ∧ q.tiles = s.tiles)))) ∧
    (Unrecorded x → x.recordsOk = false → ∀ p ∈ [(4, Instr.load w), (5, .store w), (6, .kvc w)], z = s.arrive w p.1 (fun _ => true) →
      z.kernel w p.1 = some x → Completes p.2 s (EndedInvalid z w x))

/-- A copy of length 0 completes at once. A copy of one row moves it: strided from source to destination, gather from the row that the index names,
scatter to it, and fill with the eight bytes repeated; the work then awaits its completion. (R254.) -/
def Obligations.CopyModes : Prop :=
  ∀ (s z u v : State) (w n m : Nat) (x : Work) (e : Eng) (ib d : List PB), Powered s → s.begun w (fun k => k == 6) = some x → x.engine = some n →
    e = (copyEng x.hood x.ctx n x.ring).of w → x.prog = [] →
    (descOk x.desc = true → cLen x.desc = 0 → Unrecorded x → ∀ p ∈ [(0, Instr.strided w), (1, .gather w), (2, .scatter w), (3, .fill w)], cMode x.desc = p.1 →
      Completes p.2 s (ThenSchedules s x.hood (fun q => Ended s w x q ∧ q.front.engines.find n = none ∧ q.mem = s.mem ∧ q.tiles = s.tiles))) ∧
    (descOk x.desc = true → cRows x.desc = 1 → 0 < cLen x.desc → z = s.draw.2.modWork w (fun x => { x with prog := x.prog.insert 1 s.draw.1 }) →
      m = leNat (bytesOf ib) →
      (cMode x.desc = 0 → z.rdVA e (cSrc x.desc) (cLen x.desc) = (d, u, none) → u.wrVA e (cDst x.desc) d = (cLen x.desc, v, none) →
        Completes (.strided w) s (fun t => t.mem = v.mem ∧ t.hostMem = v.hostMem ∧ t.farMem = v.farMem ∧ t.tiles = v.tiles ∧
          ∃ y, t.work? w = some y ∧ y.phase = .finished ∧ y.psnw = (x.psnw || anyPsn (d.take (cLen x.desc))))) ∧
      (cMode x.desc = 1 → z.rdVA e (cIdx x.desc) 4 = (ib, u, none) → ∀ u', u.rdVA e (cSrc x.desc + m * cSstride x.desc) (cLen x.desc) = (d, u', none) →
        u'.wrVA e (cDst x.desc) (if anyPsn ib then d.map (fun p => (p.1, true)) else d) = (cLen x.desc, v, none) → Completes (.gather w) s (fun t =>
          t.mem = v.mem ∧ t.hostMem = v.hostMem ∧ t.farMem = v.farMem ∧ ∃ y, t.work? w = some y ∧ y.phase = .finished)) ∧
      (cMode x.desc = 2 → z.rdVA e (cIdx x.desc) 4 = (ib, u, none) → ∀ u', u.rdVA e (cSrc x.desc) (cLen x.desc) = (d, u', none) →
        u'.wrVA e (cDst x.desc + m * cDstride x.desc) (if anyPsn ib then d.map (fun p => (p.1, true)) else d) = (cLen x.desc, v, none) → Completes (.scatter w) s (fun t =>
          t.mem = v.mem ∧ t.hostMem = v.hostMem ∧ t.farMem = v.farMem ∧ ∃ y, t.work? w = some y ∧ y.phase = .finished)) ∧
      (cMode x.desc = 3 → z.wrVA e (cDst x.desc) (clean ((List.range (cLen x.desc)).map (fun j => (leBytes 8 (cSrc x.desc)).getD (j % 8) 0))) =
        (cLen x.desc, v, none) → Completes (.fill w) s (fun t =>
          t.mem = v.mem ∧ t.hostMem = v.hostMem ∧ t.farMem = v.farMem ∧ ∃ y, t.work? w = some y ∧ y.phase = .finished))) ∧
    (descOk x.desc = false → Unrecorded x → ∀ p ∈ [(0, Instr.strided w), (1, .gather w), (2, .scatter w), (3, .fill w)], cMode x.desc = p.1 →
      Completes p.2 s (EndedInvalid s w x))

/-- ATTN of one tile over a region of one batt: the scratchpad, status and EMPTY count are those of the online sequence over the batt that was read
and delivered to the scratchpad at the place that `seed` names (log entry 28), and no other tile or memory changes. KVRING takes the first free
entry of its die with the fields of its record, and its tear-down frees it. A piece that lands fills a free slot, joined from its parts, and does
nothing in a full one; a send takes the next piece, its own from its region and another's from its slot, uses one credit, and waits for one. The
codes of pieces are the model's (log entry 29). Bad arguments complete INVALID. (R74, R75, R76, R77, R84, R85, R86, R87, R88.) -/
def Obligations.AttentionAndRingPieces : Prop :=
  ∀ (s u v z q : State) (w e slot code i0 : Nat) (x : Work) (k : Rot) (g : Region) (r : List Byte) (d : List PB) (b : Option BattX) (data dd : List Byte)
    (psn pp : List Nat), Powered s →
    (z = s.arrive w 8 (fun _ => true) → Whole z w 8 x → x.cnt = 1 → x.prog = [] → attnOk x.args = true → atRing x.args = 0 → atSpan x.args = false →
      z.kernelRecord w x (fld x.args 0x10 0 64) 32 = (some r, u) → parseRegion r = some g → atLayer x.args < g.layers → atHead x.args < g.heads →
      g.nb = 1 → i0 = x.siteIn z 0 →
      q = (((u.modTile i0 (fun y => { y with attn := [], part := [] })).modWork w (fun y => { y with prog := y.prog.insert 0 0 })).draw.2).modTile i0
        (fun y => if y.attn.length == 0 then { y with attn := y.attn ++ [((s.tile i0).qRows x.args g.d).map (fun _ => rowInit g.d)] } else y) →
      q.readBatt ((tileEng x.hood x.ctx i0 1 x.ring).of w) g (g.addr (atLayer x.args) (atHead x.args) 0) (atMaxPos x.args) = (b, v, none) →
      Completes (.attn w) s (fun t => ∃ seed : Nat,
        let qs := (s.tile i0).qRows x.args g.d
        let rows := match b with
          | none => qs.map (fun _ => rowInit g.d)
          | some b => (rowsBatt (atC x.args) b qs (qs.map (fun _ => rowInit g.d))).1
        let left := match b with
          | none => s.tile i0
          | some b => (s.tile i0).deliver g b x.args seed
        let out := left.attnOut x.args rows
        (∀ a, (t.tile i0).rd a = out.1.rd a) ∧ (t.tile i0).attn = [] ∧ (t.tile i0).vstat = out.2.1 ∧
        (∀ i, i ≠ i0 → t.tile i = s.tile i) ∧ t.mem = v.mem ∧
        ∃ y, t.work? w = some y ∧ y.phase = .finished ∧ y.ran = true ∧ y.empty = x.empty ||| out.2.2.1)) ∧
    (z = s.arrive w 8 (fun _ => true) → z.kernel w 8 = some x → Unrecorded x → (x.recordsOk = false ∨ attnOk x.args = false) →
      Completes (.attn w) s (EndedInvalid z w x)) ∧
    (z = s.arrive w 9 (fun a => !fldB a 0 0) → Whole z w 9 x → 0 < x.cnt → fldB x.args 0 0 = false →
      z.kernelRecord w x (kvringVa x.args) 64 = (some r, u) →
      (parseRing r (u.hood x.hood).block.links = none → Unrecorded x → Completes (.kvringSetUp w) s (ThenSchedules z x.hood (fun y =>
        Ended z w x y ∧ y.rots = s.rots ∧ y.reg rCTX_INVALID x.ctx = satAdd 32 (u.reg rCTX_INVALID x.ctx) 1))) ∧
      (parseRing r (u.hood x.hood).block.links = some k →
        (e / 8 = (if k.links.toNat % 2 ^ 20 = 0 then 1 else 0) → e < 16 → (s.rot e).hood = 0 → (∀ f, f / 8 = e / 8 → f < e → (s.rot f).hood ≠ 0) →
          Completes (.kvringSetUp w) s (fun t =>
            t.rot e = { k with hood := x.hood + 1, ctx := x.ctx, recVa := kvringVa x.args } ∧ (∀ f, f ≠ e → t.rot f = s.rot f) ∧
            t.tiles = s.tiles ∧ t.mem = u.mem ∧ ∃ y, t.work? w = some y ∧ y.phase = .finished ∧ y.ran = true)) ∧
        ((∀ f, f / 8 = (if k.links.toNat % 2 ^ 20 = 0 then 1 else 0) → (s.rot f).hood ≠ 0) → Unrecorded x →
          Completes (.kvringSetUp w) s (ThenSchedules z x.hood (fun y => Ended z w x y ∧ y.rots = s.rots ∧ y.tiles = s.tiles))))) ∧
    (z = s.arrive w 9 (fun a => fldB a 0 0) → Whole z w 9 x → fldB x.args 0 0 = true →
      (s.ringEng x.hood x.ctx (kvringVa x.args) = some e → Completes (.kvringTearDown w) s (fun t =>
        (t.rot e).hood = 0 ∧ (∀ f, f ≠ e → t.rot f = s.rot f) ∧ t.tiles = s.tiles ∧ t.mem = s.mem ∧
        ∃ y, t.work? w = some y ∧ y.phase = .finished ∧ y.ran = true)) ∧
      (s.ringEng x.hood x.ctx (kvringVa x.args) = none → Completes (.kvringTearDown w) s (fun t =>
        t.rots = s.rots ∧ t.tiles = s.tiles ∧ t.mem = s.mem ∧ ∃ y, t.work? w = some y ∧ y.phase = .finished ∧ y.ran = true))) ∧
    (e < 16 → k = s.rot e →
      (if k.stage.filter (fun p => p.code == code) = [] then some (data, psn)
        else joinParts ((k.stage.filter (fun p => p.code == code)).length + 1) 0 (k.stage.filter (fun p => p.code == code))) = some (dd, pp) →
      (k.hood ≠ 0 → k.stopped = false → k.part = none → slot < 2 → dd ≠ [] → dd.length ≤ k.slotb → pieceOrigin code < k.n → pieceOrigin code ≠ k.pos →
        (∀ p, p ∈ k.full → p.1 ≠ slot ∧ p.2.1 ≠ code) → ∀ n : Nat,
        s.wrVA (rotEng k e) (if slot = 0 then k.slot0 else k.slot1)
          (((List.range dd.length).zip dd).map (fun p => (p.2, pp.contains (p.1 / 64)))) = (n, u, none) →
        Completes (.pieceLanded e ⟨slot, code⟩ data psn) s (fun t =>
          t.rot e = { k with
            full := k.full ++ [(slot, code, dd.length)], part := none, stage := k.stage.filter (fun p => p.code != code)
            todo := if k.atEnd code then k.todo else k.todo ++ [code] } ∧ t.mem = u.mem ∧ t.hostMem = u.hostMem ∧ ∀ f, f ≠ e → t.rot f = s.rot f)) ∧
      ((k.hood = 0 ∨ k.stopped = true ∨ 2 ≤ slot ∨ dd = [] ∨ k.slotb < dd.length ∨ ∃ p, p ∈ k.full ∧ p.1 = slot) →
        Completes (.pieceLanded e ⟨slot, code⟩ data psn) s (fun t => OnlyPort s t))) ∧
    (e < 16 → k = s.rot e →
      ((k.hood = 0 ∨ k.stopped = true ∨ s.rotFault e = true ∨ (k.part = none ∧ (k.cred = 0 ∨ k.todo = []))) →
        Completes (.pieceSend e) s (fun t => OnlyPort s t)) ∧
      (∀ c rest, k.hood ≠ 0 → k.stopped = false → s.rotFault e = false → k.part = none → k.cred ≠ 0 → k.todo = c :: rest →
        s.ringRegion e = (some g, u) →
        (pieceOrigin c = k.pos →
          u.rdVA (rotEng k e) (g.addr ((k.rounds[pieceRound c]?).getD (0, 0)).1 0 0 + (k.place g (pieceNo c)).1) (k.place g (pieceNo c)).2 = (d, v, none) →
          Completes (.pieceSend e) s (fun t =>
            (t.rot e).cred = k.cred - 1 ∧ (t.rot e).sent = k.sent + 1 ∧ (t.rot e).todo = rest ∧ t.mem = v.mem ∧ t.tiles = v.tiles)) ∧
        (∀ f, pieceOrigin c ≠ k.pos → k.full.find? (fun y => y.2.1 == c) = some f →
          u.rdVA (rotEng k e) (if f.1 = 0 then k.slot0 else k.slot1) f.2.2 = (d, v, none) → Completes (.pieceSend e) s (fun t =>
            (t.rot e).cred = k.cred - 1 ∧ (t.rot e).sent = k.sent + 1 ∧ (t.rot e).todo = rest ∧ t.mem = v.mem ∧ t.tiles = v.tiles)) ∧
        (pieceOrigin c ≠ k.pos → k.full.find? (fun y => y.2.1 == c) = none → Completes (.pieceSend e) s (fun t =>
          (t.rot e).cred = k.cred ∧ (t.rot e).sent = k.sent ∧ (t.rot e).todo = rest ∧ t.mem = u.mem ∧ t.tiles = s.tiles))))

/-- Behind a line in B a request waits, and nothing else changes; so it does behind a request of its line that waits, and where the directory has no
room, for which a victim is recalled. A range being moved grants no ownership. From I a home answers RdS with E and RdX with M; where a cache owns
the line it forwards or recalls; where others share it an upgrade or RdX invalidates them first; WbM asks for the data of the owner and EvC removes
a sharer; uncached reads and writes of a plain line read and write memory, and a write to a read-only range stores nothing and is counted. (R140,
R146, R147, R148, R149, R150, R151, R155, R181, R191.) -/
def Obligations.CoherenceRequestsAtTheHome : Prop :=
  ∀ (s u : State) (line q o h off ecc v : Nat) (data : List Byte) (b : Txn) (l : CLine), Powered s → isLocalLine line = true → q < 9 → h < 16 →
    ecc ≤ 72 → off + data.length ≤ 64 →
    (s.coh.txns.find line = some b → s.coh.hot = [] → MayOwn s h line →
      ∀ p ∈ [(CReq.rdS (s.reqWho h q) q, Instr.rds line ⟨h, q⟩ ecc), (.rdX (s.reqWho h q) q, .rdx line ⟨h, q⟩), (.upg (s.reqWho h q) q, .upg line ⟨h, q⟩),
        (.rdU (s.reqWho h q) q, .rdu h line q ecc), (.wrU (s.reqWho h q) q off data, .wru h line q off ecc data), (.wbM q, .wbm line q),
        (.evC q, .evc line q)],
        Completes p.2 s (fun t => t.txnOf line = { b with queue := b.queue ++ [p.1] } ∧ t.coh.msgs = s.coh.msgs ∧ t.coh.dir = s.coh.dir ∧
          t.coh.caches = s.coh.caches ∧ t.mem = s.mem ∧ t.regs = s.regs)) ∧
    (s.coh.txns.find line = none → s.coh.hot = [] → MayOwn s h line →
      ∀ p ∈ [(CReq.rdS (s.reqWho h q) q, Instr.rds line ⟨h, q⟩ 0), (.rdX (s.reqWho h q) q, .rdx line ⟨h, q⟩), (.upg (s.reqWho h q) q, .upg line ⟨h, q⟩),
        (.rdU (s.reqWho h q) q, .rdu h line q 0), (.wrU (s.reqWho h q) q off data, .wru h line q off 0 data), (.wbM q, .wbm line q),
        (.evC q, .evc line q)],
        (((∃ w, w ∈ s.coh.waiting ∧ w.1 = line) ∨ s.entryFor line p.1 = .later) → Completes p.2 s (fun t =>
          t.coh = { s.coh with waiting := s.coh.waiting ++ [(line, p.1)] } ∧ t.mem = s.mem ∧ t.regs = s.regs)) ∧
        ((∀ w, w ∈ s.coh.waiting → w.1 ≠ line) → s.entryFor line p.1 = .evict v → (s.dirOf v).owner = some o → Completes p.2 s (fun t =>
          t.coh.waiting = s.coh.waiting ++ [(line, p.1)] ∧ (t.txnOf v).req = .evict ∧ (t.txnOf v).acks = [o] ∧
          t.coh.msgs = s.coh.msgs ++ [.recall v o] ∧ t.coh.dir = s.coh.dir ∧ t.mem = s.mem ∧ t.regs = s.regs))) ∧
    (HomeReady s line (.rdS (s.reqWho h q) q) → s.coh.dir.find line = none → Quiet s line →
      (s.moveTwin line = none → Completes (.rds line ⟨h, q⟩ 0) s (fun t =>
        t.coh.msgs = s.coh.msgs ++ [.data line q (s.homeLine line).1 true (s.homeLine line).2] ∧
        t.dirOf line = { sharers := [], owner := some q } ∧ (t.txnOf line).req = .rdS (s.reqWho h q) q ∧ (t.txnOf line).sup = true)) ∧
      (MayOwn s h line → Completes (.rdx line ⟨h, q⟩) s (fun t =>
        t.coh.msgs = s.coh.msgs ++ [.dataX line q (s.homeLine line).1 (s.homeLine line).2] ∧
        t.dirOf line = { sharers := [], owner := some q } ∧ (t.txnOf line).req = .rdX (s.reqWho h q) q ∧ (t.txnOf line).sup = true))) ∧
    (HomeReady s line (.wbM q) → (s.coh.dir.find line).isSome = true → s.coh.hot = [] → (s.dirOf line).owner = some o → o ≠ q →
      Completes (.rds line ⟨h, q⟩ ecc) s (fun t => t.coh.msgs = s.coh.msgs ++ [.fwdS line o q] ∧ (t.txnOf line).acks = [o] ∧
        t.coh.dir = s.coh.dir ∧ t.mem = s.mem) ∧
      (MayOwn s h line → Completes (.rdx line ⟨h, q⟩) s (fun t => t.coh.msgs = s.coh.msgs ++ [.fwdX line o q] ∧ (t.txnOf line).acks = [o] ∧
        t.coh.dir = s.coh.dir ∧ t.mem = s.mem)) ∧
      Completes (.rdu h line q ecc) s (fun t => t.coh.msgs = s.coh.msgs ++ [.fwdRd line o q] ∧ (t.txnOf line).acks = [o] ∧
        t.coh.dir = s.coh.dir ∧ t.mem = s.mem) ∧
      Completes (.wru h line q off ecc data) s (fun t => t.coh.msgs = s.coh.msgs ++ [.recall line o] ∧ (t.txnOf line).acks = [o] ∧
        t.coh.dir = s.coh.dir ∧ t.mem = s.mem)) ∧
    (HomeReady s line (.wbM q) → (s.coh.dir.find line).isSome = true → Quiet s line → (s.dirOf line).owner = none →
      q ∈ (s.dirOf line).sharers →
      (MayOwn s h line → (s.dirOf line).sharers.filter (fun k => k != q) = [] →
        ((s.copyOf q line).isSome = true → Completes (.upg line ⟨h, q⟩) s (fun t =>
          t.coh.msgs = s.coh.msgs ++ [.grant line q] ∧ t.dirOf line = { sharers := [], owner := some q } ∧ t.mem = s.mem)) ∧
        (s.copyOf q line = none → Completes (.upg line ⟨h, q⟩) s (fun t =>
          t.coh.msgs = s.coh.msgs ++ [.dataX line q (s.homeLine line).1 (s.homeLine line).2] ∧
          t.dirOf line = { sharers := [], owner := some q } ∧ t.mem = s.mem))) ∧
      (MayOwn s h line → (s.dirOf line).sharers.filter (fun k => k != q) ≠ [] →
        ∀ c ∈ [Instr.upg line ⟨h, q⟩, .rdx line ⟨h, q⟩], Completes c s (fun t =>
          t.coh.msgs = s.coh.msgs ++ ((s.dirOf line).sharers.filter (fun k => k != q)).map (.inv line) ∧
          (t.txnOf line).acks = (s.dirOf line).sharers.filter (fun k => k != q) ∧ t.coh.dir = s.coh.dir ∧ t.mem = s.mem)) ∧
      Completes (.evc line q) s (fun t => t.coh.msgs = s.coh.msgs ++ [.done line q] ∧
        t.dirOf line = { sharers := (s.dirOf line).sharers.filter (fun k => k != q), owner := none } ∧ t.mem = s.mem)) ∧
    (HomeReady s line (.wbM q) → s.coh.hot = [] → (s.dirOf line).owner = some q → s.copyOf q line = some l → l.st = .M →
      Completes (.wbm line q) s (fun t => t.coh.msgs = s.coh.msgs ++ [.wbData line q l.data l.psn] ∧ (t.txnOf line).acks = [q] ∧
        t.coh.dir = s.coh.dir ∧ t.mem = s.mem)) ∧
    (s.refuses h line = some u → Completes (.rdx line ⟨h, q⟩) s (fun t => t = finish s u) ∧ Completes (.upg line ⟨h, q⟩) s (fun t => t = finish s u)) ∧
    (s.refuses h line = none → (s.moveTwin line).isSome = true →
      Completes (.rdx line ⟨h, q⟩) s (fun t => OnlyPort s t) ∧ Completes (.upg line ⟨h, q⟩) s (fun t => OnlyPort s t)) ∧
    (PlainLine s h line → s.roLine h line = false → s.entryFor line (.wbM q) = .now →
      Completes (.rdu h line q 0) s (fun t =>
        t.coh.msgs = s.coh.msgs ++ [.data line q ((List.range 64).map (fun i => s.rawByte (line * 64 + i))) false (s.linePsn line)] ∧
        t.mem = s.mem ∧ t.poison = s.poison) ∧
      (1 ≤ ecc → ecc ≤ 3 → Completes (.rdu h line q ecc) s (fun t =>
        t.reg rMEM_CE_COUNT (chanOfLine line) = satAdd 32 (s.reg rMEM_CE_COUNT (chanOfLine line)) 1 ∧ t.mem = s.mem ∧ t.poison = s.poison)) ∧
      Completes (.wru h line q off 0 data) s (fun t => t.coh.msgs = s.coh.msgs ++ [.wrAck line q] ∧
        (∀ i, t.rawByte i = if line * 64 + off ≤ i ∧ i < line * 64 + off + data.length then data.getD (i - (line * 64 + off)) 0
          else s.rawByte i) ∧
        (t.poison.find line).isSome = ((s.poison.find line).isSome && decide (data.length < 64)))) ∧
    (PlainLine s h line → s.roLine h line = true → s.entryFor line (.wbM q) = .now → Completes (.wru h line q off 0 data) s (fun t =>
      t.coh.msgs = s.coh.msgs ++ [.wrAck line q] ∧ t.mem = s.mem ∧ t.poison = s.poison ∧
      t.reg rMEM_RO_DROP (chanOfLine line) = satAdd 32 (s.reg rMEM_RO_DROP (chanOfLine line)) 1))

/-- A holder answers FwdS, FwdX, FwdRd, Recall and Inv with its data or an acknowledgement, and keeps S or nothing as the spec says; the home counts
the answers, and the last one hands the line over or writes the data back; a requester installs the state that it was given, and the line leaves B
when nothing waits. A message that is not in flight does nothing. (R144, R148, R149.) -/
def Obligations.CoherenceAnswers : Prop :=
  ∀ (s : State) (line h q : Nat) (b : Txn) (c : CLine) (d : List Byte) (v : BitVec 128) (w : Who) (e p : Bool), Powered s → isLocalLine line = true →
    h < 9 → q < 9 → s.coh.txns.find line = some b → Quiet s line →
    (s.copyOf h line = some c → s.makeRoom h line = s →
      (∀ m ∈ s.coh.msgs, m = .fwdS line h q ∨ m = .fwdX line h q ∨ m = .fwdRd line h q ∨ ∀ r, m ≠ .fwdS line h r ∧
        m ≠ .fwdX line h r ∧ m ≠ .fwdRd line h r) →
      (.fwdS line h q ∈ s.coh.msgs → Completes (.fwds line h) s (fun t =>
        t.coh.msgs = s.coh.msgs.erase (.fwdS line h q) ++ [.data line q c.data false c.psn,
          if c.st = .M then .wbData line h c.data c.psn else .done line h] ∧
        (t.copyOf h line).map (fun k => (k.st, k.data, k.psn)) = some (.S, c.data, c.psn) ∧ t.mem = s.mem ∧ t.coh.dir = s.coh.dir)) ∧
      (.fwdX line h q ∈ s.coh.msgs → Completes (.fwdx line h) s (fun t =>
        t.coh.msgs = s.coh.msgs.erase (.fwdX line h q) ++ [.dataX line q c.data c.psn, .done line h] ∧
        t.copyOf h line = none ∧ t.mem = s.mem ∧ t.coh.dir = s.coh.dir)) ∧
      (.fwdRd line h q ∈ s.coh.msgs → Completes (.fwdrd line h) s (fun t =>
        t.coh.msgs = s.coh.msgs.erase (.fwdRd line h q) ++ [.data line q c.data false c.psn, .done line h] ∧
        t.coh.caches = s.coh.caches ∧ t.mem = s.mem ∧ t.coh.dir = s.coh.dir)) ∧
      (.recall line h ∈ s.coh.msgs → Completes (.recall line h) s (fun t =>
        t.coh.msgs = s.coh.msgs.erase (.recall line h) ++ [if c.st = .M then .wbData line h c.data c.psn else .invAck line h] ∧
        t.copyOf h line = none ∧ t.mem = s.mem))) ∧
    (s.copyOf h line = none → ∀ m ∈ [(CMsg.fwdS line h q, Instr.fwds line h), (.fwdX line h q, .fwdx line h), (.fwdRd line h q, .fwdrd line h),
      (.recall line h, .recall line h)], m.1 ∈ s.coh.msgs →
      (∀ n ∈ s.coh.msgs, n = m.1 ∨ ∀ r, n ≠ .fwdS line h r ∧ n ≠ .fwdX line h r ∧ n ≠ .fwdRd line h r) → Completes m.2 s (fun t =>
        t.coh.msgs = s.coh.msgs.erase m.1 ++ [.invAck line h] ∧ t.copyOf h line = none ∧ t.mem = s.mem ∧ t.coh.dir = s.coh.dir)) ∧
    (.inv line h ∈ s.coh.msgs → Completes (.inv line h) s (fun t =>
      t.coh.msgs = s.coh.msgs.erase (.inv line h) ++ [.invAck line h] ∧ t.copyOf h line = none ∧ t.mem = s.mem)) ∧
    (.invAck line h ∈ s.coh.msgs → b.sup = false → b.req = .rdX w q →
      (∀ k l, b.acks.filter (fun k => k != h) = k :: l → h ∈ b.acks → Completes (.invack line h) s (fun t =>
        (t.txnOf line).acks = k :: l ∧ t.coh.msgs = s.coh.msgs.erase (.invAck line h) ∧ t.mem = s.mem)) ∧
      (b.acks = [h] → b.got = false → Completes (.invack line h) s (fun t =>
        (∃ d p, t.coh.msgs = s.coh.msgs.erase (.invAck line h) ++ [.dataX line q d p]) ∧
        t.dirOf line = { sharers := [], owner := some q } ∧ (t.txnOf line).sup = true))) ∧
    (.done line h ∈ s.coh.msgs → b.req = .rdX w q → b.acks = [h] → b.got = false → Completes (.done line h) s (fun t =>
      t.dirOf line = { sharers := [], owner := some q } ∧ (t.txnOf line).sup = true ∧ (t.txnOf line).acks = [] ∧
      t.coh.msgs = s.coh.msgs.erase (.done line h) ∧ t.mem = s.mem)) ∧
    ((∀ m ∈ s.coh.msgs, m = .wbData line h d p ∨ ∀ r x, m ≠ .wbData line h r x) → .wbData line h d p ∈ s.coh.msgs → b.req = .wbM h →
      s.chanDown (chanOfLine line) = false → s.keyless line = false → d.length = 64 → Completes (.wbdata line h) s (fun t =>
        t.coh.msgs = s.coh.msgs.erase (.wbData line h d p) ++ [.done line h] ∧ (t.dirOf line).owner = none ∧ (t.poison.find line).isSome = p ∧
        ∀ i, t.mem.find i = if line * 64 ≤ i ∧ i < line * 64 + 64 then d[i - line * 64]? else s.mem.find i)) ∧
    (b.sup = true → b.acks = [] → b.queue = [] → s.coh.waiting = [] →
      (.grant line q ∈ s.coh.msgs → s.copyOf q line = some c → s.makeRoom q line = s → Completes (.upgradeGrant line q) s (fun t =>
        (t.copyOf q line).map (fun k => (k.st, k.data)) = some (.M, c.data) ∧ t.coh.txns.find line = none ∧
        t.coh.msgs = s.coh.msgs.erase (.grant line q) ∧ t.mem = s.mem)) ∧
      ((∀ m ∈ s.coh.msgs, m = .data line q d e p ∨ ∀ x y z, m ≠ .data line q x y z) → .data line q d e p ∈ s.coh.msgs →
        (b.req = .rdS w q → s.makeRoom q line = s → Completes (.data line q) s (fun t =>
          (t.copyOf q line).map (fun k => (k.st, k.data, k.psn)) = some (if e then .E else .S, d, p) ∧ t.coh.txns.find line = none ∧
          t.coh.msgs = s.coh.msgs.erase (.data line q d e p) ∧ t.mem = s.mem)) ∧
        (b.req = .rdU w q → Completes (.data line q) s (fun t =>
          t.coh.got = s.coh.got ++ [(q, line, d, p)] ∧ t.coh.caches = s.coh.caches ∧ t.coh.txns.find line = none ∧ t.mem = s.mem))) ∧
      ((∀ m ∈ s.coh.msgs, m = .dataX line q d p ∨ ∀ x y, m ≠ .dataX line q x y) → .dataX line q d p ∈ s.coh.msgs → s.makeRoom q line = s →
        Completes (.datax line q) s (fun t =>
          (t.copyOf q line).map (fun k => (k.st, k.data, k.psn)) = some (.M, d, p) ∧ t.coh.txns.find line = none ∧
          t.coh.msgs = s.coh.msgs.erase (.dataX line q d p) ∧ t.mem = s.mem)) ∧
      ((∀ m ∈ s.coh.msgs, m = .atomResult line q v p ∨ ∀ x y, m ≠ .atomResult line q x y) → .atomResult line q v p ∈ s.coh.msgs →
        Completes (.atomresult line q) s (fun t =>
          t.coh.got = s.coh.got ++ [(q, line, leBytes 16 v.toNat, p)] ∧ t.coh.txns.find line = none ∧ t.mem = s.mem)) ∧
      (.wrAck line q ∈ s.coh.msgs → Completes (.wrack line q) s (fun t =>
        t.coh.got = s.coh.got ++ [(q, line, [], false)] ∧ t.coh.txns.find line = none ∧ t.mem = s.mem))) ∧
    (s.coh.msgs = [] → ∀ i ∈ [Instr.fwds line h, .fwdx line h, .fwdrd line h, .inv line h, .recall line h, .invack line h, .done line h,
      .upgradeGrant line h, .atomresult line h, .wrack line h, .data line h, .datax line h, .wbdata line h], Completes i s (fun t => OnlyPort s t))

/-- The page of an atomic's address is found first: a fault is recorded with the access, and one behind the draining epoch waits. On a plain line of
the hood's own memory: on a NEAR page memory takes the result and every other byte and mark stays; otherwise the home's cache holds the line
modified, memory as it was; to a read-only range nothing is stored and the drop is counted. The answer is the old value, or the acknowledgement of a
posted one. (R102, R110, R115, R152, R153, R172, R191.) -/
def Obligations.AtomicsOnOwnMemory : Prop :=
  ∀ (s u : State) (a : AtomArgs) (p : Nat × Instr) (line ga x room mt off n old new : Nat) (f : Stop), Powered s → p ∈ atomRows a →
    atomOk p.1 a = true → n = a.width / 8 →
    ((s.hood a.hood).created = false → Completes p.2 s (fun t => OnlyPort s t)) ∧
    ((s.hood a.hood).created = true → s.pieceAt (s.atomEng a) (alignDown a.va n) n 2 = (.dev x room mt, u) →
      (u.hood a.hood).block.placeOf x = .loc ga → line = ga / 64 → PlainLine u a.hood line → off = alignDown (x % 64) n →
      old = leNat ((List.range n).map (fun i => u.rawByte (line * 64 + off + i))) →
      new = atomNew p.1 a.width old (a.opnd.toNat % 2 ^ a.width) (a.cmp.toNat % 2 ^ a.width) →
      (∀ w, u.entryFor line (.atom w p.1 x (mt == 2) a) = .now) →
      (u.roLine a.hood line = false → mt = 2 → Completes p.2 s (fun t =>
        (∀ i, t.rawByte i = if line * 64 + off ≤ i ∧ i < line * 64 + off + n then (leBytes n new).getD (i - (line * 64 + off)) 0 else u.rawByte i) ∧
        (∀ l, (t.poison.find l).isSome = (u.poison.find l).isSome) ∧
        t.coh.msgs = u.coh.msgs ++
          [if a.ret then .atomResult line a.req (BitVec.ofNat 128 old) (u.poison.find line).isSome else .wrAck line a.req])) ∧
      (u.roLine a.hood line = false → mt ≠ 2 → u.makeRoom (homeDie line) line = u → Completes p.2 s (fun t =>
        (∃ c, t.copyOf (homeDie line) line = some c ∧ c.st = .M ∧
          c.data = splice ((List.range 64).map (fun i => u.rawByte (line * 64 + i))) off (leBytes n new)) ∧
        t.dirOf line = { sharers := [], owner := some (homeDie line) } ∧ t.mem = u.mem ∧
        t.coh.msgs = u.coh.msgs ++
          [if a.ret then .atomResult line a.req (BitVec.ofNat 128 old) (u.poison.find line).isSome else .wrAck line a.req])) ∧
      (u.roLine a.hood line = true → Completes p.2 s (fun t =>
        t.mem = u.mem ∧ t.poison = u.poison ∧ t.reg rMEM_RO_DROP (chanOfLine line) = satAdd 32 (u.reg rMEM_RO_DROP (chanOfLine line)) 1 ∧
        t.coh.msgs = u.coh.msgs ++
          [if a.ret then .atomResult line a.req (BitVec.ofNat 128 old) (u.poison.find line).isSome else .wrAck line a.req]))) ∧
    ((s.hood a.hood).created = true → s.pieceAt (s.atomEng a) (alignDown a.va n) n 2 = (.stop f, u) →
      (∀ typ acc lvl ent va rem, f = .fault typ acc lvl ent va rem → 2 ≤ a.kind → Completes p.2 s (fun t =>
        (∃ q, (t.hood a.hood).faults = (u.hood a.hood).faults ++ [q] ∧ q.typ = typ ∧ q.access = acc ∧ q.va = va ∧ q.ctx = a.ctx ∧ q.work = none ∧
          q.atom = some (p.1, a)) ∧ t.mem = u.mem ∧ t.works = u.works)) ∧
      (f = .order → Completes p.2 s (fun t => t.coh = { u.coh with atoms := u.coh.atoms ++ [(p.1, a)] } ∧ t.mem = u.mem ∧ t.works = u.works)))

/-- A corrected patrolled line is counted; an uncorrectable one (four or five bad symbols) of no hood is poisoned, counted and reported with its
place, and no other line is marked; six and more are either of the two (log entry 84); a line outside the patrol does nothing. Counters halve. A
failing site, plank, channel, bridge, stack or spine is isolated and reported, its tiles cleared where it has tiles, and a hood that owns the site
fails; an isolated site, or a link that is not up, changes nothing. (R25, R27, R28, R56, R98, R99, R101, R103, R105.) -/
def Obligations.PatrolsAndFaultsIsolate : Prop :=
  (∀ (s : State) (n line c x e : Nat), Powered s → n < 8 → e ≤ 72 →
    (s.patrolled n line = true →
      (e = 0 → Completes (.patrol n [line] [e]) s (fun t => OnlyPort s t)) ∧
      (1 ≤ e → e ≤ 3 → Completes (.patrol n [line] [e]) s (fun t =>
        t.reg rMEM_CE_COUNT (chanOfLine line) = satAdd 32 (s.reg rMEM_CE_COUNT (chanOfLine line)) 1 ∧
        OnlyRegisters [(rMEM_CE_COUNT, chanOfLine line)] s t)) ∧
      (4 ≤ e → e ≤ 5 → s.lineOwners line = [] → (s.chan (chanOfLine line)).ueTimes.length < 15 → Completes (.patrol n [line] [e]) s (fun t =>
        t.linePsn line = true ∧ t.reg rMEM_UE_COUNT (chanOfLine line) = satAdd 32 (s.reg rMEM_UE_COUNT (chanOfLine line)) 1 ∧
        t.reg rMEM_CAUSE 0 % 2 = 1 ∧ t.reg rMEM_UE_CHAN 0 = chanOfLine line + line % 2 ^ 26 * 256 ∧ t.mem = s.mem ∧ t.hoods = s.hoods ∧
        ∀ l, l ≠ line → t.poison.find l = s.poison.find l)) ∧
      (6 ≤ e → s.lineOwners line = [] → (s.chan (chanOfLine line)).ueTimes.length < 15 → Completes (.patrol n [line] [e]) s (fun t =>
        (t.linePsn line = true ∧ t.reg rMEM_UE_COUNT (chanOfLine line) = satAdd 32 (s.reg rMEM_UE_COUNT (chanOfLine line)) 1 ∧ t.mem = s.mem) ∨
        (t.reg rMEM_CE_COUNT (chanOfLine line) = satAdd 32 (s.reg rMEM_CE_COUNT (chanOfLine line)) 1 ∧ t.poison = s.poison ∧
          ∀ i, (i < line * 64 ∨ line * 64 + 64 ≤ i) → t.mem.find i = s.mem.find i)))) ∧
    (s.patrolled n line = false → Completes (.patrol n [line] [e]) s (fun t => OnlyPort s t)) ∧
    (c / 32 = n → Table.sorted (s.chan c).counts = true → Completes (.counterHalve n) s (fun t =>
      ((t.chan c).counts.find x).getD 0 = ((s.chan c).counts.find x).getD 0 / 2 ∧ t.mem = s.mem ∧ t.regs = s.regs ∧
      ∀ d, d / 32 ≠ n → t.chan d = s.chan d))) ∧
  (∀ (s : State) (i h : Nat), Powered s → NoServices s → NoneStaged s →
    (i < 1664 → (s.site i).isol = false → s.works = [] →
      (s.liveHoods = [] → ∀ c ∈ [Instr.scratchpadParityError i, .physicalFault 0 i], Completes c s (fun t =>
        (t.site i).isol = true ∧ t.tile i = default ∧ t.reg rHOOD_CAUSE 0 / 8 % 2 = 1 ∧ t.reg rHOOD_FAULT_UNIT 0 = i * 16 ∧
        (∀ j, j ≠ i → t.site j = s.site j ∧ t.tile j = s.tile j) ∧ t.planks = s.planks ∧ t.mem = s.mem)) ∧
      (s.liveHoods = [h] → i ∈ s.tmap h → s.rings = [] → (s.hood h).failed = false → (s.hood h).change.phase = .stable → (s.hood h).teardown = [] →
        s.hoodExists h = true → ∀ c ∈ [Instr.scratchpadParityError i, .physicalFault 0 i], Completes c s (fun t =>
          (t.site i).isol = true ∧ (t.hood h).failed = true ∧ t.reg rHOOD_CAUSE (h + 1) / 8 % 2 = 1 ∧ t.reg rHOOD_CAUSE (h + 1) / 4 % 2 = 1 ∧
          t.reg rHOOD_FAULT_UNIT (h + 1) = i * 16 ∧ (t.reg rHOOD_FAIL_MAP 0).testBit h = true ∧ t.mem = s.mem))) ∧
    (i < 1664 → (s.site i).isol = true → Completes (.scratchpadParityError i) s (fun t => OnlyPort s t) ∧
      Completes (.physicalFault 0 i) s (fun t => OnlyPort s t)) ∧
    (s.liveHoods = [] → HomesIdle s →
      (i < 128 → (s.plank i).isol = false → Completes (.physicalFault 1 i) s (fun t =>
        (t.plank i).isol = true ∧ (t.plank i).gated = true ∧ t.reg rHOOD_FAULT_UNIT 0 = 1 + i * 16 ∧ (∀ j, j ∈ sitesOf i → t.tile j = default) ∧
        t.mem = s.mem)) ∧
      (i < 256 → (s.chan i).isol = false → Completes (.physicalFault 2 i) s (fun t =>
        (t.chan i).isol = true ∧ t.nap.alert.getLsbD 9 = true ∧ t.reg rHOOD_FAULT_UNIT 0 = 2 + i * 16 ∧ t.mem = s.mem ∧
        ∀ c, c ≠ i → t.chan c = s.chan c)) ∧
      (i < 32 → Completes (.physicalFault 3 i) s (fun t =>
        (∀ c, c / 8 = i → (t.chan c).isol = true) ∧ t.nap.alert.getLsbD 9 = true ∧ t.reg rHOOD_FAULT_UNIT 0 = 3 + i * 16 ∧ t.mem = s.mem)) ∧
      (i < 8 → (s.stack i).isol = false → Completes (.physicalFault 4 i) s (fun t =>
          (t.stack i).isol = true ∧ t.nap.alert.getLsbD 9 = true ∧ t.reg rHOOD_FAULT_UNIT 0 = 4 + i * 16 ∧ t.mem = s.mem) ∧
        Completes (.physicalFault 6 i) s (fun t => (t.stack i).isol = true ∧ ∀ k, k / 2 ^ 120 = i → t.coh.caches.find k = none)) ∧
      (s.nap.spine = false → Completes (.physicalFault 7 0) s (fun t =>
        t.nap.spine = true ∧ (t.fn 0).aer = (s.fn 0).aer ||| 16 ∧ Answers s t (.aer 0 4) ∧ t.ready = false ∧ t.mem = s.mem))) ∧
    (i < 40 → (s.link i).st ≠ 2 → Completes (.physicalFault 5 i) s (fun t => OnlyPort s t)))

/-- A step moves the point by one toward the target; a droop abandons it, is counted and stretches; the stretch ends into the hold-off unless an
emergency stands; the hold-off's end resumes the step; an interval lowers or returns the point by one; an idle plank is gated with its tiles
cleared, a busy one is not; the ramp moves through its stages; and a fulling hold ends at its time. No other plank or unit changes. (R322, R323,
R326, R334, R335, R336.) -/
def Obligations.PlankClocks : Prop :=
  ∀ (s : State) (p u : Nat) (half : Bool), Powered s → p < 128 → u < 1024 →
    ((s.plank p).stepping = true → Completes (.freqStepComplete p) s (fun t =>
      (t.plank p).n = (if (s.plank p).n < (s.plank p).target then (s.plank p).n + 1 else (s.plank p).n - 1) ∧
      (t.plank p).target = (s.plank p).target ∧ (∀ q, q ≠ p → t.plank q = s.plank q) ∧ t.mem = s.mem ∧ t.regs = s.regs)) ∧
    ((s.plank p).stepping = false → Completes (.freqStepComplete p) s (fun t => OnlyPort s t)) ∧
    ((s.plank p).gated = false → (s.plank p).droop = false → s.works = [] → Completes (.droopTrip p) s (fun t =>
      (t.plank p).droop = true ∧ (t.plank p).stepping = false ∧ (t.plank p).n = (s.plank p).n ∧
      t.reg rPWR_PLANK_DROOP p = satAdd 32 (s.reg rPWR_PLANK_DROOP p) 1 ∧ (∀ q, q ≠ p → t.plank q = s.plank q) ∧ t.mem = s.mem)) ∧
    ((s.plank p).gated = true → Completes (.droopTrip p) s (fun t => OnlyPort s t)) ∧
    ((s.plank p).droop = true → s.power.emerg = 0 → Completes (.droopStretchEnd p) s (fun t =>
      t.plank p = { s.plank p with droop := false, holdoff := true } ∧ (∀ q, q ≠ p → t.plank q = s.plank q) ∧ t.regs = s.regs)) ∧
    (s.power.emerg ≠ 0 → Completes (.droopStretchEnd p) s (fun t => OnlyPort s t)) ∧
    ((s.plank p).holdoff = true → Completes (.droopHoldoffEnd p) s (fun t =>
      (t.plank p).holdoff = false ∧ (t.plank p).n = (s.plank p).n ∧
      (t.plank p).stepping = ((s.plank p).n != (s.plank p).target && !(s.plank p).gated && !(s.plank p).droop) ∧
      (∀ q, q ≠ p → t.plank q = s.plank q) ∧ t.regs = s.regs)) ∧
    ((s.plank p).gated = false → (s.plank p).hot = false → (s.plank p).throt = false →
      (half = true → (s.plank p).lowered < (s.pointOf p).1 → Completes (.droopIntervalEnd p half) s (fun t =>
        (t.plank p).lowered = (s.plank p).lowered + 1 ∧ (t.plank p).target = (s.pointOf p).1 - ((s.plank p).lowered + 1) ∧
        (∀ q, q ≠ p → t.plank q = s.plank q) ∧ t.regs = s.regs)) ∧
      (half = false → 0 < (s.plank p).lowered → Completes (.droopIntervalEnd p half) s (fun t =>
        (t.plank p).lowered = (s.plank p).lowered - 1 ∧ (t.plank p).target = (s.pointOf p).1 - ((s.plank p).lowered - 1) ∧
        (∀ q, q ≠ p → t.plank q = s.plank q) ∧ t.regs = s.regs))) ∧
    ((s.plank p).gated = false → (s.plank p).isol = false → (s.plank p).saveWait = false → (∀ i, i ∈ sitesOf p → s.siteBusy i = false) →
      Completes (.plankGateIdle p) s (fun t =>
        (t.plank p).gated = true ∧ (t.plank p).n = (s.plank p).target ∧ (t.plank p).ramp = 0 ∧ (∀ i, i ∈ sitesOf p → t.tile i = default) ∧ (∀ i, i ∉ sitesOf p → t.tile i = s.tile i) ∧
        (∀ q, q ≠ p → t.plank q = s.plank q) ∧ t.mem = s.mem ∧ t.works = s.works)) ∧
    ((∃ i, i ∈ sitesOf p ∧ s.siteBusy i = true) ∨ (s.plank p).gated = true → Completes (.plankGateIdle p) s (fun t => OnlyPort s t)) ∧
    Completes (.issueRampStage p) s (fun t =>
      (t.plank p).ramp = (if (s.plank p).ramp = 1 then 2 else if (s.plank p).ramp = 2 then 3 else 0) ∧
      (∀ q, q ≠ p → t.plank q = s.plank q) ∧ t.regs = s.regs ∧ t.works = s.works) ∧
    (∀ i at_ l, (s.bar u).times = (i, at_) :: l → (s.bar u).fulling = 1 →
      (at_ + s.reg rPWR_FULL_CFG 0 % 256 * 1000 ≤ s.now → Completes (.fullingHoldEnd u) s (fun t =>
        t.bar u = { s.bar u with fulling := 2 } ∧ (∀ v, v ≠ u → t.bar v = s.bar v) ∧ t.planks = s.planks ∧ t.regs = s.regs)) ∧
      (s.now < at_ + s.reg rPWR_FULL_CFG 0 % 256 * 1000 → Completes (.fullingHoldEnd u) s (fun t => OnlyPort s t)))

/-- With no work in the package: a reading of 100 °C throttles its plank, warns and is stored; one of 118 °C trips; a layer above 95 °C doubles its
stack's refresh, and one at 92 °C ends that; each throttle step lowers the target below the point while it stays hot; recovery raises the point by
one up to the granted point and then ends; above 105 °C the plank is sent to the lowest point; the hardware trip switches every rail off and loses
all contents but the flash and the counter. Otherwise these commands do nothing. (R96, R339, R340, R413.) -/
def Obligations.TemperaturesAndTrips : Prop :=
  ∀ (s : State) (p n : Nat) (v : Int), Powered s → p < 128 → n < 155 → s.works = [] →
    ((∀ m, m < 155 → m ≠ n → s.tempOf m < 944) → s.nap.tripped = false → n = p → 800 ≤ v → v < 944 → (s.plank p).throt = false → (s.plank p).isol = false → Completes (.thermalSample [(n, v)] []) s (fun t =>
      t.thermal.temps.find n = some v ∧ (t.plank p).throt = true ∧ t.nap.alert.getLsbD 0 = true ∧ t.reg rTHM_CAUSE 0 % 2 = 1 ∧
      t.thermal.layers = s.thermal.layers ∧ t.mem = s.mem ∧ t.works = [])) ∧
    ((∀ m, m < 155 → m ≠ n → s.tempOf m < 944) → s.nap.tripped = false → 944 ≤ v → Completes (.thermalSample [(n, v)] []) s (fun t =>
      t.nap.tripped = true ∧ t.nap.alert.getLsbD 1 = true ∧ t.mem = [] ∧ t.hat.rails = [] ∧ t.hat.runs = false ∧ t.tiles = [] ∧ t.works = [])) ∧
    (s.nap.tripped = false → (∀ m, m < 155 → s.tempOf m < 944) → (∀ i, i < 128 → s.hotAt i 777 = false ∧ (s.plank i).hot = false) →
      ∀ k, k < 8 → (∀ j, j < 8 → j ≠ k → (s.stack j).fast = false) → (∀ e, e ∈ s.thermal.layers → e.1 / 12 = k ∨ e.2 ≤ 760) →
        (s.thermal.layers.filter (fun e => e.1 / 12 == k) = [] → (s.stack k).fast = false → 760 < v → ∀ i, i < 12 →
          Completes (.thermalSample [] [(12 * k + i, v)]) s (fun t =>
            (t.stack k).fast = true ∧ t.reg rBIR_REFRESH_COUNT k = satAdd 32 (s.reg rBIR_REFRESH_COUNT k) 1 ∧ t.planks = s.planks ∧
            t.thermal.temps = s.thermal.temps ∧ t.mem = s.mem ∧ ∀ j, j ≠ k → t.stack j = s.stack j)) ∧
        (s.thermal.layers.filter (fun e => e.1 / 12 == k) = [] → (s.stack k).fast = true → v ≤ 736 → ∀ i, i < 12 →
          Completes (.thermalSample [] [(12 * k + i, v)]) s (fun t =>
            (t.stack k).fast = false ∧ t.reg rBIR_REFRESH_COUNT k = satAdd 32 (s.reg rBIR_REFRESH_COUNT k) 1 ∧ t.planks = s.planks ∧ t.mem = s.mem))) ∧
    ((s.plank p).throt = true → s.hotAt p 800 = true → Completes (.throttleStep p) s (fun t =>
      (t.plank p).target = min (s.plank p).target ((s.plank p).n - 1) ∧ (t.plank p).throt = true ∧ (t.plank p).n = (s.plank p).n ∧
      (∀ q, q ≠ p → t.plank q = s.plank q) ∧ t.regs = s.regs)) ∧
    (s.hotAt p 800 = false → Completes (.throttleStep p) s (fun t => OnlyPort s t)) ∧
    ((s.plank p).throt = true → (s.plank p).hot = false → s.hotAt p 777 = false →
      ((s.plank p).n + 1 < (s.pointOf p).1 - (s.plank p).lowered → Completes (.throttleRecoveryStep p) s (fun t =>
        (t.plank p).target = (s.plank p).n + 1 ∧ (t.plank p).throt = true ∧ (∀ q, q ≠ p → t.plank q = s.plank q) ∧ t.regs = s.regs)) ∧
      ((s.pointOf p).1 - (s.plank p).lowered ≤ (s.plank p).n + 1 → Completes (.throttleRecoveryStep p) s (fun t =>
        (t.plank p).throt = false ∧ (t.plank p).target = (s.pointOf p).1 - (s.plank p).lowered ∧ (∀ q, q ≠ p → t.plank q = s.plank q) ∧
        t.regs = s.regs))) ∧
    (s.hotAt p 777 = true → Completes (.throttleRecoveryStep p) s (fun t => OnlyPort s t)) ∧
    (840 < s.tempOf p → (s.plank p).isol = false → Completes (.thermalEmergency p) s (fun t =>
      (t.plank p).hot = true ∧ (t.plank p).throt = true ∧ (t.plank p).target = 0 ∧ (∀ q, q ≠ p → t.plank q = s.plank q) ∧ t.mem = s.mem)) ∧
    (s.tempOf n ≤ 840 → Completes (.thermalEmergency n) s (fun t => OnlyPort s t)) ∧
    (s.nap.tripped = false → Completes (.hardwareThermalTrip n) s (fun t =>
      t.nap.tripped = true ∧ t.nap.alert.getLsbD 1 = true ∧ t.mem = [] ∧ t.hat.rails = [] ∧ t.hat.runs = false ∧ t.tiles = [] ∧ t.works = [] ∧
      t.nap.counter = s.nap.counter ∧ t.hat.flash = s.hat.flash)) ∧
    (s.nap.tripped = true → Completes (.hardwareThermalTrip n) s (fun t => OnlyPort s t))

/-- An estimate above 110 % of the limit stretches every running plank and begins an emergency, and one within it does not; an electrical emergency
does the same and sets REGFAULT where a regulator reported it; the release goes stage by stage, and its last one ends every stretch into its
hold-off and ramps every running plank or none (log entry 12). A telemetry poll asks every rail that is on; a fault is an emergency, a silent
regulator sets REGFAULT. The timeout of the last staged hood puts the new cap in force. (R325, R337, R338, R409.) -/
def Obligations.PowerEmergencies : Prop :=
  ∀ (s : State) (watts rail h : Nat) (l : List (Nat × Nat)), Powered s → rail < 15 → h < 16 → s.works = [] →
    (s.powerLimit * 11 < watts * 10 → s.power.emerg = 0 → Completes (.powerEstimateTick watts []) s (fun t =>
      t.reg rPWR_PKG_POWER 0 = min watts 65535 ∧ t.power.emerg = 1 ∧ t.nap.alert = s.nap.alert ∧
      (∀ p, p < 128 → (s.plank p).gated = false → (t.plank p).droop = true ∧ (t.plank p).stepping = false) ∧
      (∀ p, (s.plank p).gated = true → t.plank p = s.plank p) ∧ t.mem = s.mem ∧ t.hoods = s.hoods)) ∧
    (watts * 10 ≤ s.powerLimit * 11 → Completes (.powerEstimateTick watts []) s (fun t =>
      t.reg rPWR_PKG_POWER 0 = min watts 65535 ∧ OnlyRegisters [(rPWR_PKG_POWER, 0)] s { t with planks := s.planks } ∧
      ∀ p, (t.plank p).n = (s.plank p).n ∨ (s.plank p).gated = true)) ∧
    (∀ b, Completes (.electricalEmergency b) s (fun t =>
      t.power.emerg = 1 ∧ t.nap.alert = (if b then s.nap.alert ||| 4 else s.nap.alert) ∧
      (∀ p, p < 128 → (s.plank p).gated = false → (t.plank p).droop = true ∧ (t.plank p).stepping = false) ∧ t.mem = s.mem ∧ t.regs = s.regs)) ∧
    (s.power.emerg = 0 → Completes .emergencyReleaseStage s (fun t => OnlyPort s t)) ∧
    (s.power.emerg = 1 ∨ s.power.emerg = 2 → Completes .emergencyReleaseStage s (fun t =>
      t.power = { s.power with emerg := s.power.emerg + 1 } ∧ t.planks = s.planks ∧ t.regs = s.regs)) ∧
    (s.power.emerg = 3 → Completes .emergencyReleaseStage s (fun t =>
      t.power = { s.power with emerg := 0 } ∧
      (∀ p, p < 128 → (s.plank p).droop = true → (t.plank p).droop = false ∧ (t.plank p).holdoff = true) ∧
      (Config.choice s.free % 2 = 0 → ∀ p, p < 128 → (t.plank p).ramp = (s.plank p).ramp) ∧
      (Config.choice s.free % 2 ≠ 0 → ∀ p, p < 128 → (s.plank p).gated = false → (t.plank p).ramp = 1) ∧ t.regs = s.regs)) ∧
    Completes (.pmbusTelemetryPoll l []) s (fun t =>
      t.outs.board = s.outs.board ++ s.hat.rails.map BoardOut.telemetry ∧ t.regs = s.regs ∧ t.planks = s.planks ∧ t.power.emerg = s.power.emerg ∧
      ∀ r, r ∉ s.hat.rails → t.power.telem.find r = s.power.telem.find r) ∧
    (rail ∈ s.hat.rails → Completes (.pmbusTelemetryPoll l [rail]) s (fun t => t.power.emerg = 1 ∧ t.nap.alert.getLsbD 2 = true)) ∧
    Completes (.pmbAlert rail false) s (fun t => AnswersBoard s t (.telemetry rail) ∧ t.power = s.power ∧ t.planks = s.planks ∧ t.regs = s.regs) ∧
    Completes (.pmbAlert rail true) s (fun t => AnswersBoard s t (.telemetry rail) ∧ t.power.emerg = 1 ∧ t.nap.alert.getLsbD 2 = true) ∧
    Completes (.regulatorTimeout rail) s (fun t => t.nap.alert = s.nap.alert ||| 4 ∧ t.power = s.power ∧ t.planks = s.planks ∧ t.regs = s.regs) ∧
    (h ∉ s.power.staged → Completes (.capStageTimeout h) s (fun t => OnlyPort s t)) ∧
    (s.power.staged = [h] → s.power.capWait = true → s.reg rPWR_HOOD_STATUS h / 4 % 4 ≠ 1 → s.modeOf h ≠ 2 → Completes (.capStageTimeout h) s (fun t =>
      t.power.staged = [] ∧ t.power.capWait = false ∧ t.power.capTime = s.now ∧ t.reg rPWR_CAUSE 0 % 2 = 1 ∧
      t.reg rPWR_CAP_EFF 0 = (s.power.newCap + s.power.newSrc * 8192) % 2 ^ 64 ∧ t.mem = s.mem ∧ t.works = []))

/-- A leader keeps the lateness of a member until all are known, and then moves 1 % of the smaller cap, within the limit, from the earliest to the
latest; a member takes a lower offset at once and a higher one after its delay; REVERT of a member, or silence for 2 ms, leaves the group; after 16
ms an offset below zero returns to zero; and the leader confirms the offsets in force. A window start zeroes the counters of its hood and puts
queued settings in force. Otherwise these commands do nothing. (R315, R332, R333.) -/
def Obligations.PowerGroupAndWindows : Prop :=
  ∀ (s : State) (m seq late pkg time h : Nat) (off : Int), Powered s → h < 16 →
    (s.groupOn = true → s.selfIdx = 0 → m ≠ 0 → m < s.members.length →
      (∃ i, i < s.members.length ∧ i ≠ m ∧ s.power.late.find i = none) →
      Completes (.arrive m (s.reg rSTL_PKG_ID 0 % 4096) seq late) s (fun t =>
        t.power = { s.power with late := s.power.late.insert m late } ∧ t.regs = s.regs ∧ t.stl = s.stl)) ∧
    (∀ e amt o0 o1 : Nat, s.groupOn = true → s.selfIdx = 0 → s.members.length = 2 → s.power.late.find 0 = some e → e < late →
      amt = min (s.capOf 0) (s.capOf 1) / 100 → s.power.offs = [(0, (o0 : Int)), (1, (o1 : Int))] →
      Completes (.arrive 1 (s.reg rSTL_PKG_ID 0 % 4096) seq late) s (fun t =>
        0 < amt → o0 + amt ≤ s.reg rPWR_GRP_CFG 0 / 128 % 32 * s.capOf 0 / 100 →
        t.power.late = [] ∧ t.power.grpSeq = (s.power.grpSeq + 1) % 2 ^ 32 ∧ t.power.offs = [(0, (o0 : Int) + amt), (1, (o1 : Int) - amt)] ∧
        t.mem = s.mem)) ∧
    (s.groupOn = false ∨ s.selfIdx ≠ 0 → ∀ g, Completes (.arrive m g seq late) s (fun t => OnlyPort s t)) ∧
    (s.groupOn = true → s.selfIdx ≠ 0 → s.power.fall.getD s.power.off < off → off ≠ s.power.rise.getD (s.power.fall.getD s.power.off) →
      Completes (.shift seq off time) s (fun t =>
        t.power = { s.power with grpSeq := seq, latest := time, lastShift := s.now, rise := some off, riseAt := s.now } ∧ t.planks = s.planks ∧
        t.regs = s.regs)) ∧
    (s.groupOn = true → s.selfIdx ≠ 0 → off < s.power.fall.getD s.power.off → off ≠ s.power.rise.getD (s.power.fall.getD s.power.off) →
      Completes (.shift seq off time) s (fun t =>
        t.power.grpSeq = seq ∧ t.power.lastShift = s.now ∧ t.power.rise = none ∧ t.power.newCap = (s.effCap off).1 ∧
        (t.power.fall = some off ∨ (t.power.fall = none ∧ t.power.off = off)))) ∧
    (s.groupOn = false ∨ s.selfIdx = 0 → Completes (.shift seq off time) s (fun t => OnlyPort s t)) ∧
    (s.groupOn = true → pkg ∈ s.members → s.power.off ≤ 0 → Completes (.revert pkg) s (fun t =>
      t.power = { s.power with left := true, confirm := false, rise := none } ∧ t.regs = s.regs ∧ t.planks = s.planks)) ∧
    (pkg ∉ s.members → Completes (.revert pkg) s (fun t => OnlyPort s t)) ∧
    (s.power.confirm = false → Completes .groupConfirmTick s (fun t => OnlyPort s t)) ∧
    (s.groupOn = true → s.selfIdx = 0 → s.power.confirm = true → s.members.length = 2 → (s.power.offs.find 0).getD 0 = s.power.rise.getD (s.power.fall.getD s.power.off) →
      Completes .groupConfirmTick s (fun t =>
        t.power = { s.power with latest := s.now, lastShift := s.now } ∧ t.planks = s.planks ∧ t.mem = s.mem ∧
        LinksAs (({ s with power := { s.power with latest := s.now, lastShift := s.now }, free := s.free + 1 }).stlSend
          (s.dieFor (s.members.getD 1 0)) (s.members.getD 1 0) none (.shift s.power.grpSeq ((s.power.offs.find 1).getD 0) (Config.choice s.free))) t)) ∧
    (s.groupOn = true → s.power.off ≤ 0 → s.power.lastShift + 2000000 ≤ s.now → Completes .groupShiftTimeout s (fun t =>
      t.power = { s.power with left := true, confirm := false, rise := none } ∧ t.regs = s.regs)) ∧
    (s.now < s.power.lastShift + 2000000 → Completes .groupShiftTimeout s (fun t => OnlyPort s t)) ∧
    (s.power.left = true → s.power.fall.getD s.power.off < 0 → s.power.lastShift + 16000000 ≤ s.now → Completes .groupRestoreTimer s (fun t =>
      t.power.fall = some 0 ∨ (t.power.fall = none ∧ t.power.off = 0))) ∧
    (s.power.left = false ∨ s.now < s.power.lastShift + 16000000 → Completes .groupRestoreTimer s (fun t => OnlyPort s t)) ∧
    (s.groupOn = true → s.power.rise = some off → s.power.riseAt + 11000000 ≤ s.now → Completes .groupOffsetRiseTimer s (fun t =>
      t.power.rise = none ∧ (t.power.fall = some off ∨ (t.power.fall = none ∧ t.power.off = off)))) ∧
    (s.power.rise = none ∨ s.now < s.power.riseAt + 11000000 → Completes .groupOffsetRiseTimer s (fun t => OnlyPort s t)) ∧
    ((s.hood h).effNext = none → Completes (.hatbandWindowStart h) s (fun t =>
      at' t.bands h = default ∧ (∀ g, g ≠ h → at' t.bands g = at' s.bands g) ∧ (∀ g, t.hood g = s.hood g) ∧ t.regs = s.regs ∧ t.works = s.works)) ∧
    (∀ a b c d e f, (s.hood h).effNext = some [a, b, c, d, e, f] → Completes (.hatbandWindowStart h) s (fun t =>
      at' t.bands h = default ∧ (t.hood h).effNext = none ∧ t.reg rHB_GUAR_EFF h = a % 2 ^ 64 ∧ t.reg rHB_CLS_GUAR_EFF h = b % 2 ^ 64 ∧
      t.reg (rHB_CLS_GUAR_EFF + 4) h = c % 2 ^ 64 ∧ t.reg (rHB_CLS_GUAR_EFF + 8) h = d % 2 ^ 64 ∧ t.reg (rHB_CLS_GUAR_EFF + 12) h = e % 2 ^ 64 ∧
      t.reg rHB_SCALE h = f % 2 ^ 64 ∧ t.works = s.works ∧ t.mem = s.mem))

/-- A link that is not UP ignores flits. A codeword with more than 15 symbol errors, and a flit whose CRC is not that of its bytes, is counted,
discarded and answered with a NAK; so, uncounted, is one with fields out of range or out of sequence. The next in sequence is accepted and
acknowledged: for this package, its credit returns and its message acts, or, with a tag already seen, does not act again; for another, it goes out
on the link of its entry, waits where that has no room, or is discarded and counted where no entry leads on. An IDLE flit acknowledges what it names
and returns its credits, and one with a NAK sends the kept flits again and counts. (R196, R197, R198, R199, R200, R201, R205, R206, R208, R211.) -/
def Obligations.FlitsReceived : Prop :=
  ∀ (s : State) (f g : Flit) (l : Nat) (m : StlMsg) (e r : Nat), Powered s → l = f.link → l < 40 → s.stl.queue = [] →
    g = { f with typ := 0, payload := [], msgs := [], more := false } →
    ((s.link l).st ≠ 2 → Completes (.dataFlit f) s (fun t => OnlyPort s t) ∧ Completes (.idleFlit f) s (fun t => OnlyPort s t)) ∧
    ((s.link l).st = 2 → (s.link l).cwBit = 0 → 15 < f.errs → ∀ c ∈ [Instr.dataFlit f, .idleFlit f], Completes c s (fun t =>
      t.reg rSTL_FEC_UNCORR l = satAdd 32 (s.reg rSTL_FEC_UNCORR l) 1 ∧ t.reg rSTL_CRC_DISC l = s.reg rSTL_CRC_DISC l ∧ AsksReplay s t l)) ∧
    ((s.link l).st = 2 → f.errs ≤ 15 → (s.link l).cwErr ≤ 15 →
      (f.crc ≠ flitCrc f → Completes (.dataFlit f) s (fun t =>
        t.reg rSTL_CRC_DISC l = satAdd 32 (s.reg rSTL_CRC_DISC l) 1 ∧ (t.link l).last = (s.link l).last ∧ AsksReplay s t l)) ∧
      (f.crc ≠ flitCrc g → Completes (.idleFlit f) s (fun t =>
        t.reg rSTL_CRC_DISC l = satAdd 32 (s.reg rSTL_CRC_DISC l) 1 ∧ (t.link l).last = (s.link l).last ∧ AsksReplay s t l)) ∧
      (f.crc = flitCrc f → flitBad f = true → Completes (.dataFlit f) s (fun t =>
        t.reg rSTL_CRC_DISC l = s.reg rSTL_CRC_DISC l ∧ (t.link l).last = s.now ∧ AsksReplay s t l)) ∧
      (f.crc = flitCrc g → flitBad g = true → Completes (.idleFlit f) s (fun t =>
        t.reg rSTL_CRC_DISC l = s.reg rSTL_CRC_DISC l ∧ (t.link l).last = s.now ∧ AsksReplay s t l))) ∧
    ((s.link l).st = 2 → GoodFlit s f → flitBad f = false → f.nak = false → f.crcnt = 0 → (s.link l).retry = [] → f.typ = 1 →
      (f.fseq ≠ (s.link l).rxSeq → (s.link l).drop = false → Completes (.dataFlit f) s (fun t => AsksReplay s t l)) ∧
      (f.fseq = (s.link l).rxSeq → f.fseq < 4096 → f.src ≠ s.selfId → f.vc < 2 → (s.link l).owe = [] →
        (f.dst = s.selfId → f.msgs = [] → Completes (.dataFlit f) s (fun t =>
          (t.link l).rxSeq = (f.fseq + 1) % 4096 ∧ (t.link l).drop = false ∧ (t.link l).owe = [] ∧ (t.link l).last = s.now ∧
          (∃ i, t.outs.stl = s.outs.stl ++ [(l, i)] ∧ i.typ = 0 ∧ i.ack = f.fseq ∧ i.crtc = f.tc ∧ i.crvc = f.vc ∧ i.crcnt = 1) ∧
          t.stl = s.stl ∧ t.hoods = s.hoods ∧ t.rots = s.rots ∧ ∀ k, k ≠ l → t.link k = s.link k)) ∧
        (f.dst = s.selfId → f.msgs = [m] → m.body = .credit e → f.tc = 4 → msgOk 4 m = true → m.enc = false → s.mustEnc (l / 20) f.src m = false →
          s.stl.watch.find f.src = none → s.ringOf f.src e true = some r →
          (m.tag ∉ (s.stl.tags.find (8192 * (l / 20) + 4096 * (f.die % 2) + f.src)).getD [] → Completes (.dataFlit f) s (fun t =>
            t.rots = (s.rotCredit r).rots ∧ (t.link l).rxSeq = (f.fseq + 1) % 4096 ∧
            m.tag ∈ (t.stl.tags.find (8192 * (l / 20) + 4096 * (f.die % 2) + f.src)).getD [] ∧ t.hoods = s.hoods ∧ t.mem = s.mem)) ∧
          (m.tag ∈ (s.stl.tags.find (8192 * (l / 20) + 4096 * (f.die % 2) + f.src)).getD [] → Completes (.dataFlit f) s (fun t =>
            t.rots = s.rots ∧ t.stl = s.stl ∧ (t.link l).rxSeq = (f.fseq + 1) % 4096 ∧ t.hoods = s.hoods ∧ t.mem = s.mem))) ∧
        (f.dst ≠ s.selfId → s.noRoute (l / 20) f.dst = true → Completes (.dataFlit f) s (fun t =>
          t.reg rSTL_MSG_DISC 0 = satAdd 32 (s.reg rSTL_MSG_DISC 0) 1 ∧ (t.link l).rxSeq = (f.fseq + 1) % 4096 ∧ t.stl = s.stl ∧
          t.hoods = s.hoods ∧ t.rots = s.rots)) ∧
        (f.dst ≠ s.selfId → s.noRoute (l / 20) f.dst = false →
          let w : TxFlit := { tc := f.tc, vc := f.vc, dst := f.dst, src := f.src, msgs := f.msgs, more := f.more, transit := f.payload }
          (∀ j, s.flitLink (some l) (l / 20) w = some j → s.hasRoom j f.tc (s.vcOn j f.dst (some l) f.vc) 1 = true → Completes (.dataFlit f) s (fun t =>
            (∃ i o, t.outs.stl = s.outs.stl ++ (j, i) :: o ∧ i.typ = 1 ∧ i.fseq = (s.link j).txSeq ∧ i.dst = f.dst ∧ i.src = f.src ∧ i.tc = f.tc ∧
              i.vc = s.vcOn j f.dst (some l) f.vc ∧ i.msgs = f.msgs ∧ i.transit = f.payload) ∧
            t.stl.queue = [] ∧ t.hoods = s.hoods ∧ t.rots = s.rots)) ∧
          (s.flitLink (some l) (l / 20) w = none → Completes (.dataFlit f) s (fun t =>
            t.stl = { s.stl with queue := [.flit (some l) (l / 20) w] } ∧ (t.link l).owe = [] ∧
            (∃ i, t.outs.stl = s.outs.stl ++ [(l, i)] ∧ i.typ = 0 ∧ i.crcnt = 0) ∧ t.hoods = s.hoods ∧ t.rots = s.rots))))) ∧
    ((s.link l).st = 2 → GoodFlit s g → flitBad g = false →
      (f.nak = false → Completes (.idleFlit f) s (fun t =>
        (t.link l).retry = ackCut f.ack (s.link l).retry ∧ (t.link l).rxSeq = (s.link l).rxSeq ∧ (t.link l).last = s.now ∧
        (∀ c, ((t.link l).cred.find c).getD 0 = ((s.link l).cred.find c).getD 0 - (if c = 2 * f.crtc + f.crvc then f.crcnt else 0)) ∧
        (∃ i, t.outs.stl = s.outs.stl ++ [(l, i)] ∧ i.typ = 0) ∧ t.stl = s.stl ∧ t.hoods = s.hoods ∧ t.rots = s.rots ∧
        ∀ k, k ≠ l → t.link k = s.link k)) ∧
      (∀ a, f.nak = true → (s.link l).retry = [a] → a.fseq ≠ f.ack → (s.link l).rep = 0 → Completes (.idleFlit f) s (fun t =>
        (∃ i, t.outs.stl = s.outs.stl ++ [(l, i)] ∧ i.typ = a.typ ∧ i.fseq = a.fseq ∧ i.msgs = a.msgs ∧ i.part = a.part ∧ i.dst = a.dst) ∧
        t.reg rSTL_REPLAY l = satAdd 32 (s.reg rSTL_REPLAY l) 1 ∧ (t.link l).retry = [a] ∧ (t.link l).rep = 1 ∧ t.stl = s.stl ∧
        t.hoods = s.hoods)))

/-- RETRAIN, DISABLE and ENABLE move the selected link. The loss of an UP link, which a lane out of lock or 50 µs without a good flit makes,
isolates it and reports it, and a notice of retraining trains it; training ends UP with fresh sequence numbers and credits, loses the link, or, on
one that is lost, doubles its delay; a retry trains again. KEEPALIVE refreshes a watched path; 900 µs of silence, or no route left, lose it, report
it and drop its requests; the tick sends KEEPALIVE, authenticated, to what is watched. A hold of requests ends when none is outstanding. A rekey
moves an association to the first free index with a fresh key and salt. Otherwise these commands do nothing. (R205, R209, R211, R212, R213, R356.)
-/
def Obligations.LinksAndPaths : Prop :=
  (∀ (s : State) (l lanes pkg die dst idx i : Nat) (locked : Bool) (w : Watch) (a : Assoc), Powered s → l < 40 → pkg < 4096 → die < 2 → dst < 4096 →
    idx < 64 → i < 64 →
    (s.stl.watch = [] → (s.link l).retry = [] → NoServices s →
      ((s.link l).st = 2 → (locked = true ∨ (s.link l).last + 50000 ≤ s.now) → s.rots = [] → s.hoodsOfLink l = [] → Completes (.linkLoss ⟨l, locked⟩) s (fun t =>
        (t.link l).st = 3 ∧ (t.link l).isol = true ∧ l ∈ t.stl.removed ∧ t.nap.alert.getLsbD 9 = true ∧ t.reg rSTL_CAUSE 0 % 2 = 1 ∧
        (t.reg rSTL_LOST_MAP 0).testBit l = true ∧ t.reg rHOOD_FAULT_UNIT 0 = 5 + l * 16 ∧ t.hoods = s.hoods ∧ t.mem = s.mem)) ∧
      ((s.link l).st = 2 → Completes (.retrainNotice l) s (fun t =>
        (t.link l).st = 1 ∧ l ∈ t.stl.removed ∧ t.regs = s.regs ∧ t.hoods = s.hoods)) ∧
      ((s.link l).st = 1 → lanes ≠ 8 → lanes ≠ 4 → (s.link l).isol = false → s.rots = [] → s.hoodsOfLink l = [] →
        Completes (.linkTrainingComplete l lanes) s (fun t => (t.link l).st = 3 ∧ (t.link l).isol = true ∧ (t.link l).delay = 10 ∧
          l ∈ t.stl.removed ∧ t.nap.alert.getLsbD 9 = true ∧ t.hoods = s.hoods ∧ t.mem = s.mem))) ∧
    ((s.link l).st ≠ 2 → Completes (.linkLoss ⟨l, locked⟩) s (fun t => OnlyPort s t) ∧ Completes (.retrainNotice l) s (fun t => OnlyPort s t)) ∧
    (s.now < (s.link l).last + 50000 → Completes (.linkLoss ⟨l, false⟩) s (fun t => OnlyPort s t)) ∧
    ((s.link l).st = 1 → (lanes = 8 ∨ lanes = 4) → s.stl.queue = [] → Completes (.linkTrainingComplete l lanes) s (fun t =>
      (t.link l).st = 2 ∧ (t.link l).isol = false ∧ (t.link l).narrow = (lanes == 4) ∧ (t.link l).txSeq = 0 ∧ (t.link l).rxSeq = 0 ∧
      (t.link l).retry = [] ∧ (t.link l).cred = [] ∧ (t.link l).owe = [] ∧ (t.link l).last = s.now ∧ t.stl.removed = s.stl.removed.erase l ∧
      t.reg rSTL_CAUSE 0 / 4 % 2 = 1 ∧ (t.reg rSTL_UP_MAP 0).testBit l = true ∧ ∀ k, k ≠ l → t.link k = s.link k)) ∧
    ((s.link l).st = 1 → lanes ≠ 8 → lanes ≠ 4 → (s.link l).isol = true → Completes (.linkTrainingComplete l lanes) s (fun t =>
      (t.link l).st = 3 ∧ (t.link l).delay = min 1000 (2 * (s.link l).delay) ∧ t.regs = s.regs ∧ ∀ k, k ≠ l → t.link k = s.link k)) ∧
    ((s.link l).st ≠ 1 → Completes (.linkTrainingComplete l lanes) s (fun t => OnlyPort s t)) ∧
    ((s.link l).st = 3 → (s.link l).quiet = false → Completes (.linkRetrainRetry l) s (fun t =>
      t.link l = { s.link l with st := 1 } ∧ (∀ k, k ≠ l → t.link k = s.link k) ∧ t.regs = s.regs)) ∧
    ((s.link l).st ≠ 3 ∨ (s.link l).quiet = true → Completes (.linkRetrainRetry l) s (fun t => OnlyPort s t)) ∧
    (s.stl.watch.find pkg = some w →
      ((w.lost = false ∨ s.liveHoods = []) → Completes (.keepalive pkg) s (fun t =>
        t.stl.watch.find pkg = some { w with last := s.now, lost := false } ∧ (∀ k, k ≠ pkg → t.stl.watch.find k = s.stl.watch.find k) ∧
        t.regs = s.regs ∧ t.links = s.links)) ∧
      (w.lost = false → (w.last + 900000 ≤ s.now ∨ (s.dieReaches 0 pkg = false ∧ s.dieReaches 1 pkg = false)) →
        (∀ h, h < 16 → s.hoodDepends h pkg = false) → s.waits = [] → s.coh.waiting = [] → s.groupOn = false → NoServices s →
        Completes (.pathLoss pkg) s (fun t =>
          t.stl.watch.find pkg = some { w with lost := true } ∧ t.nap.alert.getLsbD 7 = true ∧ t.reg rSTL_PATH_ID 0 = pkg ∧
          t.reg rSTL_PATH_COUNT 0 = satAdd 32 (s.reg rSTL_PATH_COUNT 0) 1 ∧ t.reg rSTL_CAUSE 0 / 2 % 2 = 1 ∧
          (∀ r, r ∈ t.stl.mreqs → r.dst ≠ pkg) ∧ (∀ e, e ∈ t.stl.held → e.2.1 ≠ pkg) ∧ t.mem = s.mem)) ∧
      (w.lost = true ∨ (s.now < w.last + 900000 ∧ (s.dieReaches 0 pkg = true ∨ s.dieReaches 1 pkg = true)) →
        Completes (.pathLoss pkg) s (fun t => OnlyPort s t))) ∧
    (s.stl.watch.find pkg = none → Completes (.keepalive pkg) s (fun t => OnlyPort s t) ∧ Completes (.pathLoss pkg) s (fun t => OnlyPort s t)) ∧
    (s.hat.runs = true → s.nap.classB = false → s.stl.watch = [(pkg, w)] → Completes .keepaliveTick s (fun t =>
      (t.hat.linkAuth.find pkg).isSome = true ∧ LinksAs (s.stlSend (s.dieFor pkg) pkg none .keepalive) t ∧ t.planks = s.planks ∧ t.mem = s.mem)) ∧
    (s.hat.runs = false ∨ s.nap.classB = true → Completes .keepaliveTick s (fun t => OnlyPort s t) ∧
      Completes (.associationRekey die idx) s (fun t => OnlyPort s t)) ∧
    ((die, dst) ∈ s.stl.holds → s.stl.held = [] → (∀ r, r ∈ s.stl.mreqs → r.die = die → r.dst ≠ dst) → Completes (.mreqHoldRelease die dst) s (fun t =>
      t.stl = { s.stl with holds := s.stl.holds.filter (fun e => e != (die, dst)) } ∧ t.outs.stl = s.outs.stl ∧ t.regs = s.regs)) ∧
    (s.stl.held = [] → (∃ r, r ∈ s.stl.mreqs ∧ r.die = die ∧ r.dst = dst) → Completes (.mreqHoldRelease die dst) s (fun t => OnlyPort s t)) ∧
    (at' s.stl.assocs (64 * die + idx) = a → a.live = true → s.hat.runs = true → s.nap.classB = false →
      ((at' s.stl.assocs (64 * die + i)).live = false → (∀ j, j < i → (at' s.stl.assocs (64 * die + j)).live = true) →
        Completes (.associationRekey die idx) s (fun t =>
          t.stl.assocs.find (64 * die + i) = some { a with key := s.free, salt := (Config.drbg s.free).truncate 32, sent := 0, born := s.now } ∧
          t.stl.assocs.find (64 * die + idx) = none ∧ t.links = s.links ∧ t.regs = s.regs)) ∧
      ((∀ j, j < 64 → (at' s.stl.assocs (64 * die + j)).live = true) → Completes (.associationRekey die idx) s (fun t => OnlyPort s t)))) ∧
  (∀ (s : State) (l : Nat), PfOpen s → s.reg rSTL_LINK_SEL 0 = l → l < 40 →
    ((s.link l).st = 3 → Completes .retrain s (fun t => (t.link l).st = 1 ∧ (t.link l).delay = 5 ∧ (∀ k, k ≠ l → t.link k = s.link k) ∧ t.regs = s.regs)) ∧
    ((s.link l).st = 2 → (s.link l).retry = [] → s.stl.queue = [] → s.stl.watch = [] →
      Completes .retrain s (fun t => (t.link l).st = 1 ∧ l ∈ t.stl.removed ∧ (∀ k, k ≠ l → t.link k = s.link k) ∧ t.regs = s.regs ∧
        ((∀ vc, s.hasRoom l 1 vc 1 = true) → ∃ f, t.outs.stl = s.outs.stl ++ [(l, f)] ∧ f.tc = 1 ∧ f.part.map (fun m => m.body) = [.retrain])) ∧
      Completes .disable s (fun t => (t.link l).st = 0 ∧ (t.link l).quiet = true ∧ l ∈ t.stl.removed ∧ (∀ k, k ≠ l → t.link k = s.link k) ∧
        t.regs = s.regs)) ∧
    ((s.link l).st ≠ 2 → Completes .disable s (fun t => (t.link l).st = 0 ∧ (t.link l).quiet = true ∧ (∀ k, k ≠ l → t.link k = s.link k) ∧ t.regs = s.regs)) ∧
    (((s.link l).st = 0 ∨ (s.link l).st = 3) → Completes .enable s (fun t =>
      t.stl.idFixed = true ∧ (t.link l).st = 1 ∧ (∀ k, k ≠ l → t.link k = s.link k) ∧ t.regs = s.regs)) ∧
    ((s.link l).st = 1 ∨ (s.link l).st = 2 → Completes .enable s (fun t => t.stl = { s.stl with idFixed := true } ∧ t.links = s.links ∧ t.regs = s.regs)))

/-- Where no hood is live and no package watched: a class A trip alerts, ends sessions and migration keys, and is recorded; the third is class B; a
class B trip also erases the keys, gates every plank and clears every tile. A watchdog timeout is class B with its cause; a failure of the
random-number test is the error state. A singe record that could not be written is written at a retry that succeeds. (R347, R367, R368, R369.) -/
def Obligations.SingesAndHatterFailures : Prop :=
  ∀ (s : State) (c : Nat) (b : Bool), Powered s → s.liveHoods = [] → s.stl.watch = [] → s.hat.repair = none →
    (s.nap.recPend = [] → s.hat.flash.present = true → s.nap.countKey = true →
      ((c = 1 ∨ c = 2) → s.nap.classA < 2 → Completes (.tamperTrip c) s (fun t =>
        t.nap.classA = s.nap.classA + 1 ∧ t.nap.classB = s.nap.classB ∧ t.nap.alert.getLsbD 5 = true ∧ t.reg rSEC_CAUSE 0 % 2 = 1 ∧
        t.reg rSEC_SINGE_CLASS 0 % 2 = 1 ∧ t.reg rSEC_SINGE_CLASS 0 / 256 = c ∧ t.hat.sessions = [] ∧ t.hat.migKeys = [] ∧ t.stl.assocs = [] ∧ t.hat.linkAuth = [] ∧
        t.hat.keys = s.hat.keys ∧ t.hat.flash = { s.hat.flash with singeA := s.hat.flash.singeA + 1 } ∧ t.planks = s.planks ∧ t.mem = s.mem)) ∧
      ((c = 1 ∨ c = 2) → 2 ≤ s.nap.classA → Completes (.tamperTrip c) s (fun t =>
        t.nap.classB = true ∧ t.reg rSEC_SINGE_CLASS 0 / 256 = 5 ∧ t.hat.keys = [] ∧ ∀ p, p < 128 → (t.plank p).gated = true)) ∧
      ((c = 3 ∨ c = 4) → Completes (.tamperTrip c) s (fun t =>
        t.nap.classB = true ∧ t.reg rSEC_SINGE_CLASS 0 / 2 % 2 = 1 ∧ t.reg rSEC_SINGE_CLASS 0 / 256 = c ∧ t.hat.keys = [] ∧ t.hat.table3 = false ∧
        t.hat.sessions = [] ∧ t.hat.flash = { s.hat.flash with singeB := s.hat.flash.singeB + 1 } ∧ t.nap.countKey = false ∧
        (∀ p, p < 128 → (t.plank p).gated = true) ∧ ∀ n, n < 1664 → t.tile n = default)) ∧
      (s.hat.runs = true → Completes .hatterWatchdogTimeout s (fun t =>
        t.nap.classB = true ∧ t.nap.alert.getLsbD 4 = true ∧ t.reg rSEC_SINGE_CLASS 0 / 256 = 8 ∧ t.hat.keys = []))) ∧
    (s.hat.runs = false → Completes .hatterWatchdogTimeout s (fun t => OnlyPort s t) ∧ Completes .trngHealthFailure s (fun t => OnlyPort s t)) ∧
    (s.hat.runs = true → Completes .trngHealthFailure s (fun t =>
      t.nap.hatFail = true ∧ t.nap.alert.getLsbD 4 = true ∧ t.reg rTOP_START_STATE 0 = 6 ∧ (∀ p, p < 128 → (t.plank p).gated = true) ∧
      t.mem = s.mem ∧ t.hat.keys = s.hat.keys)) ∧
    (s.nap.recFail = true → s.nap.recPend = [b] → s.nap.countKey = true →
      Completes (.singeCountRetry true) s (fun t =>
        t.nap.recPend = [] ∧ t.nap.recFail = false ∧ t.nap.countKey = !b ∧ t.regs = s.regs ∧
        t.hat = { s.hat with flash := { s.hat.flash with
          singeA := s.hat.flash.singeA + (if b then 0 else 1), singeB := s.hat.flash.singeB + (if b then 1 else 0) } }) ∧
      Completes (.singeCountRetry false) s (fun t =>
        t.nap.recPend = [b] ∧ t.nap.recFail = true ∧ t.nap.alert.getLsbD 3 = true ∧ t.hat = s.hat ∧ t.regs = s.regs)) ∧
    (s.nap.recFail = false → Completes (.singeCountRetry b) s (fun t => OnlyPort s t))

/-- step of a state with a command at the front of its queue is exec of that command on the state with the rest of the queue. With an empty queue,
one nanosecond of the counter passes in a powered package and nothing else changes, and nothing at all in one without power: this is the model's
choice (log entry 20). (R6.) -/
def Obligations.StepTakesFrontCommand : Prop :=
  (∀ (s : State) (c : Instr), step { s with pending := c :: s.pending } = exec c s) ∧
  ∀ s : State, s.pending = [] →
    (Powered s → ∃ t, step s = .next t ∧ t.nap.counter = s.nap.counter + 1 ∧
      OnlyPort { s with nap := { s.nap with counter := s.nap.counter + 1 } } t) ∧
    (s.nap.pgood = false → step s = .next s)

/-- State.reset has an empty queue, no power, a zero counter, no alert and every alert enabled, empty memory, works, keys and sessions, every
register at the reset value of the map, default tiles, no hood, link or ring in use, and settled interrupt outputs. That memory lists nothing, and
the value of registers for which the spec states none, are the model's choices (log entries 2 and 33). (R5, R6, R234, R395.) -/
def Obligations.ResetStateIsUnpowered : Prop :=
  State.reset.pending = [] ∧ State.reset.nap.pgood = false ∧ State.reset.nap.counter = 0 ∧ State.reset.nap.alert = 0 ∧
  State.reset.nap.alertEn = 0x7FF ∧ State.reset.mem = [] ∧ State.reset.works = [] ∧ State.reset.hat.keys = [] ∧ State.reset.hat.sessions = [] ∧
  (∀ off i, i < 8192 → State.reset.reg off i = (regDefault (regKey off i)).toNat) ∧
  State.reset.reg rSTL_PKG_ID 0 = 0 ∧ State.reset.reg rSTL_TC_WEIGHT 0 = 0x4666 ∧ State.reset.reg rINT_FUNC_CTL 0 = 0 ∧
  (∀ i, State.reset.tile i = default) ∧ (∀ h, (State.reset.hood h).created = false) ∧ (∀ l, (State.reset.link l).st = 0) ∧
  (∀ r, (State.reset.ring r).live = false) ∧ Settled State.reset

/-- For every state whose outputs are settled, a step that gives a next state gives a settled one: ALERT_N is low exactly while an enabled alert
stands, INTA of each function follows its three conditions, and a function whose summary reads zero has no pending bit and no held message. (R230,
R231, R232, R234.) -/
def Obligations.InterruptOutputsStaySettled : Prop :=
  ∀ s t : State, Settled s → step s = .next t → Settled t

/-- For every command and state: a well-formed command gives a next state with the waiting commands as they were; one that names no unit faults;
none is refused; and without PGOOD_NAP a well-formed command other than COLD_START changes nothing. (R9, R410.) -/
def Obligations.EveryCommandCompletes : Prop :=
  ∀ (c : Instr) (s : State),
    (c.wf = true → ∃ t, exec c s = .next t ∧ t.pending = s.pending) ∧
    (c.wf = false → exec c s = .fault .noSuchUnit) ∧
    (c.wf = true → s.nap.pgood = false → (∀ a b d e f, c ≠ .coldStart a b d e f) → exec c s = .next s)

/-- For any list of products with finite operands, the window w after them and the count n of those truncated satisfy w·2^λ ≤ sum < (w + n)·2^λ,
with equality and no flag when n is 0 and STK set when not; the element that holds a window in range gives it back. Merges with equal anchors add
the windows modulo 2^112 and OR the flags, commutatively and associatively; with different anchors the smaller is shifted right with STK for lost
bits and the sum takes the larger. (R43.) -/
def Obligations.ReductionErrorBound : Prop :=
  (∀ (lam k : Int) (l : List (Opnd × Opnd)), 0 ≤ lam + k → (∀ p, p ∈ l → plainPair p = true ∧ 0 ≤ prodExp p + k) →
    let w := (macAll lam (0, 0) l).1
    let fl := (macAll lam (0, 0) l).2
    let n : Int := ((l.filter (truncatedAt lam)).length : Int)
    let u : Int := 2 ^ (lam + k).toNat
    w * u ≤ exactSum k l ∧ (n ≠ 0 → exactSum k l < (w + n) * u) ∧ (fl &&& eStk = 0 → n = 0 ∧ exactSum k l = w * u) ∧
    (n = 0 → fl = 0) ∧ (n ≠ 0 → fl = eStk) ∧
    (-(2 ^ 111) ≤ w → w < 2 ^ 111 → -512 ≤ lam → lam < 512 →
      (mkElem fl (anchorOf lam) w).win = w ∧ (mkElem fl (anchorOf lam) w).lam = lam ∧ (mkElem fl (anchorOf lam) w).flags = fl)) ∧
  (∀ x y z : Elem, x.anchor = y.anchor →
    (mergeEl x y).flags = x.flags ||| y.flags ∧ (mergeEl x y).anchor = x.anchor ∧
    bits (mergeEl x y).toNat 0 112 = (bits x.toNat 0 112 + bits y.toNat 0 112) % 2 ^ 112 ∧
    mergeEl x y = mergeEl y x ∧ (y.anchor = z.anchor → mergeEl (mergeEl x y) z = mergeEl x (mergeEl y z))) ∧
  (∀ x y : Elem, x.anchor < y.anchor →
    (mergeEl x y).anchor = y.anchor ∧ mergeEl x y = mergeEl y x ∧
    bits (mergeEl x y).toNat 0 112 = ((y.win + x.win / 2 ^ (y.anchor - x.anchor)) % 2 ^ 112).toNat ∧
    (mergeEl x y).flags = x.flags ||| y.flags ||| (if x.win % 2 ^ (y.anchor - x.anchor) = 0 then 0 else eStk))

/-- For every slot t and element n of a section of a region of head size 64, 128, 192 or 256: the attention engine reads the element, its group's
scale and (KV4) offset at the bytes of the layout, the nibble by the parity of n, and the codec writes the codes, scales and offsets of a token
there. (R61, R62.) -/
def Obligations.CodecSectionLayout : Prop :=
  ∀ (g : Region) (sec : List PB) (t n : Nat) (gs : List Group), (g.d = 64 ∨ g.d = 128 ∨ g.d = 192 ∨ g.d = 256) → t < 64 → n < g.d → sec.length = g.sec →
    gs.length = g.d / 64 → (∀ x, x ∈ gs → x.els.length = 64 ∧ ∀ c, c ∈ x.els → c < (if g.kv4 then 16 else 256)) →
    let at_ := fun (o : Nat) => (sec.getD o (0, false)).1.toNat
    let gr := g.d / 64 * t + n / 64
    (g.kv4 = false →
      ((g.expand sec t).map (fun p => p.1))[n]? = some (expand8 (at_ (g.d * t + n)) (at_ (64 * g.d + gr)) g.sigma) ∧
      g.writes t gs = [(g.d * t, (gs.flatMap (fun x => x.els)).map (BitVec.ofNat 8)),
        (64 * g.d + g.d / 64 * t, gs.map (fun x => BitVec.ofNat 8 x.scale))]) ∧
    (g.kv4 = true →
      ((g.expand sec t).map (fun p => p.1))[n]? = some (expand4 (if n % 2 = 0 then at_ (g.d / 2 * t + n / 2) % 16 else at_ (g.d / 2 * t + n / 2) / 16)
        (at_ (32 * g.d + gr)) (at_ (32 * g.d + 64 * (g.d / 64) + gr)) g.sigma) ∧
      ∃ codes, g.writes t gs = [(g.d / 2 * t, codes), (32 * g.d + g.d / 64 * t, gs.map (fun x => BitVec.ofNat 8 x.scale)),
          (32 * g.d + 64 * (g.d / 64) + g.d / 64 * t, gs.map (fun x => BitVec.ofNat 8 x.off))] ∧ codes.length = g.d / 2 ∧
        ∀ c, (gs.flatMap (fun x => x.els))[n]? = some c →
          c = (if n % 2 = 0 then (codes.getD (n / 2) 0).toNat % 16 else (codes.getD (n / 2) 0).toNat / 16))
end

