-- ==== Sys2Proof/Laws/State.lean ====
section
/-!
SUPPORT. Laws/State.lean: one lemma per field of State for each update of one unit or register, so that no proof unfolds a record update.
-/
namespace Sys2Proof.Machine

variable (s : State)

@[simp] theorem State.modFn_pending (k : Nat) (f : Fn → Fn) : (s.modFn k f).pending = s.pending := rfl
@[simp] theorem State.modFn_free (k : Nat) (f : Fn → Fn) : (s.modFn k f).free = s.free := rfl
@[simp] theorem State.modFn_nap (k : Nat) (f : Fn → Fn) : (s.modFn k f).nap = s.nap := rfl
@[simp] theorem State.modFn_hat (k : Nat) (f : Fn → Fn) : (s.modFn k f).hat = s.hat := rfl
@[simp] theorem State.modFn_regs (k : Nat) (f : Fn → Fn) : (s.modFn k f).regs = s.regs := rfl
@[simp] theorem State.modFn_halves (k : Nat) (f : Fn → Fn) : (s.modFn k f).halves = s.halves := rfl
@[simp] theorem State.modFn_hoods (k : Nat) (f : Fn → Fn) : (s.modFn k f).hoods = s.hoods := rfl
@[simp] theorem State.modFn_ctxs (k : Nat) (f : Fn → Fn) : (s.modFn k f).ctxs = s.ctxs := rfl
@[simp] theorem State.modFn_rings (k : Nat) (f : Fn → Fn) : (s.modFn k f).rings = s.rings := rfl
@[simp] theorem State.modFn_works (k : Nat) (f : Fn → Fn) : (s.modFn k f).works = s.works := rfl
@[simp] theorem State.modFn_waits (k : Nat) (f : Fn → Fn) : (s.modFn k f).waits = s.waits := rfl
@[simp] theorem State.modFn_pats (k : Nat) (f : Fn → Fn) : (s.modFn k f).pats = s.pats := rfl
@[simp] theorem State.modFn_front (k : Nat) (f : Fn → Fn) : (s.modFn k f).front = s.front := rfl
@[simp] theorem State.modFn_bars (k : Nat) (f : Fn → Fn) : (s.modFn k f).bars = s.bars := rfl
@[simp] theorem State.modFn_tiles (k : Nat) (f : Fn → Fn) : (s.modFn k f).tiles = s.tiles := rfl
@[simp] theorem State.modFn_saves (k : Nat) (f : Fn → Fn) : (s.modFn k f).saves = s.saves := rfl
@[simp] theorem State.modFn_sites (k : Nat) (f : Fn → Fn) : (s.modFn k f).sites = s.sites := rfl
@[simp] theorem State.modFn_planks (k : Nat) (f : Fn → Fn) : (s.modFn k f).planks = s.planks := rfl
@[simp] theorem State.modFn_chans (k : Nat) (f : Fn → Fn) : (s.modFn k f).chans = s.chans := rfl
@[simp] theorem State.modFn_memStacks (k : Nat) (f : Fn → Fn) : (s.modFn k f).memStacks = s.memStacks := rfl
@[simp] theorem State.modFn_mem (k : Nat) (f : Fn → Fn) : (s.modFn k f).mem = s.mem := rfl
@[simp] theorem State.modFn_poison (k : Nat) (f : Fn → Fn) : (s.modFn k f).poison = s.poison := rfl
@[simp] theorem State.modFn_hostMem (k : Nat) (f : Fn → Fn) : (s.modFn k f).hostMem = s.hostMem := rfl
@[simp] theorem State.modFn_farMem (k : Nat) (f : Fn → Fn) : (s.modFn k f).farMem = s.farMem := rfl
@[simp] theorem State.modFn_farPsn (k : Nat) (f : Fn → Fn) : (s.modFn k f).farPsn = s.farPsn := rfl
@[simp] theorem State.modFn_bands (k : Nat) (f : Fn → Fn) : (s.modFn k f).bands = s.bands := rfl
@[simp] theorem State.modFn_coh (k : Nat) (f : Fn → Fn) : (s.modFn k f).coh = s.coh := rfl
@[simp] theorem State.modFn_xlt (k : Nat) (f : Fn → Fn) : (s.modFn k f).xlt = s.xlt := rfl
@[simp] theorem State.modFn_links (k : Nat) (f : Fn → Fn) : (s.modFn k f).links = s.links := rfl
@[simp] theorem State.modFn_stl (k : Nat) (f : Fn → Fn) : (s.modFn k f).stl = s.stl := rfl
@[simp] theorem State.modFn_lender (k : Nat) (f : Fn → Fn) : (s.modFn k f).lender = s.lender := rfl
@[simp] theorem State.modFn_rots (k : Nat) (f : Fn → Fn) : (s.modFn k f).rots = s.rots := rfl
@[simp] theorem State.modFn_power (k : Nat) (f : Fn → Fn) : (s.modFn k f).power = s.power := rfl
@[simp] theorem State.modFn_thermal (k : Nat) (f : Fn → Fn) : (s.modFn k f).thermal = s.thermal := rfl
@[simp] theorem State.modFn_outs (k : Nat) (f : Fn → Fn) : (s.modFn k f).outs = s.outs := rfl

@[simp] theorem State.modHood_pending (k : Nat) (f : Hood → Hood) : (s.modHood k f).pending = s.pending := rfl
@[simp] theorem State.modHood_free (k : Nat) (f : Hood → Hood) : (s.modHood k f).free = s.free := rfl
@[simp] theorem State.modHood_nap (k : Nat) (f : Hood → Hood) : (s.modHood k f).nap = s.nap := rfl
@[simp] theorem State.modHood_hat (k : Nat) (f : Hood → Hood) : (s.modHood k f).hat = s.hat := rfl
@[simp] theorem State.modHood_regs (k : Nat) (f : Hood → Hood) : (s.modHood k f).regs = s.regs := rfl
@[simp] theorem State.modHood_halves (k : Nat) (f : Hood → Hood) : (s.modHood k f).halves = s.halves := rfl
@[simp] theorem State.modHood_fns (k : Nat) (f : Hood → Hood) : (s.modHood k f).fns = s.fns := rfl
@[simp] theorem State.modHood_ctxs (k : Nat) (f : Hood → Hood) : (s.modHood k f).ctxs = s.ctxs := rfl
@[simp] theorem State.modHood_rings (k : Nat) (f : Hood → Hood) : (s.modHood k f).rings = s.rings := rfl
@[simp] theorem State.modHood_works (k : Nat) (f : Hood → Hood) : (s.modHood k f).works = s.works := rfl
@[simp] theorem State.modHood_waits (k : Nat) (f : Hood → Hood) : (s.modHood k f).waits = s.waits := rfl
@[simp] theorem State.modHood_pats (k : Nat) (f : Hood → Hood) : (s.modHood k f).pats = s.pats := rfl
@[simp] theorem State.modHood_front (k : Nat) (f : Hood → Hood) : (s.modHood k f).front = s.front := rfl
@[simp] theorem State.modHood_bars (k : Nat) (f : Hood → Hood) : (s.modHood k f).bars = s.bars := rfl
@[simp] theorem State.modHood_tiles (k : Nat) (f : Hood → Hood) : (s.modHood k f).tiles = s.tiles := rfl
@[simp] theorem State.modHood_saves (k : Nat) (f : Hood → Hood) : (s.modHood k f).saves = s.saves := rfl
@[simp] theorem State.modHood_sites (k : Nat) (f : Hood → Hood) : (s.modHood k f).sites = s.sites := rfl
@[simp] theorem State.modHood_planks (k : Nat) (f : Hood → Hood) : (s.modHood k f).planks = s.planks := rfl
@[simp] theorem State.modHood_chans (k : Nat) (f : Hood → Hood) : (s.modHood k f).chans = s.chans := rfl
@[simp] theorem State.modHood_memStacks (k : Nat) (f : Hood → Hood) : (s.modHood k f).memStacks = s.memStacks := rfl
@[simp] theorem State.modHood_mem (k : Nat) (f : Hood → Hood) : (s.modHood k f).mem = s.mem := rfl
@[simp] theorem State.modHood_poison (k : Nat) (f : Hood → Hood) : (s.modHood k f).poison = s.poison := rfl
@[simp] theorem State.modHood_hostMem (k : Nat) (f : Hood → Hood) : (s.modHood k f).hostMem = s.hostMem := rfl
@[simp] theorem State.modHood_farMem (k : Nat) (f : Hood → Hood) : (s.modHood k f).farMem = s.farMem := rfl
@[simp] theorem State.modHood_farPsn (k : Nat) (f : Hood → Hood) : (s.modHood k f).farPsn = s.farPsn := rfl
@[simp] theorem State.modHood_bands (k : Nat) (f : Hood → Hood) : (s.modHood k f).bands = s.bands := rfl
@[simp] theorem State.modHood_coh (k : Nat) (f : Hood → Hood) : (s.modHood k f).coh = s.coh := rfl
@[simp] theorem State.modHood_xlt (k : Nat) (f : Hood → Hood) : (s.modHood k f).xlt = s.xlt := rfl
@[simp] theorem State.modHood_links (k : Nat) (f : Hood → Hood) : (s.modHood k f).links = s.links := rfl
@[simp] theorem State.modHood_stl (k : Nat) (f : Hood → Hood) : (s.modHood k f).stl = s.stl := rfl
@[simp] theorem State.modHood_lender (k : Nat) (f : Hood → Hood) : (s.modHood k f).lender = s.lender := rfl
@[simp] theorem State.modHood_rots (k : Nat) (f : Hood → Hood) : (s.modHood k f).rots = s.rots := rfl
@[simp] theorem State.modHood_power (k : Nat) (f : Hood → Hood) : (s.modHood k f).power = s.power := rfl
@[simp] theorem State.modHood_thermal (k : Nat) (f : Hood → Hood) : (s.modHood k f).thermal = s.thermal := rfl
@[simp] theorem State.modHood_outs (k : Nat) (f : Hood → Hood) : (s.modHood k f).outs = s.outs := rfl

@[simp] theorem State.modCtx_pending (k : Nat) (f : Ctx → Ctx) : (s.modCtx k f).pending = s.pending := rfl
@[simp] theorem State.modCtx_free (k : Nat) (f : Ctx → Ctx) : (s.modCtx k f).free = s.free := rfl
@[simp] theorem State.modCtx_nap (k : Nat) (f : Ctx → Ctx) : (s.modCtx k f).nap = s.nap := rfl
@[simp] theorem State.modCtx_hat (k : Nat) (f : Ctx → Ctx) : (s.modCtx k f).hat = s.hat := rfl
@[simp] theorem State.modCtx_regs (k : Nat) (f : Ctx → Ctx) : (s.modCtx k f).regs = s.regs := rfl
@[simp] theorem State.modCtx_halves (k : Nat) (f : Ctx → Ctx) : (s.modCtx k f).halves = s.halves := rfl
@[simp] theorem State.modCtx_fns (k : Nat) (f : Ctx → Ctx) : (s.modCtx k f).fns = s.fns := rfl
@[simp] theorem State.modCtx_hoods (k : Nat) (f : Ctx → Ctx) : (s.modCtx k f).hoods = s.hoods := rfl
@[simp] theorem State.modCtx_rings (k : Nat) (f : Ctx → Ctx) : (s.modCtx k f).rings = s.rings := rfl
@[simp] theorem State.modCtx_works (k : Nat) (f : Ctx → Ctx) : (s.modCtx k f).works = s.works := rfl
@[simp] theorem State.modCtx_waits (k : Nat) (f : Ctx → Ctx) : (s.modCtx k f).waits = s.waits := rfl
@[simp] theorem State.modCtx_pats (k : Nat) (f : Ctx → Ctx) : (s.modCtx k f).pats = s.pats := rfl
@[simp] theorem State.modCtx_front (k : Nat) (f : Ctx → Ctx) : (s.modCtx k f).front = s.front := rfl
@[simp] theorem State.modCtx_bars (k : Nat) (f : Ctx → Ctx) : (s.modCtx k f).bars = s.bars := rfl
@[simp] theorem State.modCtx_tiles (k : Nat) (f : Ctx → Ctx) : (s.modCtx k f).tiles = s.tiles := rfl
@[simp] theorem State.modCtx_saves (k : Nat) (f : Ctx → Ctx) : (s.modCtx k f).saves = s.saves := rfl
@[simp] theorem State.modCtx_sites (k : Nat) (f : Ctx → Ctx) : (s.modCtx k f).sites = s.sites := rfl
@[simp] theorem State.modCtx_planks (k : Nat) (f : Ctx → Ctx) : (s.modCtx k f).planks = s.planks := rfl
@[simp] theorem State.modCtx_chans (k : Nat) (f : Ctx → Ctx) : (s.modCtx k f).chans = s.chans := rfl
@[simp] theorem State.modCtx_memStacks (k : Nat) (f : Ctx → Ctx) : (s.modCtx k f).memStacks = s.memStacks := rfl
@[simp] theorem State.modCtx_mem (k : Nat) (f : Ctx → Ctx) : (s.modCtx k f).mem = s.mem := rfl
@[simp] theorem State.modCtx_poison (k : Nat) (f : Ctx → Ctx) : (s.modCtx k f).poison = s.poison := rfl
@[simp] theorem State.modCtx_hostMem (k : Nat) (f : Ctx → Ctx) : (s.modCtx k f).hostMem = s.hostMem := rfl
@[simp] theorem State.modCtx_farMem (k : Nat) (f : Ctx → Ctx) : (s.modCtx k f).farMem = s.farMem := rfl
@[simp] theorem State.modCtx_farPsn (k : Nat) (f : Ctx → Ctx) : (s.modCtx k f).farPsn = s.farPsn := rfl
@[simp] theorem State.modCtx_bands (k : Nat) (f : Ctx → Ctx) : (s.modCtx k f).bands = s.bands := rfl
@[simp] theorem State.modCtx_coh (k : Nat) (f : Ctx → Ctx) : (s.modCtx k f).coh = s.coh := rfl
@[simp] theorem State.modCtx_xlt (k : Nat) (f : Ctx → Ctx) : (s.modCtx k f).xlt = s.xlt := rfl
@[simp] theorem State.modCtx_links (k : Nat) (f : Ctx → Ctx) : (s.modCtx k f).links = s.links := rfl
@[simp] theorem State.modCtx_stl (k : Nat) (f : Ctx → Ctx) : (s.modCtx k f).stl = s.stl := rfl
@[simp] theorem State.modCtx_lender (k : Nat) (f : Ctx → Ctx) : (s.modCtx k f).lender = s.lender := rfl
@[simp] theorem State.modCtx_rots (k : Nat) (f : Ctx → Ctx) : (s.modCtx k f).rots = s.rots := rfl
@[simp] theorem State.modCtx_power (k : Nat) (f : Ctx → Ctx) : (s.modCtx k f).power = s.power := rfl
@[simp] theorem State.modCtx_thermal (k : Nat) (f : Ctx → Ctx) : (s.modCtx k f).thermal = s.thermal := rfl
@[simp] theorem State.modCtx_outs (k : Nat) (f : Ctx → Ctx) : (s.modCtx k f).outs = s.outs := rfl

@[simp] theorem State.modRing_pending (k : Nat) (f : Ring → Ring) : (s.modRing k f).pending = s.pending := rfl
@[simp] theorem State.modRing_free (k : Nat) (f : Ring → Ring) : (s.modRing k f).free = s.free := rfl
@[simp] theorem State.modRing_nap (k : Nat) (f : Ring → Ring) : (s.modRing k f).nap = s.nap := rfl
@[simp] theorem State.modRing_hat (k : Nat) (f : Ring → Ring) : (s.modRing k f).hat = s.hat := rfl
@[simp] theorem State.modRing_regs (k : Nat) (f : Ring → Ring) : (s.modRing k f).regs = s.regs := rfl
@[simp] theorem State.modRing_halves (k : Nat) (f : Ring → Ring) : (s.modRing k f).halves = s.halves := rfl
@[simp] theorem State.modRing_fns (k : Nat) (f : Ring → Ring) : (s.modRing k f).fns = s.fns := rfl
@[simp] theorem State.modRing_hoods (k : Nat) (f : Ring → Ring) : (s.modRing k f).hoods = s.hoods := rfl
@[simp] theorem State.modRing_ctxs (k : Nat) (f : Ring → Ring) : (s.modRing k f).ctxs = s.ctxs := rfl
@[simp] theorem State.modRing_works (k : Nat) (f : Ring → Ring) : (s.modRing k f).works = s.works := rfl
@[simp] theorem State.modRing_waits (k : Nat) (f : Ring → Ring) : (s.modRing k f).waits = s.waits := rfl
@[simp] theorem State.modRing_pats (k : Nat) (f : Ring → Ring) : (s.modRing k f).pats = s.pats := rfl
@[simp] theorem State.modRing_front (k : Nat) (f : Ring → Ring) : (s.modRing k f).front = s.front := rfl
@[simp] theorem State.modRing_bars (k : Nat) (f : Ring → Ring) : (s.modRing k f).bars = s.bars := rfl
@[simp] theorem State.modRing_tiles (k : Nat) (f : Ring → Ring) : (s.modRing k f).tiles = s.tiles := rfl
@[simp] theorem State.modRing_saves (k : Nat) (f : Ring → Ring) : (s.modRing k f).saves = s.saves := rfl
@[simp] theorem State.modRing_sites (k : Nat) (f : Ring → Ring) : (s.modRing k f).sites = s.sites := rfl
@[simp] theorem State.modRing_planks (k : Nat) (f : Ring → Ring) : (s.modRing k f).planks = s.planks := rfl
@[simp] theorem State.modRing_chans (k : Nat) (f : Ring → Ring) : (s.modRing k f).chans = s.chans := rfl
@[simp] theorem State.modRing_memStacks (k : Nat) (f : Ring → Ring) : (s.modRing k f).memStacks = s.memStacks := rfl
@[simp] theorem State.modRing_mem (k : Nat) (f : Ring → Ring) : (s.modRing k f).mem = s.mem := rfl
@[simp] theorem State.modRing_poison (k : Nat) (f : Ring → Ring) : (s.modRing k f).poison = s.poison := rfl
@[simp] theorem State.modRing_hostMem (k : Nat) (f : Ring → Ring) : (s.modRing k f).hostMem = s.hostMem := rfl
@[simp] theorem State.modRing_farMem (k : Nat) (f : Ring → Ring) : (s.modRing k f).farMem = s.farMem := rfl
@[simp] theorem State.modRing_farPsn (k : Nat) (f : Ring → Ring) : (s.modRing k f).farPsn = s.farPsn := rfl
@[simp] theorem State.modRing_bands (k : Nat) (f : Ring → Ring) : (s.modRing k f).bands = s.bands := rfl
@[simp] theorem State.modRing_coh (k : Nat) (f : Ring → Ring) : (s.modRing k f).coh = s.coh := rfl
@[simp] theorem State.modRing_xlt (k : Nat) (f : Ring → Ring) : (s.modRing k f).xlt = s.xlt := rfl
@[simp] theorem State.modRing_links (k : Nat) (f : Ring → Ring) : (s.modRing k f).links = s.links := rfl
@[simp] theorem State.modRing_stl (k : Nat) (f : Ring → Ring) : (s.modRing k f).stl = s.stl := rfl
@[simp] theorem State.modRing_lender (k : Nat) (f : Ring → Ring) : (s.modRing k f).lender = s.lender := rfl
@[simp] theorem State.modRing_rots (k : Nat) (f : Ring → Ring) : (s.modRing k f).rots = s.rots := rfl
@[simp] theorem State.modRing_power (k : Nat) (f : Ring → Ring) : (s.modRing k f).power = s.power := rfl
@[simp] theorem State.modRing_thermal (k : Nat) (f : Ring → Ring) : (s.modRing k f).thermal = s.thermal := rfl
@[simp] theorem State.modRing_outs (k : Nat) (f : Ring → Ring) : (s.modRing k f).outs = s.outs := rfl

@[simp] theorem State.modPat_pending (k : Nat) (f : Pattern → Pattern) : (s.modPat k f).pending = s.pending := rfl
@[simp] theorem State.modPat_free (k : Nat) (f : Pattern → Pattern) : (s.modPat k f).free = s.free := rfl
@[simp] theorem State.modPat_nap (k : Nat) (f : Pattern → Pattern) : (s.modPat k f).nap = s.nap := rfl
@[simp] theorem State.modPat_hat (k : Nat) (f : Pattern → Pattern) : (s.modPat k f).hat = s.hat := rfl
@[simp] theorem State.modPat_regs (k : Nat) (f : Pattern → Pattern) : (s.modPat k f).regs = s.regs := rfl
@[simp] theorem State.modPat_halves (k : Nat) (f : Pattern → Pattern) : (s.modPat k f).halves = s.halves := rfl
@[simp] theorem State.modPat_fns (k : Nat) (f : Pattern → Pattern) : (s.modPat k f).fns = s.fns := rfl
@[simp] theorem State.modPat_hoods (k : Nat) (f : Pattern → Pattern) : (s.modPat k f).hoods = s.hoods := rfl
@[simp] theorem State.modPat_ctxs (k : Nat) (f : Pattern → Pattern) : (s.modPat k f).ctxs = s.ctxs := rfl
@[simp] theorem State.modPat_rings (k : Nat) (f : Pattern → Pattern) : (s.modPat k f).rings = s.rings := rfl
@[simp] theorem State.modPat_works (k : Nat) (f : Pattern → Pattern) : (s.modPat k f).works = s.works := rfl
@[simp] theorem State.modPat_waits (k : Nat) (f : Pattern → Pattern) : (s.modPat k f).waits = s.waits := rfl
@[simp] theorem State.modPat_front (k : Nat) (f : Pattern → Pattern) : (s.modPat k f).front = s.front := rfl
@[simp] theorem State.modPat_bars (k : Nat) (f : Pattern → Pattern) : (s.modPat k f).bars = s.bars := rfl
@[simp] theorem State.modPat_tiles (k : Nat) (f : Pattern → Pattern) : (s.modPat k f).tiles = s.tiles := rfl
@[simp] theorem State.modPat_saves (k : Nat) (f : Pattern → Pattern) : (s.modPat k f).saves = s.saves := rfl
@[simp] theorem State.modPat_sites (k : Nat) (f : Pattern → Pattern) : (s.modPat k f).sites = s.sites := rfl
@[simp] theorem State.modPat_planks (k : Nat) (f : Pattern → Pattern) : (s.modPat k f).planks = s.planks := rfl
@[simp] theorem State.modPat_chans (k : Nat) (f : Pattern → Pattern) : (s.modPat k f).chans = s.chans := rfl
@[simp] theorem State.modPat_memStacks (k : Nat) (f : Pattern → Pattern) : (s.modPat k f).memStacks = s.memStacks := rfl
@[simp] theorem State.modPat_mem (k : Nat) (f : Pattern → Pattern) : (s.modPat k f).mem = s.mem := rfl
@[simp] theorem State.modPat_poison (k : Nat) (f : Pattern → Pattern) : (s.modPat k f).poison = s.poison := rfl
@[simp] theorem State.modPat_hostMem (k : Nat) (f : Pattern → Pattern) : (s.modPat k f).hostMem = s.hostMem := rfl
@[simp] theorem State.modPat_farMem (k : Nat) (f : Pattern → Pattern) : (s.modPat k f).farMem = s.farMem := rfl
@[simp] theorem State.modPat_farPsn (k : Nat) (f : Pattern → Pattern) : (s.modPat k f).farPsn = s.farPsn := rfl
@[simp] theorem State.modPat_bands (k : Nat) (f : Pattern → Pattern) : (s.modPat k f).bands = s.bands := rfl
@[simp] theorem State.modPat_coh (k : Nat) (f : Pattern → Pattern) : (s.modPat k f).coh = s.coh := rfl
@[simp] theorem State.modPat_xlt (k : Nat) (f : Pattern → Pattern) : (s.modPat k f).xlt = s.xlt := rfl
@[simp] theorem State.modPat_links (k : Nat) (f : Pattern → Pattern) : (s.modPat k f).links = s.links := rfl
@[simp] theorem State.modPat_stl (k : Nat) (f : Pattern → Pattern) : (s.modPat k f).stl = s.stl := rfl
@[simp] theorem State.modPat_lender (k : Nat) (f : Pattern → Pattern) : (s.modPat k f).lender = s.lender := rfl
@[simp] theorem State.modPat_rots (k : Nat) (f : Pattern → Pattern) : (s.modPat k f).rots = s.rots := rfl
@[simp] theorem State.modPat_power (k : Nat) (f : Pattern → Pattern) : (s.modPat k f).power = s.power := rfl
@[simp] theorem State.modPat_thermal (k : Nat) (f : Pattern → Pattern) : (s.modPat k f).thermal = s.thermal := rfl
@[simp] theorem State.modPat_outs (k : Nat) (f : Pattern → Pattern) : (s.modPat k f).outs = s.outs := rfl

@[simp] theorem State.modBar_pending (k : Nat) (f : Barrier → Barrier) : (s.modBar k f).pending = s.pending := rfl
@[simp] theorem State.modBar_free (k : Nat) (f : Barrier → Barrier) : (s.modBar k f).free = s.free := rfl
@[simp] theorem State.modBar_nap (k : Nat) (f : Barrier → Barrier) : (s.modBar k f).nap = s.nap := rfl
@[simp] theorem State.modBar_hat (k : Nat) (f : Barrier → Barrier) : (s.modBar k f).hat = s.hat := rfl
@[simp] theorem State.modBar_regs (k : Nat) (f : Barrier → Barrier) : (s.modBar k f).regs = s.regs := rfl
@[simp] theorem State.modBar_halves (k : Nat) (f : Barrier → Barrier) : (s.modBar k f).halves = s.halves := rfl
@[simp] theorem State.modBar_fns (k : Nat) (f : Barrier → Barrier) : (s.modBar k f).fns = s.fns := rfl
@[simp] theorem State.modBar_hoods (k : Nat) (f : Barrier → Barrier) : (s.modBar k f).hoods = s.hoods := rfl
@[simp] theorem State.modBar_ctxs (k : Nat) (f : Barrier → Barrier) : (s.modBar k f).ctxs = s.ctxs := rfl
@[simp] theorem State.modBar_rings (k : Nat) (f : Barrier → Barrier) : (s.modBar k f).rings = s.rings := rfl
@[simp] theorem State.modBar_works (k : Nat) (f : Barrier → Barrier) : (s.modBar k f).works = s.works := rfl
@[simp] theorem State.modBar_waits (k : Nat) (f : Barrier → Barrier) : (s.modBar k f).waits = s.waits := rfl
@[simp] theorem State.modBar_pats (k : Nat) (f : Barrier → Barrier) : (s.modBar k f).pats = s.pats := rfl
@[simp] theorem State.modBar_front (k : Nat) (f : Barrier → Barrier) : (s.modBar k f).front = s.front := rfl
@[simp] theorem State.modBar_tiles (k : Nat) (f : Barrier → Barrier) : (s.modBar k f).tiles = s.tiles := rfl
@[simp] theorem State.modBar_saves (k : Nat) (f : Barrier → Barrier) : (s.modBar k f).saves = s.saves := rfl
@[simp] theorem State.modBar_sites (k : Nat) (f : Barrier → Barrier) : (s.modBar k f).sites = s.sites := rfl
@[simp] theorem State.modBar_planks (k : Nat) (f : Barrier → Barrier) : (s.modBar k f).planks = s.planks := rfl
@[simp] theorem State.modBar_chans (k : Nat) (f : Barrier → Barrier) : (s.modBar k f).chans = s.chans := rfl
@[simp] theorem State.modBar_memStacks (k : Nat) (f : Barrier → Barrier) : (s.modBar k f).memStacks = s.memStacks := rfl
@[simp] theorem State.modBar_mem (k : Nat) (f : Barrier → Barrier) : (s.modBar k f).mem = s.mem := rfl
@[simp] theorem State.modBar_poison (k : Nat) (f : Barrier → Barrier) : (s.modBar k f).poison = s.poison := rfl
@[simp] theorem State.modBar_hostMem (k : Nat) (f : Barrier → Barrier) : (s.modBar k f).hostMem = s.hostMem := rfl
@[simp] theorem State.modBar_farMem (k : Nat) (f : Barrier → Barrier) : (s.modBar k f).farMem = s.farMem := rfl
@[simp] theorem State.modBar_farPsn (k : Nat) (f : Barrier → Barrier) : (s.modBar k f).farPsn = s.farPsn := rfl
@[simp] theorem State.modBar_bands (k : Nat) (f : Barrier → Barrier) : (s.modBar k f).bands = s.bands := rfl
@[simp] theorem State.modBar_coh (k : Nat) (f : Barrier → Barrier) : (s.modBar k f).coh = s.coh := rfl
@[simp] theorem State.modBar_xlt (k : Nat) (f : Barrier → Barrier) : (s.modBar k f).xlt = s.xlt := rfl
@[simp] theorem State.modBar_links (k : Nat) (f : Barrier → Barrier) : (s.modBar k f).links = s.links := rfl
@[simp] theorem State.modBar_stl (k : Nat) (f : Barrier → Barrier) : (s.modBar k f).stl = s.stl := rfl
@[simp] theorem State.modBar_lender (k : Nat) (f : Barrier → Barrier) : (s.modBar k f).lender = s.lender := rfl
@[simp] theorem State.modBar_rots (k : Nat) (f : Barrier → Barrier) : (s.modBar k f).rots = s.rots := rfl
@[simp] theorem State.modBar_power (k : Nat) (f : Barrier → Barrier) : (s.modBar k f).power = s.power := rfl
@[simp] theorem State.modBar_thermal (k : Nat) (f : Barrier → Barrier) : (s.modBar k f).thermal = s.thermal := rfl
@[simp] theorem State.modBar_outs (k : Nat) (f : Barrier → Barrier) : (s.modBar k f).outs = s.outs := rfl

@[simp] theorem State.modTile_pending (k : Nat) (f : Tile → Tile) : (s.modTile k f).pending = s.pending := rfl
@[simp] theorem State.modTile_free (k : Nat) (f : Tile → Tile) : (s.modTile k f).free = s.free := rfl
@[simp] theorem State.modTile_nap (k : Nat) (f : Tile → Tile) : (s.modTile k f).nap = s.nap := rfl
@[simp] theorem State.modTile_hat (k : Nat) (f : Tile → Tile) : (s.modTile k f).hat = s.hat := rfl
@[simp] theorem State.modTile_regs (k : Nat) (f : Tile → Tile) : (s.modTile k f).regs = s.regs := rfl
@[simp] theorem State.modTile_halves (k : Nat) (f : Tile → Tile) : (s.modTile k f).halves = s.halves := rfl
@[simp] theorem State.modTile_fns (k : Nat) (f : Tile → Tile) : (s.modTile k f).fns = s.fns := rfl
@[simp] theorem State.modTile_hoods (k : Nat) (f : Tile → Tile) : (s.modTile k f).hoods = s.hoods := rfl
@[simp] theorem State.modTile_ctxs (k : Nat) (f : Tile → Tile) : (s.modTile k f).ctxs = s.ctxs := rfl
@[simp] theorem State.modTile_rings (k : Nat) (f : Tile → Tile) : (s.modTile k f).rings = s.rings := rfl
@[simp] theorem State.modTile_works (k : Nat) (f : Tile → Tile) : (s.modTile k f).works = s.works := rfl
@[simp] theorem State.modTile_waits (k : Nat) (f : Tile → Tile) : (s.modTile k f).waits = s.waits := rfl
@[simp] theorem State.modTile_pats (k : Nat) (f : Tile → Tile) : (s.modTile k f).pats = s.pats := rfl
@[simp] theorem State.modTile_front (k : Nat) (f : Tile → Tile) : (s.modTile k f).front = s.front := rfl
@[simp] theorem State.modTile_bars (k : Nat) (f : Tile → Tile) : (s.modTile k f).bars = s.bars := rfl
@[simp] theorem State.modTile_saves (k : Nat) (f : Tile → Tile) : (s.modTile k f).saves = s.saves := rfl
@[simp] theorem State.modTile_sites (k : Nat) (f : Tile → Tile) : (s.modTile k f).sites = s.sites := rfl
@[simp] theorem State.modTile_planks (k : Nat) (f : Tile → Tile) : (s.modTile k f).planks = s.planks := rfl
@[simp] theorem State.modTile_chans (k : Nat) (f : Tile → Tile) : (s.modTile k f).chans = s.chans := rfl
@[simp] theorem State.modTile_memStacks (k : Nat) (f : Tile → Tile) : (s.modTile k f).memStacks = s.memStacks := rfl
@[simp] theorem State.modTile_mem (k : Nat) (f : Tile → Tile) : (s.modTile k f).mem = s.mem := rfl
@[simp] theorem State.modTile_poison (k : Nat) (f : Tile → Tile) : (s.modTile k f).poison = s.poison := rfl
@[simp] theorem State.modTile_hostMem (k : Nat) (f : Tile → Tile) : (s.modTile k f).hostMem = s.hostMem := rfl
@[simp] theorem State.modTile_farMem (k : Nat) (f : Tile → Tile) : (s.modTile k f).farMem = s.farMem := rfl
@[simp] theorem State.modTile_farPsn (k : Nat) (f : Tile → Tile) : (s.modTile k f).farPsn = s.farPsn := rfl
@[simp] theorem State.modTile_bands (k : Nat) (f : Tile → Tile) : (s.modTile k f).bands = s.bands := rfl
@[simp] theorem State.modTile_coh (k : Nat) (f : Tile → Tile) : (s.modTile k f).coh = s.coh := rfl
@[simp] theorem State.modTile_xlt (k : Nat) (f : Tile → Tile) : (s.modTile k f).xlt = s.xlt := rfl
@[simp] theorem State.modTile_links (k : Nat) (f : Tile → Tile) : (s.modTile k f).links = s.links := rfl
@[simp] theorem State.modTile_stl (k : Nat) (f : Tile → Tile) : (s.modTile k f).stl = s.stl := rfl
@[simp] theorem State.modTile_lender (k : Nat) (f : Tile → Tile) : (s.modTile k f).lender = s.lender := rfl
@[simp] theorem State.modTile_rots (k : Nat) (f : Tile → Tile) : (s.modTile k f).rots = s.rots := rfl
@[simp] theorem State.modTile_power (k : Nat) (f : Tile → Tile) : (s.modTile k f).power = s.power := rfl
@[simp] theorem State.modTile_thermal (k : Nat) (f : Tile → Tile) : (s.modTile k f).thermal = s.thermal := rfl
@[simp] theorem State.modTile_outs (k : Nat) (f : Tile → Tile) : (s.modTile k f).outs = s.outs := rfl

@[simp] theorem State.modSite_pending (k : Nat) (f : Site → Site) : (s.modSite k f).pending = s.pending := rfl
@[simp] theorem State.modSite_free (k : Nat) (f : Site → Site) : (s.modSite k f).free = s.free := rfl
@[simp] theorem State.modSite_nap (k : Nat) (f : Site → Site) : (s.modSite k f).nap = s.nap := rfl
@[simp] theorem State.modSite_hat (k : Nat) (f : Site → Site) : (s.modSite k f).hat = s.hat := rfl
@[simp] theorem State.modSite_regs (k : Nat) (f : Site → Site) : (s.modSite k f).regs = s.regs := rfl
@[simp] theorem State.modSite_halves (k : Nat) (f : Site → Site) : (s.modSite k f).halves = s.halves := rfl
@[simp] theorem State.modSite_fns (k : Nat) (f : Site → Site) : (s.modSite k f).fns = s.fns := rfl
@[simp] theorem State.modSite_hoods (k : Nat) (f : Site → Site) : (s.modSite k f).hoods = s.hoods := rfl
@[simp] theorem State.modSite_ctxs (k : Nat) (f : Site → Site) : (s.modSite k f).ctxs = s.ctxs := rfl
@[simp] theorem State.modSite_rings (k : Nat) (f : Site → Site) : (s.modSite k f).rings = s.rings := rfl
@[simp] theorem State.modSite_works (k : Nat) (f : Site → Site) : (s.modSite k f).works = s.works := rfl
@[simp] theorem State.modSite_waits (k : Nat) (f : Site → Site) : (s.modSite k f).waits = s.waits := rfl
@[simp] theorem State.modSite_pats (k : Nat) (f : Site → Site) : (s.modSite k f).pats = s.pats := rfl
@[simp] theorem State.modSite_front (k : Nat) (f : Site → Site) : (s.modSite k f).front = s.front := rfl
@[simp] theorem State.modSite_bars (k : Nat) (f : Site → Site) : (s.modSite k f).bars = s.bars := rfl
@[simp] theorem State.modSite_tiles (k : Nat) (f : Site → Site) : (s.modSite k f).tiles = s.tiles := rfl
@[simp] theorem State.modSite_saves (k : Nat) (f : Site → Site) : (s.modSite k f).saves = s.saves := rfl
@[simp] theorem State.modSite_planks (k : Nat) (f : Site → Site) : (s.modSite k f).planks = s.planks := rfl
@[simp] theorem State.modSite_chans (k : Nat) (f : Site → Site) : (s.modSite k f).chans = s.chans := rfl
@[simp] theorem State.modSite_memStacks (k : Nat) (f : Site → Site) : (s.modSite k f).memStacks = s.memStacks := rfl
@[simp] theorem State.modSite_mem (k : Nat) (f : Site → Site) : (s.modSite k f).mem = s.mem := rfl
@[simp] theorem State.modSite_poison (k : Nat) (f : Site → Site) : (s.modSite k f).poison = s.poison := rfl
@[simp] theorem State.modSite_hostMem (k : Nat) (f : Site → Site) : (s.modSite k f).hostMem = s.hostMem := rfl
@[simp] theorem State.modSite_farMem (k : Nat) (f : Site → Site) : (s.modSite k f).farMem = s.farMem := rfl
@[simp] theorem State.modSite_farPsn (k : Nat) (f : Site → Site) : (s.modSite k f).farPsn = s.farPsn := rfl
@[simp] theorem State.modSite_bands (k : Nat) (f : Site → Site) : (s.modSite k f).bands = s.bands := rfl
@[simp] theorem State.modSite_coh (k : Nat) (f : Site → Site) : (s.modSite k f).coh = s.coh := rfl
@[simp] theorem State.modSite_xlt (k : Nat) (f : Site → Site) : (s.modSite k f).xlt = s.xlt := rfl
@[simp] theorem State.modSite_links (k : Nat) (f : Site → Site) : (s.modSite k f).links = s.links := rfl
@[simp] theorem State.modSite_stl (k : Nat) (f : Site → Site) : (s.modSite k f).stl = s.stl := rfl
@[simp] theorem State.modSite_lender (k : Nat) (f : Site → Site) : (s.modSite k f).lender = s.lender := rfl
@[simp] theorem State.modSite_rots (k : Nat) (f : Site → Site) : (s.modSite k f).rots = s.rots := rfl
@[simp] theorem State.modSite_power (k : Nat) (f : Site → Site) : (s.modSite k f).power = s.power := rfl
@[simp] theorem State.modSite_thermal (k : Nat) (f : Site → Site) : (s.modSite k f).thermal = s.thermal := rfl
@[simp] theorem State.modSite_outs (k : Nat) (f : Site → Site) : (s.modSite k f).outs = s.outs := rfl

@[simp] theorem State.modPlank_pending (k : Nat) (f : Plank → Plank) : (s.modPlank k f).pending = s.pending := rfl
@[simp] theorem State.modPlank_free (k : Nat) (f : Plank → Plank) : (s.modPlank k f).free = s.free := rfl
@[simp] theorem State.modPlank_nap (k : Nat) (f : Plank → Plank) : (s.modPlank k f).nap = s.nap := rfl
@[simp] theorem State.modPlank_hat (k : Nat) (f : Plank → Plank) : (s.modPlank k f).hat = s.hat := rfl
@[simp] theorem State.modPlank_regs (k : Nat) (f : Plank → Plank) : (s.modPlank k f).regs = s.regs := rfl
@[simp] theorem State.modPlank_halves (k : Nat) (f : Plank → Plank) : (s.modPlank k f).halves = s.halves := rfl
@[simp] theorem State.modPlank_fns (k : Nat) (f : Plank → Plank) : (s.modPlank k f).fns = s.fns := rfl
@[simp] theorem State.modPlank_hoods (k : Nat) (f : Plank → Plank) : (s.modPlank k f).hoods = s.hoods := rfl
@[simp] theorem State.modPlank_ctxs (k : Nat) (f : Plank → Plank) : (s.modPlank k f).ctxs = s.ctxs := rfl
@[simp] theorem State.modPlank_rings (k : Nat) (f : Plank → Plank) : (s.modPlank k f).rings = s.rings := rfl
@[simp] theorem State.modPlank_works (k : Nat) (f : Plank → Plank) : (s.modPlank k f).works = s.works := rfl
@[simp] theorem State.modPlank_waits (k : Nat) (f : Plank → Plank) : (s.modPlank k f).waits = s.waits := rfl
@[simp] theorem State.modPlank_pats (k : Nat) (f : Plank → Plank) : (s.modPlank k f).pats = s.pats := rfl
@[simp] theorem State.modPlank_front (k : Nat) (f : Plank → Plank) : (s.modPlank k f).front = s.front := rfl
@[simp] theorem State.modPlank_bars (k : Nat) (f : Plank → Plank) : (s.modPlank k f).bars = s.bars := rfl
@[simp] theorem State.modPlank_tiles (k : Nat) (f : Plank → Plank) : (s.modPlank k f).tiles = s.tiles := rfl
@[simp] theorem State.modPlank_saves (k : Nat) (f : Plank → Plank) : (s.modPlank k f).saves = s.saves := rfl
@[simp] theorem State.modPlank_sites (k : Nat) (f : Plank → Plank) : (s.modPlank k f).sites = s.sites := rfl
@[simp] theorem State.modPlank_chans (k : Nat) (f : Plank → Plank) : (s.modPlank k f).chans = s.chans := rfl
@[simp] theorem State.modPlank_memStacks (k : Nat) (f : Plank → Plank) : (s.modPlank k f).memStacks = s.memStacks := rfl
@[simp] theorem State.modPlank_mem (k : Nat) (f : Plank → Plank) : (s.modPlank k f).mem = s.mem := rfl
@[simp] theorem State.modPlank_poison (k : Nat) (f : Plank → Plank) : (s.modPlank k f).poison = s.poison := rfl
@[simp] theorem State.modPlank_hostMem (k : Nat) (f : Plank → Plank) : (s.modPlank k f).hostMem = s.hostMem := rfl
@[simp] theorem State.modPlank_farMem (k : Nat) (f : Plank → Plank) : (s.modPlank k f).farMem = s.farMem := rfl
@[simp] theorem State.modPlank_farPsn (k : Nat) (f : Plank → Plank) : (s.modPlank k f).farPsn = s.farPsn := rfl
@[simp] theorem State.modPlank_bands (k : Nat) (f : Plank → Plank) : (s.modPlank k f).bands = s.bands := rfl
@[simp] theorem State.modPlank_coh (k : Nat) (f : Plank → Plank) : (s.modPlank k f).coh = s.coh := rfl
@[simp] theorem State.modPlank_xlt (k : Nat) (f : Plank → Plank) : (s.modPlank k f).xlt = s.xlt := rfl
@[simp] theorem State.modPlank_links (k : Nat) (f : Plank → Plank) : (s.modPlank k f).links = s.links := rfl
@[simp] theorem State.modPlank_stl (k : Nat) (f : Plank → Plank) : (s.modPlank k f).stl = s.stl := rfl
@[simp] theorem State.modPlank_lender (k : Nat) (f : Plank → Plank) : (s.modPlank k f).lender = s.lender := rfl
@[simp] theorem State.modPlank_rots (k : Nat) (f : Plank → Plank) : (s.modPlank k f).rots = s.rots := rfl
@[simp] theorem State.modPlank_power (k : Nat) (f : Plank → Plank) : (s.modPlank k f).power = s.power := rfl
@[simp] theorem State.modPlank_thermal (k : Nat) (f : Plank → Plank) : (s.modPlank k f).thermal = s.thermal := rfl
@[simp] theorem State.modPlank_outs (k : Nat) (f : Plank → Plank) : (s.modPlank k f).outs = s.outs := rfl

@[simp] theorem State.modChan_pending (k : Nat) (f : Chan → Chan) : (s.modChan k f).pending = s.pending := rfl
@[simp] theorem State.modChan_free (k : Nat) (f : Chan → Chan) : (s.modChan k f).free = s.free := rfl
@[simp] theorem State.modChan_nap (k : Nat) (f : Chan → Chan) : (s.modChan k f).nap = s.nap := rfl
@[simp] theorem State.modChan_hat (k : Nat) (f : Chan → Chan) : (s.modChan k f).hat = s.hat := rfl
@[simp] theorem State.modChan_regs (k : Nat) (f : Chan → Chan) : (s.modChan k f).regs = s.regs := rfl
@[simp] theorem State.modChan_halves (k : Nat) (f : Chan → Chan) : (s.modChan k f).halves = s.halves := rfl
@[simp] theorem State.modChan_fns (k : Nat) (f : Chan → Chan) : (s.modChan k f).fns = s.fns := rfl
@[simp] theorem State.modChan_hoods (k : Nat) (f : Chan → Chan) : (s.modChan k f).hoods = s.hoods := rfl
@[simp] theorem State.modChan_ctxs (k : Nat) (f : Chan → Chan) : (s.modChan k f).ctxs = s.ctxs := rfl
@[simp] theorem State.modChan_rings (k : Nat) (f : Chan → Chan) : (s.modChan k f).rings = s.rings := rfl
@[simp] theorem State.modChan_works (k : Nat) (f : Chan → Chan) : (s.modChan k f).works = s.works := rfl
@[simp] theorem State.modChan_waits (k : Nat) (f : Chan → Chan) : (s.modChan k f).waits = s.waits := rfl
@[simp] theorem State.modChan_pats (k : Nat) (f : Chan → Chan) : (s.modChan k f).pats = s.pats := rfl
@[simp] theorem State.modChan_front (k : Nat) (f : Chan → Chan) : (s.modChan k f).front = s.front := rfl
@[simp] theorem State.modChan_bars (k : Nat) (f : Chan → Chan) : (s.modChan k f).bars = s.bars := rfl
@[simp] theorem State.modChan_tiles (k : Nat) (f : Chan → Chan) : (s.modChan k f).tiles = s.tiles := rfl
@[simp] theorem State.modChan_saves (k : Nat) (f : Chan → Chan) : (s.modChan k f).saves = s.saves := rfl
@[simp] theorem State.modChan_sites (k : Nat) (f : Chan → Chan) : (s.modChan k f).sites = s.sites := rfl
@[simp] theorem State.modChan_planks (k : Nat) (f : Chan → Chan) : (s.modChan k f).planks = s.planks := rfl
@[simp] theorem State.modChan_memStacks (k : Nat) (f : Chan → Chan) : (s.modChan k f).memStacks = s.memStacks := rfl
@[simp] theorem State.modChan_mem (k : Nat) (f : Chan → Chan) : (s.modChan k f).mem = s.mem := rfl
@[simp] theorem State.modChan_poison (k : Nat) (f : Chan → Chan) : (s.modChan k f).poison = s.poison := rfl
@[simp] theorem State.modChan_hostMem (k : Nat) (f : Chan → Chan) : (s.modChan k f).hostMem = s.hostMem := rfl
@[simp] theorem State.modChan_farMem (k : Nat) (f : Chan → Chan) : (s.modChan k f).farMem = s.farMem := rfl
@[simp] theorem State.modChan_farPsn (k : Nat) (f : Chan → Chan) : (s.modChan k f).farPsn = s.farPsn := rfl
@[simp] theorem State.modChan_bands (k : Nat) (f : Chan → Chan) : (s.modChan k f).bands = s.bands := rfl
@[simp] theorem State.modChan_coh (k : Nat) (f : Chan → Chan) : (s.modChan k f).coh = s.coh := rfl
@[simp] theorem State.modChan_xlt (k : Nat) (f : Chan → Chan) : (s.modChan k f).xlt = s.xlt := rfl
@[simp] theorem State.modChan_links (k : Nat) (f : Chan → Chan) : (s.modChan k f).links = s.links := rfl
@[simp] theorem State.modChan_stl (k : Nat) (f : Chan → Chan) : (s.modChan k f).stl = s.stl := rfl
@[simp] theorem State.modChan_lender (k : Nat) (f : Chan → Chan) : (s.modChan k f).lender = s.lender := rfl
@[simp] theorem State.modChan_rots (k : Nat) (f : Chan → Chan) : (s.modChan k f).rots = s.rots := rfl
@[simp] theorem State.modChan_power (k : Nat) (f : Chan → Chan) : (s.modChan k f).power = s.power := rfl
@[simp] theorem State.modChan_thermal (k : Nat) (f : Chan → Chan) : (s.modChan k f).thermal = s.thermal := rfl
@[simp] theorem State.modChan_outs (k : Nat) (f : Chan → Chan) : (s.modChan k f).outs = s.outs := rfl

@[simp] theorem State.modStack_pending (k : Nat) (f : Stack → Stack) : (s.modStack k f).pending = s.pending := rfl
@[simp] theorem State.modStack_free (k : Nat) (f : Stack → Stack) : (s.modStack k f).free = s.free := rfl
@[simp] theorem State.modStack_nap (k : Nat) (f : Stack → Stack) : (s.modStack k f).nap = s.nap := rfl
@[simp] theorem State.modStack_hat (k : Nat) (f : Stack → Stack) : (s.modStack k f).hat = s.hat := rfl
@[simp] theorem State.modStack_regs (k : Nat) (f : Stack → Stack) : (s.modStack k f).regs = s.regs := rfl
@[simp] theorem State.modStack_halves (k : Nat) (f : Stack → Stack) : (s.modStack k f).halves = s.halves := rfl
@[simp] theorem State.modStack_fns (k : Nat) (f : Stack → Stack) : (s.modStack k f).fns = s.fns := rfl
@[simp] theorem State.modStack_hoods (k : Nat) (f : Stack → Stack) : (s.modStack k f).hoods = s.hoods := rfl
@[simp] theorem State.modStack_ctxs (k : Nat) (f : Stack → Stack) : (s.modStack k f).ctxs = s.ctxs := rfl
@[simp] theorem State.modStack_rings (k : Nat) (f : Stack → Stack) : (s.modStack k f).rings = s.rings := rfl
@[simp] theorem State.modStack_works (k : Nat) (f : Stack → Stack) : (s.modStack k f).works = s.works := rfl
@[simp] theorem State.modStack_waits (k : Nat) (f : Stack → Stack) : (s.modStack k f).waits = s.waits := rfl
@[simp] theorem State.modStack_pats (k : Nat) (f : Stack → Stack) : (s.modStack k f).pats = s.pats := rfl
@[simp] theorem State.modStack_front (k : Nat) (f : Stack → Stack) : (s.modStack k f).front = s.front := rfl
@[simp] theorem State.modStack_bars (k : Nat) (f : Stack → Stack) : (s.modStack k f).bars = s.bars := rfl
@[simp] theorem State.modStack_tiles (k : Nat) (f : Stack → Stack) : (s.modStack k f).tiles = s.tiles := rfl
@[simp] theorem State.modStack_saves (k : Nat) (f : Stack → Stack) : (s.modStack k f).saves = s.saves := rfl
@[simp] theorem State.modStack_sites (k : Nat) (f : Stack → Stack) : (s.modStack k f).sites = s.sites := rfl
@[simp] theorem State.modStack_planks (k : Nat) (f : Stack → Stack) : (s.modStack k f).planks = s.planks := rfl
@[simp] theorem State.modStack_chans (k : Nat) (f : Stack → Stack) : (s.modStack k f).chans = s.chans := rfl
@[simp] theorem State.modStack_mem (k : Nat) (f : Stack → Stack) : (s.modStack k f).mem = s.mem := rfl
@[simp] theorem State.modStack_poison (k : Nat) (f : Stack → Stack) : (s.modStack k f).poison = s.poison := rfl
@[simp] theorem State.modStack_hostMem (k : Nat) (f : Stack → Stack) : (s.modStack k f).hostMem = s.hostMem := rfl
@[simp] theorem State.modStack_farMem (k : Nat) (f : Stack → Stack) : (s.modStack k f).farMem = s.farMem := rfl
@[simp] theorem State.modStack_farPsn (k : Nat) (f : Stack → Stack) : (s.modStack k f).farPsn = s.farPsn := rfl
@[simp] theorem State.modStack_bands (k : Nat) (f : Stack → Stack) : (s.modStack k f).bands = s.bands := rfl
@[simp] theorem State.modStack_coh (k : Nat) (f : Stack → Stack) : (s.modStack k f).coh = s.coh := rfl
@[simp] theorem State.modStack_xlt (k : Nat) (f : Stack → Stack) : (s.modStack k f).xlt = s.xlt := rfl
@[simp] theorem State.modStack_links (k : Nat) (f : Stack → Stack) : (s.modStack k f).links = s.links := rfl
@[simp] theorem State.modStack_stl (k : Nat) (f : Stack → Stack) : (s.modStack k f).stl = s.stl := rfl
@[simp] theorem State.modStack_lender (k : Nat) (f : Stack → Stack) : (s.modStack k f).lender = s.lender := rfl
@[simp] theorem State.modStack_rots (k : Nat) (f : Stack → Stack) : (s.modStack k f).rots = s.rots := rfl
@[simp] theorem State.modStack_power (k : Nat) (f : Stack → Stack) : (s.modStack k f).power = s.power := rfl
@[simp] theorem State.modStack_thermal (k : Nat) (f : Stack → Stack) : (s.modStack k f).thermal = s.thermal := rfl
@[simp] theorem State.modStack_outs (k : Nat) (f : Stack → Stack) : (s.modStack k f).outs = s.outs := rfl

@[simp] theorem State.modLink_pending (k : Nat) (f : Link → Link) : (s.modLink k f).pending = s.pending := rfl
@[simp] theorem State.modLink_free (k : Nat) (f : Link → Link) : (s.modLink k f).free = s.free := rfl
@[simp] theorem State.modLink_nap (k : Nat) (f : Link → Link) : (s.modLink k f).nap = s.nap := rfl
@[simp] theorem State.modLink_hat (k : Nat) (f : Link → Link) : (s.modLink k f).hat = s.hat := rfl
@[simp] theorem State.modLink_regs (k : Nat) (f : Link → Link) : (s.modLink k f).regs = s.regs := rfl
@[simp] theorem State.modLink_halves (k : Nat) (f : Link → Link) : (s.modLink k f).halves = s.halves := rfl
@[simp] theorem State.modLink_fns (k : Nat) (f : Link → Link) : (s.modLink k f).fns = s.fns := rfl
@[simp] theorem State.modLink_hoods (k : Nat) (f : Link → Link) : (s.modLink k f).hoods = s.hoods := rfl
@[simp] theorem State.modLink_ctxs (k : Nat) (f : Link → Link) : (s.modLink k f).ctxs = s.ctxs := rfl
@[simp] theorem State.modLink_rings (k : Nat) (f : Link → Link) : (s.modLink k f).rings = s.rings := rfl
@[simp] theorem State.modLink_works (k : Nat) (f : Link → Link) : (s.modLink k f).works = s.works := rfl
@[simp] theorem State.modLink_waits (k : Nat) (f : Link → Link) : (s.modLink k f).waits = s.waits := rfl
@[simp] theorem State.modLink_pats (k : Nat) (f : Link → Link) : (s.modLink k f).pats = s.pats := rfl
@[simp] theorem State.modLink_front (k : Nat) (f : Link → Link) : (s.modLink k f).front = s.front := rfl
@[simp] theorem State.modLink_bars (k : Nat) (f : Link → Link) : (s.modLink k f).bars = s.bars := rfl
@[simp] theorem State.modLink_tiles (k : Nat) (f : Link → Link) : (s.modLink k f).tiles = s.tiles := rfl
@[simp] theorem State.modLink_saves (k : Nat) (f : Link → Link) : (s.modLink k f).saves = s.saves := rfl
@[simp] theorem State.modLink_sites (k : Nat) (f : Link → Link) : (s.modLink k f).sites = s.sites := rfl
@[simp] theorem State.modLink_planks (k : Nat) (f : Link → Link) : (s.modLink k f).planks = s.planks := rfl
@[simp] theorem State.modLink_chans (k : Nat) (f : Link → Link) : (s.modLink k f).chans = s.chans := rfl
@[simp] theorem State.modLink_memStacks (k : Nat) (f : Link → Link) : (s.modLink k f).memStacks = s.memStacks := rfl
@[simp] theorem State.modLink_mem (k : Nat) (f : Link → Link) : (s.modLink k f).mem = s.mem := rfl
@[simp] theorem State.modLink_poison (k : Nat) (f : Link → Link) : (s.modLink k f).poison = s.poison := rfl
@[simp] theorem State.modLink_hostMem (k : Nat) (f : Link → Link) : (s.modLink k f).hostMem = s.hostMem := rfl
@[simp] theorem State.modLink_farMem (k : Nat) (f : Link → Link) : (s.modLink k f).farMem = s.farMem := rfl
@[simp] theorem State.modLink_farPsn (k : Nat) (f : Link → Link) : (s.modLink k f).farPsn = s.farPsn := rfl
@[simp] theorem State.modLink_bands (k : Nat) (f : Link → Link) : (s.modLink k f).bands = s.bands := rfl
@[simp] theorem State.modLink_coh (k : Nat) (f : Link → Link) : (s.modLink k f).coh = s.coh := rfl
@[simp] theorem State.modLink_xlt (k : Nat) (f : Link → Link) : (s.modLink k f).xlt = s.xlt := rfl
@[simp] theorem State.modLink_stl (k : Nat) (f : Link → Link) : (s.modLink k f).stl = s.stl := rfl
@[simp] theorem State.modLink_lender (k : Nat) (f : Link → Link) : (s.modLink k f).lender = s.lender := rfl
@[simp] theorem State.modLink_rots (k : Nat) (f : Link → Link) : (s.modLink k f).rots = s.rots := rfl
@[simp] theorem State.modLink_power (k : Nat) (f : Link → Link) : (s.modLink k f).power = s.power := rfl
@[simp] theorem State.modLink_thermal (k : Nat) (f : Link → Link) : (s.modLink k f).thermal = s.thermal := rfl
@[simp] theorem State.modLink_outs (k : Nat) (f : Link → Link) : (s.modLink k f).outs = s.outs := rfl

@[simp] theorem State.modRot_pending (k : Nat) (f : Rot → Rot) : (s.modRot k f).pending = s.pending := rfl
@[simp] theorem State.modRot_free (k : Nat) (f : Rot → Rot) : (s.modRot k f).free = s.free := rfl
@[simp] theorem State.modRot_nap (k : Nat) (f : Rot → Rot) : (s.modRot k f).nap = s.nap := rfl
@[simp] theorem State.modRot_hat (k : Nat) (f : Rot → Rot) : (s.modRot k f).hat = s.hat := rfl
@[simp] theorem State.modRot_regs (k : Nat) (f : Rot → Rot) : (s.modRot k f).regs = s.regs := rfl
@[simp] theorem State.modRot_halves (k : Nat) (f : Rot → Rot) : (s.modRot k f).halves = s.halves := rfl
@[simp] theorem State.modRot_fns (k : Nat) (f : Rot → Rot) : (s.modRot k f).fns = s.fns := rfl
@[simp] theorem State.modRot_hoods (k : Nat) (f : Rot → Rot) : (s.modRot k f).hoods = s.hoods := rfl
@[simp] theorem State.modRot_ctxs (k : Nat) (f : Rot → Rot) : (s.modRot k f).ctxs = s.ctxs := rfl
@[simp] theorem State.modRot_rings (k : Nat) (f : Rot → Rot) : (s.modRot k f).rings = s.rings := rfl
@[simp] theorem State.modRot_works (k : Nat) (f : Rot → Rot) : (s.modRot k f).works = s.works := rfl
@[simp] theorem State.modRot_waits (k : Nat) (f : Rot → Rot) : (s.modRot k f).waits = s.waits := rfl
@[simp] theorem State.modRot_pats (k : Nat) (f : Rot → Rot) : (s.modRot k f).pats = s.pats := rfl
@[simp] theorem State.modRot_front (k : Nat) (f : Rot → Rot) : (s.modRot k f).front = s.front := rfl
@[simp] theorem State.modRot_bars (k : Nat) (f : Rot → Rot) : (s.modRot k f).bars = s.bars := rfl
@[simp] theorem State.modRot_tiles (k : Nat) (f : Rot → Rot) : (s.modRot k f).tiles = s.tiles := rfl
@[simp] theorem State.modRot_saves (k : Nat) (f : Rot → Rot) : (s.modRot k f).saves = s.saves := rfl
@[simp] theorem State.modRot_sites (k : Nat) (f : Rot → Rot) : (s.modRot k f).sites = s.sites := rfl
@[simp] theorem State.modRot_planks (k : Nat) (f : Rot → Rot) : (s.modRot k f).planks = s.planks := rfl
@[simp] theorem State.modRot_chans (k : Nat) (f : Rot → Rot) : (s.modRot k f).chans = s.chans := rfl
@[simp] theorem State.modRot_memStacks (k : Nat) (f : Rot → Rot) : (s.modRot k f).memStacks = s.memStacks := rfl
@[simp] theorem State.modRot_mem (k : Nat) (f : Rot → Rot) : (s.modRot k f).mem = s.mem := rfl
@[simp] theorem State.modRot_poison (k : Nat) (f : Rot → Rot) : (s.modRot k f).poison = s.poison := rfl
@[simp] theorem State.modRot_hostMem (k : Nat) (f : Rot → Rot) : (s.modRot k f).hostMem = s.hostMem := rfl
@[simp] theorem State.modRot_farMem (k : Nat) (f : Rot → Rot) : (s.modRot k f).farMem = s.farMem := rfl
@[simp] theorem State.modRot_farPsn (k : Nat) (f : Rot → Rot) : (s.modRot k f).farPsn = s.farPsn := rfl
@[simp] theorem State.modRot_bands (k : Nat) (f : Rot → Rot) : (s.modRot k f).bands = s.bands := rfl
@[simp] theorem State.modRot_coh (k : Nat) (f : Rot → Rot) : (s.modRot k f).coh = s.coh := rfl
@[simp] theorem State.modRot_xlt (k : Nat) (f : Rot → Rot) : (s.modRot k f).xlt = s.xlt := rfl
@[simp] theorem State.modRot_links (k : Nat) (f : Rot → Rot) : (s.modRot k f).links = s.links := rfl
@[simp] theorem State.modRot_stl (k : Nat) (f : Rot → Rot) : (s.modRot k f).stl = s.stl := rfl
@[simp] theorem State.modRot_lender (k : Nat) (f : Rot → Rot) : (s.modRot k f).lender = s.lender := rfl
@[simp] theorem State.modRot_power (k : Nat) (f : Rot → Rot) : (s.modRot k f).power = s.power := rfl
@[simp] theorem State.modRot_thermal (k : Nat) (f : Rot → Rot) : (s.modRot k f).thermal = s.thermal := rfl
@[simp] theorem State.modRot_outs (k : Nat) (f : Rot → Rot) : (s.modRot k f).outs = s.outs := rfl

@[simp] theorem State.setReg_pending (off i v : Nat) : (s.setReg off i v).pending = s.pending := rfl
@[simp] theorem State.setReg_free (off i v : Nat) : (s.setReg off i v).free = s.free := rfl
@[simp] theorem State.setReg_nap (off i v : Nat) : (s.setReg off i v).nap = s.nap := rfl
@[simp] theorem State.setReg_hat (off i v : Nat) : (s.setReg off i v).hat = s.hat := rfl
@[simp] theorem State.setReg_halves (off i v : Nat) : (s.setReg off i v).halves = s.halves := rfl
@[simp] theorem State.setReg_fns (off i v : Nat) : (s.setReg off i v).fns = s.fns := rfl
@[simp] theorem State.setReg_hoods (off i v : Nat) : (s.setReg off i v).hoods = s.hoods := rfl
@[simp] theorem State.setReg_ctxs (off i v : Nat) : (s.setReg off i v).ctxs = s.ctxs := rfl
@[simp] theorem State.setReg_rings (off i v : Nat) : (s.setReg off i v).rings = s.rings := rfl
@[simp] theorem State.setReg_works (off i v : Nat) : (s.setReg off i v).works = s.works := rfl
@[simp] theorem State.setReg_waits (off i v : Nat) : (s.setReg off i v).waits = s.waits := rfl
@[simp] theorem State.setReg_pats (off i v : Nat) : (s.setReg off i v).pats = s.pats := rfl
@[simp] theorem State.setReg_front (off i v : Nat) : (s.setReg off i v).front = s.front := rfl
@[simp] theorem State.setReg_bars (off i v : Nat) : (s.setReg off i v).bars = s.bars := rfl
@[simp] theorem State.setReg_tiles (off i v : Nat) : (s.setReg off i v).tiles = s.tiles := rfl
@[simp] theorem State.setReg_saves (off i v : Nat) : (s.setReg off i v).saves = s.saves := rfl
@[simp] theorem State.setReg_sites (off i v : Nat) : (s.setReg off i v).sites = s.sites := rfl
@[simp] theorem State.setReg_planks (off i v : Nat) : (s.setReg off i v).planks = s.planks := rfl
@[simp] theorem State.setReg_chans (off i v : Nat) : (s.setReg off i v).chans = s.chans := rfl
@[simp] theorem State.setReg_memStacks (off i v : Nat) : (s.setReg off i v).memStacks = s.memStacks := rfl
@[simp] theorem State.setReg_mem (off i v : Nat) : (s.setReg off i v).mem = s.mem := rfl
@[simp] theorem State.setReg_poison (off i v : Nat) : (s.setReg off i v).poison = s.poison := rfl
@[simp] theorem State.setReg_hostMem (off i v : Nat) : (s.setReg off i v).hostMem = s.hostMem := rfl
@[simp] theorem State.setReg_farMem (off i v : Nat) : (s.setReg off i v).farMem = s.farMem := rfl
@[simp] theorem State.setReg_farPsn (off i v : Nat) : (s.setReg off i v).farPsn = s.farPsn := rfl
@[simp] theorem State.setReg_bands (off i v : Nat) : (s.setReg off i v).bands = s.bands := rfl
@[simp] theorem State.setReg_coh (off i v : Nat) : (s.setReg off i v).coh = s.coh := rfl
@[simp] theorem State.setReg_xlt (off i v : Nat) : (s.setReg off i v).xlt = s.xlt := rfl
@[simp] theorem State.setReg_links (off i v : Nat) : (s.setReg off i v).links = s.links := rfl
@[simp] theorem State.setReg_stl (off i v : Nat) : (s.setReg off i v).stl = s.stl := rfl
@[simp] theorem State.setReg_lender (off i v : Nat) : (s.setReg off i v).lender = s.lender := rfl
@[simp] theorem State.setReg_rots (off i v : Nat) : (s.setReg off i v).rots = s.rots := rfl
@[simp] theorem State.setReg_power (off i v : Nat) : (s.setReg off i v).power = s.power := rfl
@[simp] theorem State.setReg_thermal (off i v : Nat) : (s.setReg off i v).thermal = s.thermal := rfl
@[simp] theorem State.setReg_outs (off i v : Nat) : (s.setReg off i v).outs = s.outs := rfl

@[simp] theorem State.toHost_pending (o : HostOut) : (s.toHost o).pending = s.pending := rfl
@[simp] theorem State.toHost_free (o : HostOut) : (s.toHost o).free = s.free := rfl
@[simp] theorem State.toHost_nap (o : HostOut) : (s.toHost o).nap = s.nap := rfl
@[simp] theorem State.toHost_hat (o : HostOut) : (s.toHost o).hat = s.hat := rfl
@[simp] theorem State.toHost_regs (o : HostOut) : (s.toHost o).regs = s.regs := rfl
@[simp] theorem State.toHost_halves (o : HostOut) : (s.toHost o).halves = s.halves := rfl
@[simp] theorem State.toHost_fns (o : HostOut) : (s.toHost o).fns = s.fns := rfl
@[simp] theorem State.toHost_hoods (o : HostOut) : (s.toHost o).hoods = s.hoods := rfl
@[simp] theorem State.toHost_ctxs (o : HostOut) : (s.toHost o).ctxs = s.ctxs := rfl
@[simp] theorem State.toHost_rings (o : HostOut) : (s.toHost o).rings = s.rings := rfl
@[simp] theorem State.toHost_works (o : HostOut) : (s.toHost o).works = s.works := rfl
@[simp] theorem State.toHost_waits (o : HostOut) : (s.toHost o).waits = s.waits := rfl
@[simp] theorem State.toHost_pats (o : HostOut) : (s.toHost o).pats = s.pats := rfl
@[simp] theorem State.toHost_front (o : HostOut) : (s.toHost o).front = s.front := rfl
@[simp] theorem State.toHost_bars (o : HostOut) : (s.toHost o).bars = s.bars := rfl
@[simp] theorem State.toHost_tiles (o : HostOut) : (s.toHost o).tiles = s.tiles := rfl
@[simp] theorem State.toHost_saves (o : HostOut) : (s.toHost o).saves = s.saves := rfl
@[simp] theorem State.toHost_sites (o : HostOut) : (s.toHost o).sites = s.sites := rfl
@[simp] theorem State.toHost_planks (o : HostOut) : (s.toHost o).planks = s.planks := rfl
@[simp] theorem State.toHost_chans (o : HostOut) : (s.toHost o).chans = s.chans := rfl
@[simp] theorem State.toHost_memStacks (o : HostOut) : (s.toHost o).memStacks = s.memStacks := rfl
@[simp] theorem State.toHost_mem (o : HostOut) : (s.toHost o).mem = s.mem := rfl
@[simp] theorem State.toHost_poison (o : HostOut) : (s.toHost o).poison = s.poison := rfl
@[simp] theorem State.toHost_hostMem (o : HostOut) : (s.toHost o).hostMem = s.hostMem := rfl
@[simp] theorem State.toHost_farMem (o : HostOut) : (s.toHost o).farMem = s.farMem := rfl
@[simp] theorem State.toHost_farPsn (o : HostOut) : (s.toHost o).farPsn = s.farPsn := rfl
@[simp] theorem State.toHost_bands (o : HostOut) : (s.toHost o).bands = s.bands := rfl
@[simp] theorem State.toHost_coh (o : HostOut) : (s.toHost o).coh = s.coh := rfl
@[simp] theorem State.toHost_xlt (o : HostOut) : (s.toHost o).xlt = s.xlt := rfl
@[simp] theorem State.toHost_links (o : HostOut) : (s.toHost o).links = s.links := rfl
@[simp] theorem State.toHost_stl (o : HostOut) : (s.toHost o).stl = s.stl := rfl
@[simp] theorem State.toHost_lender (o : HostOut) : (s.toHost o).lender = s.lender := rfl
@[simp] theorem State.toHost_rots (o : HostOut) : (s.toHost o).rots = s.rots := rfl
@[simp] theorem State.toHost_power (o : HostOut) : (s.toHost o).power = s.power := rfl
@[simp] theorem State.toHost_thermal (o : HostOut) : (s.toHost o).thermal = s.thermal := rfl

@[simp] theorem State.toBoard_pending (o : BoardOut) : (s.toBoard o).pending = s.pending := rfl
@[simp] theorem State.toBoard_free (o : BoardOut) : (s.toBoard o).free = s.free := rfl
@[simp] theorem State.toBoard_nap (o : BoardOut) : (s.toBoard o).nap = s.nap := rfl
@[simp] theorem State.toBoard_hat (o : BoardOut) : (s.toBoard o).hat = s.hat := rfl
@[simp] theorem State.toBoard_regs (o : BoardOut) : (s.toBoard o).regs = s.regs := rfl
@[simp] theorem State.toBoard_halves (o : BoardOut) : (s.toBoard o).halves = s.halves := rfl
@[simp] theorem State.toBoard_fns (o : BoardOut) : (s.toBoard o).fns = s.fns := rfl
@[simp] theorem State.toBoard_hoods (o : BoardOut) : (s.toBoard o).hoods = s.hoods := rfl
@[simp] theorem State.toBoard_ctxs (o : BoardOut) : (s.toBoard o).ctxs = s.ctxs := rfl
@[simp] theorem State.toBoard_rings (o : BoardOut) : (s.toBoard o).rings = s.rings := rfl
@[simp] theorem State.toBoard_works (o : BoardOut) : (s.toBoard o).works = s.works := rfl
@[simp] theorem State.toBoard_waits (o : BoardOut) : (s.toBoard o).waits = s.waits := rfl
@[simp] theorem State.toBoard_pats (o : BoardOut) : (s.toBoard o).pats = s.pats := rfl
@[simp] theorem State.toBoard_front (o : BoardOut) : (s.toBoard o).front = s.front := rfl
@[simp] theorem State.toBoard_bars (o : BoardOut) : (s.toBoard o).bars = s.bars := rfl
@[simp] theorem State.toBoard_tiles (o : BoardOut) : (s.toBoard o).tiles = s.tiles := rfl
@[simp] theorem State.toBoard_saves (o : BoardOut) : (s.toBoard o).saves = s.saves := rfl
@[simp] theorem State.toBoard_sites (o : BoardOut) : (s.toBoard o).sites = s.sites := rfl
@[simp] theorem State.toBoard_planks (o : BoardOut) : (s.toBoard o).planks = s.planks := rfl
@[simp] theorem State.toBoard_chans (o : BoardOut) : (s.toBoard o).chans = s.chans := rfl
@[simp] theorem State.toBoard_memStacks (o : BoardOut) : (s.toBoard o).memStacks = s.memStacks := rfl
@[simp] theorem State.toBoard_mem (o : BoardOut) : (s.toBoard o).mem = s.mem := rfl
@[simp] theorem State.toBoard_poison (o : BoardOut) : (s.toBoard o).poison = s.poison := rfl
@[simp] theorem State.toBoard_hostMem (o : BoardOut) : (s.toBoard o).hostMem = s.hostMem := rfl
@[simp] theorem State.toBoard_farMem (o : BoardOut) : (s.toBoard o).farMem = s.farMem := rfl
@[simp] theorem State.toBoard_farPsn (o : BoardOut) : (s.toBoard o).farPsn = s.farPsn := rfl
@[simp] theorem State.toBoard_bands (o : BoardOut) : (s.toBoard o).bands = s.bands := rfl
@[simp] theorem State.toBoard_coh (o : BoardOut) : (s.toBoard o).coh = s.coh := rfl
@[simp] theorem State.toBoard_xlt (o : BoardOut) : (s.toBoard o).xlt = s.xlt := rfl
@[simp] theorem State.toBoard_links (o : BoardOut) : (s.toBoard o).links = s.links := rfl
@[simp] theorem State.toBoard_stl (o : BoardOut) : (s.toBoard o).stl = s.stl := rfl
@[simp] theorem State.toBoard_lender (o : BoardOut) : (s.toBoard o).lender = s.lender := rfl
@[simp] theorem State.toBoard_rots (o : BoardOut) : (s.toBoard o).rots = s.rots := rfl
@[simp] theorem State.toBoard_power (o : BoardOut) : (s.toBoard o).power = s.power := rfl
@[simp] theorem State.toBoard_thermal (o : BoardOut) : (s.toBoard o).thermal = s.thermal := rfl

@[simp] theorem State.alert_pending (b : Nat) : (s.alert b).pending = s.pending := rfl
@[simp] theorem State.alert_free (b : Nat) : (s.alert b).free = s.free := rfl
@[simp] theorem State.alert_hat (b : Nat) : (s.alert b).hat = s.hat := rfl
@[simp] theorem State.alert_regs (b : Nat) : (s.alert b).regs = s.regs := rfl
@[simp] theorem State.alert_halves (b : Nat) : (s.alert b).halves = s.halves := rfl
@[simp] theorem State.alert_fns (b : Nat) : (s.alert b).fns = s.fns := rfl
@[simp] theorem State.alert_hoods (b : Nat) : (s.alert b).hoods = s.hoods := rfl
@[simp] theorem State.alert_ctxs (b : Nat) : (s.alert b).ctxs = s.ctxs := rfl
@[simp] theorem State.alert_rings (b : Nat) : (s.alert b).rings = s.rings := rfl
@[simp] theorem State.alert_works (b : Nat) : (s.alert b).works = s.works := rfl
@[simp] theorem State.alert_waits (b : Nat) : (s.alert b).waits = s.waits := rfl
@[simp] theorem State.alert_pats (b : Nat) : (s.alert b).pats = s.pats := rfl
@[simp] theorem State.alert_front (b : Nat) : (s.alert b).front = s.front := rfl
@[simp] theorem State.alert_bars (b : Nat) : (s.alert b).bars = s.bars := rfl
@[simp] theorem State.alert_tiles (b : Nat) : (s.alert b).tiles = s.tiles := rfl
@[simp] theorem State.alert_saves (b : Nat) : (s.alert b).saves = s.saves := rfl
@[simp] theorem State.alert_sites (b : Nat) : (s.alert b).sites = s.sites := rfl
@[simp] theorem State.alert_planks (b : Nat) : (s.alert b).planks = s.planks := rfl
@[simp] theorem State.alert_chans (b : Nat) : (s.alert b).chans = s.chans := rfl
@[simp] theorem State.alert_memStacks (b : Nat) : (s.alert b).memStacks = s.memStacks := rfl
@[simp] theorem State.alert_mem (b : Nat) : (s.alert b).mem = s.mem := rfl
@[simp] theorem State.alert_poison (b : Nat) : (s.alert b).poison = s.poison := rfl
@[simp] theorem State.alert_hostMem (b : Nat) : (s.alert b).hostMem = s.hostMem := rfl
@[simp] theorem State.alert_farMem (b : Nat) : (s.alert b).farMem = s.farMem := rfl
@[simp] theorem State.alert_farPsn (b : Nat) : (s.alert b).farPsn = s.farPsn := rfl
@[simp] theorem State.alert_bands (b : Nat) : (s.alert b).bands = s.bands := rfl
@[simp] theorem State.alert_coh (b : Nat) : (s.alert b).coh = s.coh := rfl
@[simp] theorem State.alert_xlt (b : Nat) : (s.alert b).xlt = s.xlt := rfl
@[simp] theorem State.alert_links (b : Nat) : (s.alert b).links = s.links := rfl
@[simp] theorem State.alert_stl (b : Nat) : (s.alert b).stl = s.stl := rfl
@[simp] theorem State.alert_lender (b : Nat) : (s.alert b).lender = s.lender := rfl
@[simp] theorem State.alert_rots (b : Nat) : (s.alert b).rots = s.rots := rfl
@[simp] theorem State.alert_power (b : Nat) : (s.alert b).power = s.power := rfl
@[simp] theorem State.alert_thermal (b : Nat) : (s.alert b).thermal = s.thermal := rfl
@[simp] theorem State.alert_outs (b : Nat) : (s.alert b).outs = s.outs := rfl

end Sys2Proof.Machine
end

