-- ==== Sys2Proof/Laws/Tables.lean ====
section
/-!
SUPPORT. Laws/Tables.lean: what the operations of sparse tables do, and that each keeps the canonical form.
-/
namespace Sys2Proof.Table

variable {α : Type}

/-- Every key of a sorted tail is above the head's. -/
theorem sorted_cons {k : Nat} {v : α} {r : Table α} (h : sorted ((k, v) :: r) = true) : sorted r = true ∧ ∀ e ∈ r, k < e.1 := by
  induction r generalizing k v with
  | nil => simp [sorted]
  | cons e r ih =>
    obtain ⟨k', v'⟩ := e
    simp only [sorted, Bool.and_eq_true, decide_eq_true_eq] at h
    refine ⟨h.2, fun e he => ?_⟩
    rcases List.mem_cons.1 he with rfl | he
    · exact h.1
    · exact lt_trans h.1 ((ih h.2).2 e he)

theorem sorted_cons_of {k : Nat} {v : α} {r : Table α} (h : sorted r = true) (hk : ∀ e ∈ r, k < e.1) : sorted ((k, v) :: r) = true := by
  cases r with
  | nil => rfl
  | cons e r =>
    obtain ⟨k', v'⟩ := e
    simp only [sorted, Bool.and_eq_true, decide_eq_true_eq]
    exact ⟨hk _ (List.mem_cons_self ..), h⟩

/-- Reading the key that was inserted. -/
@[simp] theorem find_insert_self (m : Table α) (k : Nat) (v : α) : find (insert m k v) k = some v := by
  induction m with
  | nil => simp [insert, find]
  | cons e r ih =>
    obtain ⟨k', v'⟩ := e
    simp only [insert]
    split
    · simp [find]
    · split
      · simp [find]
      · simp [find, *]

/-- An insertion leaves every other key alone. -/
theorem find_insert_of_ne (m : Table α) {k j : Nat} (v : α) (h : j ≠ k) : find (insert m k v) j = find m j := by
  induction m with
  | nil => simp [insert, find, h]
  | cons e r ih =>
    obtain ⟨k', v'⟩ := e
    simp only [insert]
    split
    · simp [find, h]
    · split
      · rename_i h1 h2; subst h2; simp [find, h]
      · simp [find, ih]

/-- An erasure leaves every other key alone. -/
theorem find_erase_of_ne (m : Table α) {k j : Nat} (h : j ≠ k) : find (erase m k) j = find m j := by
  induction m with
  | nil => rfl
  | cons e r ih =>
    obtain ⟨k', v'⟩ := e
    simp only [erase]
    split
    · rename_i h2; subst h2; simp [find, h, ih]
    · simp [find, ih]

/-- The erased key is not listed. -/
@[simp] theorem find_erase_self (m : Table α) (k : Nat) : find (erase m k) k = none := by
  induction m with
  | nil => rfl
  | cons e r ih =>
    obtain ⟨k', v'⟩ := e
    simp only [erase]
    split
    · exact ih
    · rename_i h2; simp [find, h2, ih]

theorem mem_insert {m : Table α} {k : Nat} {v : α} {e : Nat × α} (h : e ∈ insert m k v) : e = (k, v) ∨ e ∈ m := by
  induction m with
  | nil => exact Or.inl (by simpa [insert] using h)
  | cons a r ih =>
    obtain ⟨k', v'⟩ := a
    simp only [insert] at h
    split at h
    · rcases List.mem_cons.1 h with rfl | h
      · exact Or.inl rfl
      · exact Or.inr h
    · split at h
      · rcases List.mem_cons.1 h with rfl | h
        · exact Or.inl rfl
        · exact Or.inr (List.mem_cons_of_mem _ h)
      · rcases List.mem_cons.1 h with rfl | h
        · exact Or.inr (List.mem_cons_self ..)
        · exact (ih h).imp id (List.mem_cons_of_mem _)

theorem mem_erase {m : Table α} {k : Nat} {e : Nat × α} (h : e ∈ erase m k) : e ∈ m := by
  induction m with
  | nil => exact h
  | cons a r ih =>
    obtain ⟨k', v'⟩ := a
    simp only [erase] at h
    split at h
    · exact List.mem_cons_of_mem _ (ih h)
    · rcases List.mem_cons.1 h with rfl | h
      · exact List.mem_cons_self ..
      · exact List.mem_cons_of_mem _ (ih h)

theorem mem_dropIf {p : Nat → Bool} {m : Table α} {e : Nat × α} (h : e ∈ dropIf p m) : e ∈ m := by
  induction m with
  | nil => exact h
  | cons a r ih =>
    obtain ⟨k', v'⟩ := a
    simp only [dropIf] at h
    split at h
    · exact List.mem_cons_of_mem _ (ih h)
    · rcases List.mem_cons.1 h with rfl | h
      · exact List.mem_cons_self ..
      · exact List.mem_cons_of_mem _ (ih h)

/-- Insertion keeps the keys rising. -/
theorem sorted_insert {m : Table α} (k : Nat) (v : α) (h : sorted m = true) : sorted (insert m k v) = true := by
  induction m with
  | nil => rfl
  | cons e r ih =>
    obtain ⟨k', v'⟩ := e
    obtain ⟨hr, hk⟩ := sorted_cons h
    simp only [insert]
    split
    · rename_i h1
      refine sorted_cons_of h (fun e he => ?_)
      rcases List.mem_cons.1 he with rfl | he
      · exact h1
      · exact lt_trans h1 (hk e he)
    · split
      · rename_i h1 h2; subst h2; exact sorted_cons_of hr hk
      · rename_i h1 h2
        refine sorted_cons_of (ih hr) (fun e he => ?_)
        rcases mem_insert he with rfl | he
        · show k' < k; omega
        · exact hk e he

/-- Erasure keeps the keys rising. -/
theorem sorted_erase {m : Table α} (k : Nat) (h : sorted m = true) : sorted (erase m k) = true := by
  induction m with
  | nil => rfl
  | cons e r ih =>
    obtain ⟨k', v'⟩ := e
    obtain ⟨hr, hk⟩ := sorted_cons h
    simp only [erase]
    split
    · exact ih hr
    · exact sorted_cons_of (ih hr) (fun e he => hk e (mem_erase he))

/-- So does dropping entries by their keys. -/
theorem sorted_dropIf {m : Table α} (p : Nat → Bool) (h : sorted m = true) : sorted (dropIf p m) = true := by
  induction m with
  | nil => rfl
  | cons e r ih =>
    obtain ⟨k', v'⟩ := e
    obtain ⟨hr, hk⟩ := sorted_cons h
    simp only [dropIf]
    split
    · exact ih hr
    · exact sorted_cons_of (ih hr) (fun e he => hk e (mem_dropIf he))

theorem all_ne_iff [DecidableEq α] (d : Nat → α) (m : Table α) :
    m.all (fun e => decide (e.2 ≠ d e.1)) = true ↔ ∀ e ∈ m, e.2 ≠ d e.1 := by simp

/-- A write keeps the canonical form. -/
theorem wf_put [DecidableEq α] {d : Nat → α} {m : Table α} (k : Nat) (v : α) (h : wf d m = true) : wf d (put d m k v) = true := by
  simp only [wf, Bool.and_eq_true, all_ne_iff] at h ⊢
  unfold put
  split
  · exact ⟨sorted_erase k h.1, fun e he => h.2 e (mem_erase he)⟩
  · rename_i hv
    refine ⟨sorted_insert k v h.1, fun e he => ?_⟩
    rcases mem_insert he with rfl | he
    · exact hv
    · exact h.2 e he

/-- Reading the key just written. -/
@[simp] theorem get_put_self [DecidableEq α] (d : Nat → α) (m : Table α) (k : Nat) (v : α) : get d (put d m k v) k = v := by
  unfold put
  split
  · rename_i hv; simp [get, hv]
  · simp [get]

/-- Reading any other key. -/
theorem get_put_of_ne [DecidableEq α] (d : Nat → α) (m : Table α) {k j : Nat} (v : α) (h : j ≠ k) : get d (put d m k v) j = get d m j := by
  unfold put get
  split
  · rw [find_erase_of_ne m h]
  · rw [find_insert_of_ne m v h]

end Sys2Proof.Table
end

