-- ==== Sys2Proof/Laws/Access.lean ====
section
/-!
SUPPORT. Laws/Access.lean: reading one unit or register after an update of one unit or register.
-/
namespace Sys2Proof.Machine

variable (s : State)

@[simp] theorem State.modFn_reg (k : Nat) (f : Fn → Fn) (j c : Nat) : (s.modFn k f).reg j c = s.reg j c := rfl
@[simp] theorem State.modFn_hood (k : Nat) (f : Fn → Fn) (j : Nat) : (s.modFn k f).hood j = s.hood j := rfl
@[simp] theorem State.modFn_ctx (k : Nat) (f : Fn → Fn) (j : Nat) : (s.modFn k f).ctx j = s.ctx j := rfl
@[simp] theorem State.modFn_ring (k : Nat) (f : Fn → Fn) (j : Nat) : (s.modFn k f).ring j = s.ring j := rfl
@[simp] theorem State.modFn_pat (k : Nat) (f : Fn → Fn) (j : Nat) : (s.modFn k f).pat j = s.pat j := rfl
@[simp] theorem State.modFn_bar (k : Nat) (f : Fn → Fn) (j : Nat) : (s.modFn k f).bar j = s.bar j := rfl
@[simp] theorem State.modFn_tile (k : Nat) (f : Fn → Fn) (j : Nat) : (s.modFn k f).tile j = s.tile j := rfl
@[simp] theorem State.modFn_site (k : Nat) (f : Fn → Fn) (j : Nat) : (s.modFn k f).site j = s.site j := rfl
@[simp] theorem State.modFn_plank (k : Nat) (f : Fn → Fn) (j : Nat) : (s.modFn k f).plank j = s.plank j := rfl
@[simp] theorem State.modFn_chan (k : Nat) (f : Fn → Fn) (j : Nat) : (s.modFn k f).chan j = s.chan j := rfl
@[simp] theorem State.modFn_stack (k : Nat) (f : Fn → Fn) (j : Nat) : (s.modFn k f).stack j = s.stack j := rfl
@[simp] theorem State.modFn_link (k : Nat) (f : Fn → Fn) (j : Nat) : (s.modFn k f).link j = s.link j := rfl
@[simp] theorem State.modFn_rot (k : Nat) (f : Fn → Fn) (j : Nat) : (s.modFn k f).rot j = s.rot j := rfl
@[simp] theorem State.modFn_work (k : Nat) (f : Fn → Fn) (j : Nat) : (s.modFn k f).work? j = s.work? j := rfl
@[simp] theorem State.modFn_now (k : Nat) (f : Fn → Fn) : (s.modFn k f).now = s.now := rfl

@[simp] theorem State.modHood_reg (k : Nat) (f : Hood → Hood) (j c : Nat) : (s.modHood k f).reg j c = s.reg j c := rfl
@[simp] theorem State.modHood_fn (k : Nat) (f : Hood → Hood) (j : Nat) : (s.modHood k f).fn j = s.fn j := rfl
@[simp] theorem State.modHood_ctx (k : Nat) (f : Hood → Hood) (j : Nat) : (s.modHood k f).ctx j = s.ctx j := rfl
@[simp] theorem State.modHood_ring (k : Nat) (f : Hood → Hood) (j : Nat) : (s.modHood k f).ring j = s.ring j := rfl
@[simp] theorem State.modHood_pat (k : Nat) (f : Hood → Hood) (j : Nat) : (s.modHood k f).pat j = s.pat j := rfl
@[simp] theorem State.modHood_bar (k : Nat) (f : Hood → Hood) (j : Nat) : (s.modHood k f).bar j = s.bar j := rfl
@[simp] theorem State.modHood_tile (k : Nat) (f : Hood → Hood) (j : Nat) : (s.modHood k f).tile j = s.tile j := rfl
@[simp] theorem State.modHood_site (k : Nat) (f : Hood → Hood) (j : Nat) : (s.modHood k f).site j = s.site j := rfl
@[simp] theorem State.modHood_plank (k : Nat) (f : Hood → Hood) (j : Nat) : (s.modHood k f).plank j = s.plank j := rfl
@[simp] theorem State.modHood_chan (k : Nat) (f : Hood → Hood) (j : Nat) : (s.modHood k f).chan j = s.chan j := rfl
@[simp] theorem State.modHood_stack (k : Nat) (f : Hood → Hood) (j : Nat) : (s.modHood k f).stack j = s.stack j := rfl
@[simp] theorem State.modHood_link (k : Nat) (f : Hood → Hood) (j : Nat) : (s.modHood k f).link j = s.link j := rfl
@[simp] theorem State.modHood_rot (k : Nat) (f : Hood → Hood) (j : Nat) : (s.modHood k f).rot j = s.rot j := rfl
@[simp] theorem State.modHood_work (k : Nat) (f : Hood → Hood) (j : Nat) : (s.modHood k f).work? j = s.work? j := rfl
@[simp] theorem State.modHood_now (k : Nat) (f : Hood → Hood) : (s.modHood k f).now = s.now := rfl

@[simp] theorem State.modCtx_reg (k : Nat) (f : Ctx → Ctx) (j c : Nat) : (s.modCtx k f).reg j c = s.reg j c := rfl
@[simp] theorem State.modCtx_fn (k : Nat) (f : Ctx → Ctx) (j : Nat) : (s.modCtx k f).fn j = s.fn j := rfl
@[simp] theorem State.modCtx_hood (k : Nat) (f : Ctx → Ctx) (j : Nat) : (s.modCtx k f).hood j = s.hood j := rfl
@[simp] theorem State.modCtx_ring (k : Nat) (f : Ctx → Ctx) (j : Nat) : (s.modCtx k f).ring j = s.ring j := rfl
@[simp] theorem State.modCtx_pat (k : Nat) (f : Ctx → Ctx) (j : Nat) : (s.modCtx k f).pat j = s.pat j := rfl
@[simp] theorem State.modCtx_bar (k : Nat) (f : Ctx → Ctx) (j : Nat) : (s.modCtx k f).bar j = s.bar j := rfl
@[simp] theorem State.modCtx_tile (k : Nat) (f : Ctx → Ctx) (j : Nat) : (s.modCtx k f).tile j = s.tile j := rfl
@[simp] theorem State.modCtx_site (k : Nat) (f : Ctx → Ctx) (j : Nat) : (s.modCtx k f).site j = s.site j := rfl
@[simp] theorem State.modCtx_plank (k : Nat) (f : Ctx → Ctx) (j : Nat) : (s.modCtx k f).plank j = s.plank j := rfl
@[simp] theorem State.modCtx_chan (k : Nat) (f : Ctx → Ctx) (j : Nat) : (s.modCtx k f).chan j = s.chan j := rfl
@[simp] theorem State.modCtx_stack (k : Nat) (f : Ctx → Ctx) (j : Nat) : (s.modCtx k f).stack j = s.stack j := rfl
@[simp] theorem State.modCtx_link (k : Nat) (f : Ctx → Ctx) (j : Nat) : (s.modCtx k f).link j = s.link j := rfl
@[simp] theorem State.modCtx_rot (k : Nat) (f : Ctx → Ctx) (j : Nat) : (s.modCtx k f).rot j = s.rot j := rfl
@[simp] theorem State.modCtx_work (k : Nat) (f : Ctx → Ctx) (j : Nat) : (s.modCtx k f).work? j = s.work? j := rfl
@[simp] theorem State.modCtx_now (k : Nat) (f : Ctx → Ctx) : (s.modCtx k f).now = s.now := rfl

@[simp] theorem State.modRing_reg (k : Nat) (f : Ring → Ring) (j c : Nat) : (s.modRing k f).reg j c = s.reg j c := rfl
@[simp] theorem State.modRing_fn (k : Nat) (f : Ring → Ring) (j : Nat) : (s.modRing k f).fn j = s.fn j := rfl
@[simp] theorem State.modRing_hood (k : Nat) (f : Ring → Ring) (j : Nat) : (s.modRing k f).hood j = s.hood j := rfl
@[simp] theorem State.modRing_ctx (k : Nat) (f : Ring → Ring) (j : Nat) : (s.modRing k f).ctx j = s.ctx j := rfl
@[simp] theorem State.modRing_pat (k : Nat) (f : Ring → Ring) (j : Nat) : (s.modRing k f).pat j = s.pat j := rfl
@[simp] theorem State.modRing_bar (k : Nat) (f : Ring → Ring) (j : Nat) : (s.modRing k f).bar j = s.bar j := rfl
@[simp] theorem State.modRing_tile (k : Nat) (f : Ring → Ring) (j : Nat) : (s.modRing k f).tile j = s.tile j := rfl
@[simp] theorem State.modRing_site (k : Nat) (f : Ring → Ring) (j : Nat) : (s.modRing k f).site j = s.site j := rfl
@[simp] theorem State.modRing_plank (k : Nat) (f : Ring → Ring) (j : Nat) : (s.modRing k f).plank j = s.plank j := rfl
@[simp] theorem State.modRing_chan (k : Nat) (f : Ring → Ring) (j : Nat) : (s.modRing k f).chan j = s.chan j := rfl
@[simp] theorem State.modRing_stack (k : Nat) (f : Ring → Ring) (j : Nat) : (s.modRing k f).stack j = s.stack j := rfl
@[simp] theorem State.modRing_link (k : Nat) (f : Ring → Ring) (j : Nat) : (s.modRing k f).link j = s.link j := rfl
@[simp] theorem State.modRing_rot (k : Nat) (f : Ring → Ring) (j : Nat) : (s.modRing k f).rot j = s.rot j := rfl
@[simp] theorem State.modRing_work (k : Nat) (f : Ring → Ring) (j : Nat) : (s.modRing k f).work? j = s.work? j := rfl
@[simp] theorem State.modRing_now (k : Nat) (f : Ring → Ring) : (s.modRing k f).now = s.now := rfl

@[simp] theorem State.modPat_reg (k : Nat) (f : Pattern → Pattern) (j c : Nat) : (s.modPat k f).reg j c = s.reg j c := rfl
@[simp] theorem State.modPat_fn (k : Nat) (f : Pattern → Pattern) (j : Nat) : (s.modPat k f).fn j = s.fn j := rfl
@[simp] theorem State.modPat_hood (k : Nat) (f : Pattern → Pattern) (j : Nat) : (s.modPat k f).hood j = s.hood j := rfl
@[simp] theorem State.modPat_ctx (k : Nat) (f : Pattern → Pattern) (j : Nat) : (s.modPat k f).ctx j = s.ctx j := rfl
@[simp] theorem State.modPat_ring (k : Nat) (f : Pattern → Pattern) (j : Nat) : (s.modPat k f).ring j = s.ring j := rfl
@[simp] theorem State.modPat_bar (k : Nat) (f : Pattern → Pattern) (j : Nat) : (s.modPat k f).bar j = s.bar j := rfl
@[simp] theorem State.modPat_tile (k : Nat) (f : Pattern → Pattern) (j : Nat) : (s.modPat k f).tile j = s.tile j := rfl
@[simp] theorem State.modPat_site (k : Nat) (f : Pattern → Pattern) (j : Nat) : (s.modPat k f).site j = s.site j := rfl
@[simp] theorem State.modPat_plank (k : Nat) (f : Pattern → Pattern) (j : Nat) : (s.modPat k f).plank j = s.plank j := rfl
@[simp] theorem State.modPat_chan (k : Nat) (f : Pattern → Pattern) (j : Nat) : (s.modPat k f).chan j = s.chan j := rfl
@[simp] theorem State.modPat_stack (k : Nat) (f : Pattern → Pattern) (j : Nat) : (s.modPat k f).stack j = s.stack j := rfl
@[simp] theorem State.modPat_link (k : Nat) (f : Pattern → Pattern) (j : Nat) : (s.modPat k f).link j = s.link j := rfl
@[simp] theorem State.modPat_rot (k : Nat) (f : Pattern → Pattern) (j : Nat) : (s.modPat k f).rot j = s.rot j := rfl
@[simp] theorem State.modPat_work (k : Nat) (f : Pattern → Pattern) (j : Nat) : (s.modPat k f).work? j = s.work? j := rfl
@[simp] theorem State.modPat_now (k : Nat) (f : Pattern → Pattern) : (s.modPat k f).now = s.now := rfl

@[simp] theorem State.modBar_reg (k : Nat) (f : Barrier → Barrier) (j c : Nat) : (s.modBar k f).reg j c = s.reg j c := rfl
@[simp] theorem State.modBar_fn (k : Nat) (f : Barrier → Barrier) (j : Nat) : (s.modBar k f).fn j = s.fn j := rfl
@[simp] theorem State.modBar_hood (k : Nat) (f : Barrier → Barrier) (j : Nat) : (s.modBar k f).hood j = s.hood j := rfl
@[simp] theorem State.modBar_ctx (k : Nat) (f : Barrier → Barrier) (j : Nat) : (s.modBar k f).ctx j = s.ctx j := rfl
@[simp] theorem State.modBar_ring (k : Nat) (f : Barrier → Barrier) (j : Nat) : (s.modBar k f).ring j = s.ring j := rfl
@[simp] theorem State.modBar_pat (k : Nat) (f : Barrier → Barrier) (j : Nat) : (s.modBar k f).pat j = s.pat j := rfl
@[simp] theorem State.modBar_tile (k : Nat) (f : Barrier → Barrier) (j : Nat) : (s.modBar k f).tile j = s.tile j := rfl
@[simp] theorem State.modBar_site (k : Nat) (f : Barrier → Barrier) (j : Nat) : (s.modBar k f).site j = s.site j := rfl
@[simp] theorem State.modBar_plank (k : Nat) (f : Barrier → Barrier) (j : Nat) : (s.modBar k f).plank j = s.plank j := rfl
@[simp] theorem State.modBar_chan (k : Nat) (f : Barrier → Barrier) (j : Nat) : (s.modBar k f).chan j = s.chan j := rfl
@[simp] theorem State.modBar_stack (k : Nat) (f : Barrier → Barrier) (j : Nat) : (s.modBar k f).stack j = s.stack j := rfl
@[simp] theorem State.modBar_link (k : Nat) (f : Barrier → Barrier) (j : Nat) : (s.modBar k f).link j = s.link j := rfl
@[simp] theorem State.modBar_rot (k : Nat) (f : Barrier → Barrier) (j : Nat) : (s.modBar k f).rot j = s.rot j := rfl
@[simp] theorem State.modBar_work (k : Nat) (f : Barrier → Barrier) (j : Nat) : (s.modBar k f).work? j = s.work? j := rfl
@[simp] theorem State.modBar_now (k : Nat) (f : Barrier → Barrier) : (s.modBar k f).now = s.now := rfl

@[simp] theorem State.modTile_reg (k : Nat) (f : Tile → Tile) (j c : Nat) : (s.modTile k f).reg j c = s.reg j c := rfl
@[simp] theorem State.modTile_fn (k : Nat) (f : Tile → Tile) (j : Nat) : (s.modTile k f).fn j = s.fn j := rfl
@[simp] theorem State.modTile_hood (k : Nat) (f : Tile → Tile) (j : Nat) : (s.modTile k f).hood j = s.hood j := rfl
@[simp] theorem State.modTile_ctx (k : Nat) (f : Tile → Tile) (j : Nat) : (s.modTile k f).ctx j = s.ctx j := rfl
@[simp] theorem State.modTile_ring (k : Nat) (f : Tile → Tile) (j : Nat) : (s.modTile k f).ring j = s.ring j := rfl
@[simp] theorem State.modTile_pat (k : Nat) (f : Tile → Tile) (j : Nat) : (s.modTile k f).pat j = s.pat j := rfl
@[simp] theorem State.modTile_bar (k : Nat) (f : Tile → Tile) (j : Nat) : (s.modTile k f).bar j = s.bar j := rfl
@[simp] theorem State.modTile_site (k : Nat) (f : Tile → Tile) (j : Nat) : (s.modTile k f).site j = s.site j := rfl
@[simp] theorem State.modTile_plank (k : Nat) (f : Tile → Tile) (j : Nat) : (s.modTile k f).plank j = s.plank j := rfl
@[simp] theorem State.modTile_chan (k : Nat) (f : Tile → Tile) (j : Nat) : (s.modTile k f).chan j = s.chan j := rfl
@[simp] theorem State.modTile_stack (k : Nat) (f : Tile → Tile) (j : Nat) : (s.modTile k f).stack j = s.stack j := rfl
@[simp] theorem State.modTile_link (k : Nat) (f : Tile → Tile) (j : Nat) : (s.modTile k f).link j = s.link j := rfl
@[simp] theorem State.modTile_rot (k : Nat) (f : Tile → Tile) (j : Nat) : (s.modTile k f).rot j = s.rot j := rfl
@[simp] theorem State.modTile_work (k : Nat) (f : Tile → Tile) (j : Nat) : (s.modTile k f).work? j = s.work? j := rfl
@[simp] theorem State.modTile_now (k : Nat) (f : Tile → Tile) : (s.modTile k f).now = s.now := rfl

@[simp] theorem State.modSite_reg (k : Nat) (f : Site → Site) (j c : Nat) : (s.modSite k f).reg j c = s.reg j c := rfl
@[simp] theorem State.modSite_fn (k : Nat) (f : Site → Site) (j : Nat) : (s.modSite k f).fn j = s.fn j := rfl
@[simp] theorem State.modSite_hood (k : Nat) (f : Site → Site) (j : Nat) : (s.modSite k f).hood j = s.hood j := rfl
@[simp] theorem State.modSite_ctx (k : Nat) (f : Site → Site) (j : Nat) : (s.modSite k f).ctx j = s.ctx j := rfl
@[simp] theorem State.modSite_ring (k : Nat) (f : Site → Site) (j : Nat) : (s.modSite k f).ring j = s.ring j := rfl
@[simp] theorem State.modSite_pat (k : Nat) (f : Site → Site) (j : Nat) : (s.modSite k f).pat j = s.pat j := rfl
@[simp] theorem State.modSite_bar (k : Nat) (f : Site → Site) (j : Nat) : (s.modSite k f).bar j = s.bar j := rfl
@[simp] theorem State.modSite_tile (k : Nat) (f : Site → Site) (j : Nat) : (s.modSite k f).tile j = s.tile j := rfl
@[simp] theorem State.modSite_plank (k : Nat) (f : Site → Site) (j : Nat) : (s.modSite k f).plank j = s.plank j := rfl
@[simp] theorem State.modSite_chan (k : Nat) (f : Site → Site) (j : Nat) : (s.modSite k f).chan j = s.chan j := rfl
@[simp] theorem State.modSite_stack (k : Nat) (f : Site → Site) (j : Nat) : (s.modSite k f).stack j = s.stack j := rfl
@[simp] theorem State.modSite_link (k : Nat) (f : Site → Site) (j : Nat) : (s.modSite k f).link j = s.link j := rfl
@[simp] theorem State.modSite_rot (k : Nat) (f : Site → Site) (j : Nat) : (s.modSite k f).rot j = s.rot j := rfl
@[simp] theorem State.modSite_work (k : Nat) (f : Site → Site) (j : Nat) : (s.modSite k f).work? j = s.work? j := rfl
@[simp] theorem State.modSite_now (k : Nat) (f : Site → Site) : (s.modSite k f).now = s.now := rfl

@[simp] theorem State.modPlank_reg (k : Nat) (f : Plank → Plank) (j c : Nat) : (s.modPlank k f).reg j c = s.reg j c := rfl
@[simp] theorem State.modPlank_fn (k : Nat) (f : Plank → Plank) (j : Nat) : (s.modPlank k f).fn j = s.fn j := rfl
@[simp] theorem State.modPlank_hood (k : Nat) (f : Plank → Plank) (j : Nat) : (s.modPlank k f).hood j = s.hood j := rfl
@[simp] theorem State.modPlank_ctx (k : Nat) (f : Plank → Plank) (j : Nat) : (s.modPlank k f).ctx j = s.ctx j := rfl
@[simp] theorem State.modPlank_ring (k : Nat) (f : Plank → Plank) (j : Nat) : (s.modPlank k f).ring j = s.ring j := rfl
@[simp] theorem State.modPlank_pat (k : Nat) (f : Plank → Plank) (j : Nat) : (s.modPlank k f).pat j = s.pat j := rfl
@[simp] theorem State.modPlank_bar (k : Nat) (f : Plank → Plank) (j : Nat) : (s.modPlank k f).bar j = s.bar j := rfl
@[simp] theorem State.modPlank_tile (k : Nat) (f : Plank → Plank) (j : Nat) : (s.modPlank k f).tile j = s.tile j := rfl
@[simp] theorem State.modPlank_site (k : Nat) (f : Plank → Plank) (j : Nat) : (s.modPlank k f).site j = s.site j := rfl
@[simp] theorem State.modPlank_chan (k : Nat) (f : Plank → Plank) (j : Nat) : (s.modPlank k f).chan j = s.chan j := rfl
@[simp] theorem State.modPlank_stack (k : Nat) (f : Plank → Plank) (j : Nat) : (s.modPlank k f).stack j = s.stack j := rfl
@[simp] theorem State.modPlank_link (k : Nat) (f : Plank → Plank) (j : Nat) : (s.modPlank k f).link j = s.link j := rfl
@[simp] theorem State.modPlank_rot (k : Nat) (f : Plank → Plank) (j : Nat) : (s.modPlank k f).rot j = s.rot j := rfl
@[simp] theorem State.modPlank_work (k : Nat) (f : Plank → Plank) (j : Nat) : (s.modPlank k f).work? j = s.work? j := rfl
@[simp] theorem State.modPlank_now (k : Nat) (f : Plank → Plank) : (s.modPlank k f).now = s.now := rfl

@[simp] theorem State.modChan_reg (k : Nat) (f : Chan → Chan) (j c : Nat) : (s.modChan k f).reg j c = s.reg j c := rfl
@[simp] theorem State.modChan_fn (k : Nat) (f : Chan → Chan) (j : Nat) : (s.modChan k f).fn j = s.fn j := rfl
@[simp] theorem State.modChan_hood (k : Nat) (f : Chan → Chan) (j : Nat) : (s.modChan k f).hood j = s.hood j := rfl
@[simp] theorem State.modChan_ctx (k : Nat) (f : Chan → Chan) (j : Nat) : (s.modChan k f).ctx j = s.ctx j := rfl
@[simp] theorem State.modChan_ring (k : Nat) (f : Chan → Chan) (j : Nat) : (s.modChan k f).ring j = s.ring j := rfl
@[simp] theorem State.modChan_pat (k : Nat) (f : Chan → Chan) (j : Nat) : (s.modChan k f).pat j = s.pat j := rfl
@[simp] theorem State.modChan_bar (k : Nat) (f : Chan → Chan) (j : Nat) : (s.modChan k f).bar j = s.bar j := rfl
@[simp] theorem State.modChan_tile (k : Nat) (f : Chan → Chan) (j : Nat) : (s.modChan k f).tile j = s.tile j := rfl
@[simp] theorem State.modChan_site (k : Nat) (f : Chan → Chan) (j : Nat) : (s.modChan k f).site j = s.site j := rfl
@[simp] theorem State.modChan_plank (k : Nat) (f : Chan → Chan) (j : Nat) : (s.modChan k f).plank j = s.plank j := rfl
@[simp] theorem State.modChan_stack (k : Nat) (f : Chan → Chan) (j : Nat) : (s.modChan k f).stack j = s.stack j := rfl
@[simp] theorem State.modChan_link (k : Nat) (f : Chan → Chan) (j : Nat) : (s.modChan k f).link j = s.link j := rfl
@[simp] theorem State.modChan_rot (k : Nat) (f : Chan → Chan) (j : Nat) : (s.modChan k f).rot j = s.rot j := rfl
@[simp] theorem State.modChan_work (k : Nat) (f : Chan → Chan) (j : Nat) : (s.modChan k f).work? j = s.work? j := rfl
@[simp] theorem State.modChan_now (k : Nat) (f : Chan → Chan) : (s.modChan k f).now = s.now := rfl

@[simp] theorem State.modStack_reg (k : Nat) (f : Stack → Stack) (j c : Nat) : (s.modStack k f).reg j c = s.reg j c := rfl
@[simp] theorem State.modStack_fn (k : Nat) (f : Stack → Stack) (j : Nat) : (s.modStack k f).fn j = s.fn j := rfl
@[simp] theorem State.modStack_hood (k : Nat) (f : Stack → Stack) (j : Nat) : (s.modStack k f).hood j = s.hood j := rfl
@[simp] theorem State.modStack_ctx (k : Nat) (f : Stack → Stack) (j : Nat) : (s.modStack k f).ctx j = s.ctx j := rfl
@[simp] theorem State.modStack_ring (k : Nat) (f : Stack → Stack) (j : Nat) : (s.modStack k f).ring j = s.ring j := rfl
@[simp] theorem State.modStack_pat (k : Nat) (f : Stack → Stack) (j : Nat) : (s.modStack k f).pat j = s.pat j := rfl
@[simp] theorem State.modStack_bar (k : Nat) (f : Stack → Stack) (j : Nat) : (s.modStack k f).bar j = s.bar j := rfl
@[simp] theorem State.modStack_tile (k : Nat) (f : Stack → Stack) (j : Nat) : (s.modStack k f).tile j = s.tile j := rfl
@[simp] theorem State.modStack_site (k : Nat) (f : Stack → Stack) (j : Nat) : (s.modStack k f).site j = s.site j := rfl
@[simp] theorem State.modStack_plank (k : Nat) (f : Stack → Stack) (j : Nat) : (s.modStack k f).plank j = s.plank j := rfl
@[simp] theorem State.modStack_chan (k : Nat) (f : Stack → Stack) (j : Nat) : (s.modStack k f).chan j = s.chan j := rfl
@[simp] theorem State.modStack_link (k : Nat) (f : Stack → Stack) (j : Nat) : (s.modStack k f).link j = s.link j := rfl
@[simp] theorem State.modStack_rot (k : Nat) (f : Stack → Stack) (j : Nat) : (s.modStack k f).rot j = s.rot j := rfl
@[simp] theorem State.modStack_work (k : Nat) (f : Stack → Stack) (j : Nat) : (s.modStack k f).work? j = s.work? j := rfl
@[simp] theorem State.modStack_now (k : Nat) (f : Stack → Stack) : (s.modStack k f).now = s.now := rfl

@[simp] theorem State.modLink_reg (k : Nat) (f : Link → Link) (j c : Nat) : (s.modLink k f).reg j c = s.reg j c := rfl
@[simp] theorem State.modLink_fn (k : Nat) (f : Link → Link) (j : Nat) : (s.modLink k f).fn j = s.fn j := rfl
@[simp] theorem State.modLink_hood (k : Nat) (f : Link → Link) (j : Nat) : (s.modLink k f).hood j = s.hood j := rfl
@[simp] theorem State.modLink_ctx (k : Nat) (f : Link → Link) (j : Nat) : (s.modLink k f).ctx j = s.ctx j := rfl
@[simp] theorem State.modLink_ring (k : Nat) (f : Link → Link) (j : Nat) : (s.modLink k f).ring j = s.ring j := rfl
@[simp] theorem State.modLink_pat (k : Nat) (f : Link → Link) (j : Nat) : (s.modLink k f).pat j = s.pat j := rfl
@[simp] theorem State.modLink_bar (k : Nat) (f : Link → Link) (j : Nat) : (s.modLink k f).bar j = s.bar j := rfl
@[simp] theorem State.modLink_tile (k : Nat) (f : Link → Link) (j : Nat) : (s.modLink k f).tile j = s.tile j := rfl
@[simp] theorem State.modLink_site (k : Nat) (f : Link → Link) (j : Nat) : (s.modLink k f).site j = s.site j := rfl
@[simp] theorem State.modLink_plank (k : Nat) (f : Link → Link) (j : Nat) : (s.modLink k f).plank j = s.plank j := rfl
@[simp] theorem State.modLink_chan (k : Nat) (f : Link → Link) (j : Nat) : (s.modLink k f).chan j = s.chan j := rfl
@[simp] theorem State.modLink_stack (k : Nat) (f : Link → Link) (j : Nat) : (s.modLink k f).stack j = s.stack j := rfl
@[simp] theorem State.modLink_rot (k : Nat) (f : Link → Link) (j : Nat) : (s.modLink k f).rot j = s.rot j := rfl
@[simp] theorem State.modLink_work (k : Nat) (f : Link → Link) (j : Nat) : (s.modLink k f).work? j = s.work? j := rfl
@[simp] theorem State.modLink_now (k : Nat) (f : Link → Link) : (s.modLink k f).now = s.now := rfl

@[simp] theorem State.modRot_reg (k : Nat) (f : Rot → Rot) (j c : Nat) : (s.modRot k f).reg j c = s.reg j c := rfl
@[simp] theorem State.modRot_fn (k : Nat) (f : Rot → Rot) (j : Nat) : (s.modRot k f).fn j = s.fn j := rfl
@[simp] theorem State.modRot_hood (k : Nat) (f : Rot → Rot) (j : Nat) : (s.modRot k f).hood j = s.hood j := rfl
@[simp] theorem State.modRot_ctx (k : Nat) (f : Rot → Rot) (j : Nat) : (s.modRot k f).ctx j = s.ctx j := rfl
@[simp] theorem State.modRot_ring (k : Nat) (f : Rot → Rot) (j : Nat) : (s.modRot k f).ring j = s.ring j := rfl
@[simp] theorem State.modRot_pat (k : Nat) (f : Rot → Rot) (j : Nat) : (s.modRot k f).pat j = s.pat j := rfl
@[simp] theorem State.modRot_bar (k : Nat) (f : Rot → Rot) (j : Nat) : (s.modRot k f).bar j = s.bar j := rfl
@[simp] theorem State.modRot_tile (k : Nat) (f : Rot → Rot) (j : Nat) : (s.modRot k f).tile j = s.tile j := rfl
@[simp] theorem State.modRot_site (k : Nat) (f : Rot → Rot) (j : Nat) : (s.modRot k f).site j = s.site j := rfl
@[simp] theorem State.modRot_plank (k : Nat) (f : Rot → Rot) (j : Nat) : (s.modRot k f).plank j = s.plank j := rfl
@[simp] theorem State.modRot_chan (k : Nat) (f : Rot → Rot) (j : Nat) : (s.modRot k f).chan j = s.chan j := rfl
@[simp] theorem State.modRot_stack (k : Nat) (f : Rot → Rot) (j : Nat) : (s.modRot k f).stack j = s.stack j := rfl
@[simp] theorem State.modRot_link (k : Nat) (f : Rot → Rot) (j : Nat) : (s.modRot k f).link j = s.link j := rfl
@[simp] theorem State.modRot_work (k : Nat) (f : Rot → Rot) (j : Nat) : (s.modRot k f).work? j = s.work? j := rfl
@[simp] theorem State.modRot_now (k : Nat) (f : Rot → Rot) : (s.modRot k f).now = s.now := rfl

@[simp] theorem State.setReg_fn (off i v : Nat) (j : Nat) : (s.setReg off i v).fn j = s.fn j := rfl
@[simp] theorem State.setReg_hood (off i v : Nat) (j : Nat) : (s.setReg off i v).hood j = s.hood j := rfl
@[simp] theorem State.setReg_ctx (off i v : Nat) (j : Nat) : (s.setReg off i v).ctx j = s.ctx j := rfl
@[simp] theorem State.setReg_ring (off i v : Nat) (j : Nat) : (s.setReg off i v).ring j = s.ring j := rfl
@[simp] theorem State.setReg_pat (off i v : Nat) (j : Nat) : (s.setReg off i v).pat j = s.pat j := rfl
@[simp] theorem State.setReg_bar (off i v : Nat) (j : Nat) : (s.setReg off i v).bar j = s.bar j := rfl
@[simp] theorem State.setReg_tile (off i v : Nat) (j : Nat) : (s.setReg off i v).tile j = s.tile j := rfl
@[simp] theorem State.setReg_site (off i v : Nat) (j : Nat) : (s.setReg off i v).site j = s.site j := rfl
@[simp] theorem State.setReg_plank (off i v : Nat) (j : Nat) : (s.setReg off i v).plank j = s.plank j := rfl
@[simp] theorem State.setReg_chan (off i v : Nat) (j : Nat) : (s.setReg off i v).chan j = s.chan j := rfl
@[simp] theorem State.setReg_stack (off i v : Nat) (j : Nat) : (s.setReg off i v).stack j = s.stack j := rfl
@[simp] theorem State.setReg_link (off i v : Nat) (j : Nat) : (s.setReg off i v).link j = s.link j := rfl
@[simp] theorem State.setReg_rot (off i v : Nat) (j : Nat) : (s.setReg off i v).rot j = s.rot j := rfl
@[simp] theorem State.setReg_work (off i v : Nat) (j : Nat) : (s.setReg off i v).work? j = s.work? j := rfl
@[simp] theorem State.setReg_now (off i v : Nat) : (s.setReg off i v).now = s.now := rfl

@[simp] theorem State.toHost_reg (o : HostOut) (j c : Nat) : (s.toHost o).reg j c = s.reg j c := rfl
@[simp] theorem State.toHost_fn (o : HostOut) (j : Nat) : (s.toHost o).fn j = s.fn j := rfl
@[simp] theorem State.toHost_hood (o : HostOut) (j : Nat) : (s.toHost o).hood j = s.hood j := rfl
@[simp] theorem State.toHost_ctx (o : HostOut) (j : Nat) : (s.toHost o).ctx j = s.ctx j := rfl
@[simp] theorem State.toHost_ring (o : HostOut) (j : Nat) : (s.toHost o).ring j = s.ring j := rfl
@[simp] theorem State.toHost_pat (o : HostOut) (j : Nat) : (s.toHost o).pat j = s.pat j := rfl
@[simp] theorem State.toHost_bar (o : HostOut) (j : Nat) : (s.toHost o).bar j = s.bar j := rfl
@[simp] theorem State.toHost_tile (o : HostOut) (j : Nat) : (s.toHost o).tile j = s.tile j := rfl
@[simp] theorem State.toHost_site (o : HostOut) (j : Nat) : (s.toHost o).site j = s.site j := rfl
@[simp] theorem State.toHost_plank (o : HostOut) (j : Nat) : (s.toHost o).plank j = s.plank j := rfl
@[simp] theorem State.toHost_chan (o : HostOut) (j : Nat) : (s.toHost o).chan j = s.chan j := rfl
@[simp] theorem State.toHost_stack (o : HostOut) (j : Nat) : (s.toHost o).stack j = s.stack j := rfl
@[simp] theorem State.toHost_link (o : HostOut) (j : Nat) : (s.toHost o).link j = s.link j := rfl
@[simp] theorem State.toHost_rot (o : HostOut) (j : Nat) : (s.toHost o).rot j = s.rot j := rfl
@[simp] theorem State.toHost_work (o : HostOut) (j : Nat) : (s.toHost o).work? j = s.work? j := rfl
@[simp] theorem State.toHost_now (o : HostOut) : (s.toHost o).now = s.now := rfl

@[simp] theorem State.toBoard_reg (o : BoardOut) (j c : Nat) : (s.toBoard o).reg j c = s.reg j c := rfl
@[simp] theorem State.toBoard_fn (o : BoardOut) (j : Nat) : (s.toBoard o).fn j = s.fn j := rfl
@[simp] theorem State.toBoard_hood (o : BoardOut) (j : Nat) : (s.toBoard o).hood j = s.hood j := rfl
@[simp] theorem State.toBoard_ctx (o : BoardOut) (j : Nat) : (s.toBoard o).ctx j = s.ctx j := rfl
@[simp] theorem State.toBoard_ring (o : BoardOut) (j : Nat) : (s.toBoard o).ring j = s.ring j := rfl
@[simp] theorem State.toBoard_pat (o : BoardOut) (j : Nat) : (s.toBoard o).pat j = s.pat j := rfl
@[simp] theorem State.toBoard_bar (o : BoardOut) (j : Nat) : (s.toBoard o).bar j = s.bar j := rfl
@[simp] theorem State.toBoard_tile (o : BoardOut) (j : Nat) : (s.toBoard o).tile j = s.tile j := rfl
@[simp] theorem State.toBoard_site (o : BoardOut) (j : Nat) : (s.toBoard o).site j = s.site j := rfl
@[simp] theorem State.toBoard_plank (o : BoardOut) (j : Nat) : (s.toBoard o).plank j = s.plank j := rfl
@[simp] theorem State.toBoard_chan (o : BoardOut) (j : Nat) : (s.toBoard o).chan j = s.chan j := rfl
@[simp] theorem State.toBoard_stack (o : BoardOut) (j : Nat) : (s.toBoard o).stack j = s.stack j := rfl
@[simp] theorem State.toBoard_link (o : BoardOut) (j : Nat) : (s.toBoard o).link j = s.link j := rfl
@[simp] theorem State.toBoard_rot (o : BoardOut) (j : Nat) : (s.toBoard o).rot j = s.rot j := rfl
@[simp] theorem State.toBoard_work (o : BoardOut) (j : Nat) : (s.toBoard o).work? j = s.work? j := rfl
@[simp] theorem State.toBoard_now (o : BoardOut) : (s.toBoard o).now = s.now := rfl

@[simp] theorem State.alert_reg (b : Nat) (j c : Nat) : (s.alert b).reg j c = s.reg j c := rfl
@[simp] theorem State.alert_fn (b : Nat) (j : Nat) : (s.alert b).fn j = s.fn j := rfl
@[simp] theorem State.alert_hood (b : Nat) (j : Nat) : (s.alert b).hood j = s.hood j := rfl
@[simp] theorem State.alert_ctx (b : Nat) (j : Nat) : (s.alert b).ctx j = s.ctx j := rfl
@[simp] theorem State.alert_ring (b : Nat) (j : Nat) : (s.alert b).ring j = s.ring j := rfl
@[simp] theorem State.alert_pat (b : Nat) (j : Nat) : (s.alert b).pat j = s.pat j := rfl
@[simp] theorem State.alert_bar (b : Nat) (j : Nat) : (s.alert b).bar j = s.bar j := rfl
@[simp] theorem State.alert_tile (b : Nat) (j : Nat) : (s.alert b).tile j = s.tile j := rfl
@[simp] theorem State.alert_site (b : Nat) (j : Nat) : (s.alert b).site j = s.site j := rfl
@[simp] theorem State.alert_plank (b : Nat) (j : Nat) : (s.alert b).plank j = s.plank j := rfl
@[simp] theorem State.alert_chan (b : Nat) (j : Nat) : (s.alert b).chan j = s.chan j := rfl
@[simp] theorem State.alert_stack (b : Nat) (j : Nat) : (s.alert b).stack j = s.stack j := rfl
@[simp] theorem State.alert_link (b : Nat) (j : Nat) : (s.alert b).link j = s.link j := rfl
@[simp] theorem State.alert_rot (b : Nat) (j : Nat) : (s.alert b).rot j = s.rot j := rfl
@[simp] theorem State.alert_work (b : Nat) (j : Nat) : (s.alert b).work? j = s.work? j := rfl
@[simp] theorem State.alert_now (b : Nat) : (s.alert b).now = s.now := rfl

/-! ### The unit itself -/

@[simp] theorem at_upd_self {α : Type} [DecidableEq α] [Inhabited α] (m : Table α) (k : Nat) (f : α → α) :
    at' (upd m k f) k = f (at' m k) := by simp [at', upd]

theorem at_upd_of_ne {α : Type} [DecidableEq α] [Inhabited α] (m : Table α) {k j : Nat} (f : α → α) (h : j ≠ k) :
    at' (upd m k f) j = at' m j := Table.get_put_of_ne _ m _ h

theorem at_upd {α : Type} [DecidableEq α] [Inhabited α] (m : Table α) (k j : Nat) (f : α → α) :
    at' (upd m k f) j = if j = k then f (at' m j) else at' m j := by
  split
  · rename_i h; subst h; simp
  · rename_i h; exact at_upd_of_ne m f h

@[simp] theorem State.modFn_fn_self (k : Nat) (f : Fn → Fn) : (s.modFn k f).fn k = f (s.fn k) := at_upd_self s.fns k f
theorem State.modFn_fn (k j : Nat) (f : Fn → Fn) : (s.modFn k f).fn j = if j = k then f (s.fn j) else s.fn j := at_upd s.fns k j f
theorem State.modFn_fn_of_ne {k j : Nat} (f : Fn → Fn) (h : j ≠ k) : (s.modFn k f).fn j = s.fn j := at_upd_of_ne s.fns f h
@[simp] theorem State.modHood_hood_self (k : Nat) (f : Hood → Hood) : (s.modHood k f).hood k = f (s.hood k) := at_upd_self s.hoods k f
theorem State.modHood_hood (k j : Nat) (f : Hood → Hood) : (s.modHood k f).hood j = if j = k then f (s.hood j) else s.hood j := at_upd s.hoods k j f
theorem State.modHood_hood_of_ne {k j : Nat} (f : Hood → Hood) (h : j ≠ k) : (s.modHood k f).hood j = s.hood j := at_upd_of_ne s.hoods f h
@[simp] theorem State.modCtx_ctx_self (k : Nat) (f : Ctx → Ctx) : (s.modCtx k f).ctx k = f (s.ctx k) := at_upd_self s.ctxs k f
theorem State.modCtx_ctx (k j : Nat) (f : Ctx → Ctx) : (s.modCtx k f).ctx j = if j = k then f (s.ctx j) else s.ctx j := at_upd s.ctxs k j f
theorem State.modCtx_ctx_of_ne {k j : Nat} (f : Ctx → Ctx) (h : j ≠ k) : (s.modCtx k f).ctx j = s.ctx j := at_upd_of_ne s.ctxs f h
@[simp] theorem State.modRing_ring_self (k : Nat) (f : Ring → Ring) : (s.modRing k f).ring k = f (s.ring k) := at_upd_self s.rings k f
theorem State.modRing_ring (k j : Nat) (f : Ring → Ring) : (s.modRing k f).ring j = if j = k then f (s.ring j) else s.ring j := at_upd s.rings k j f
theorem State.modRing_ring_of_ne {k j : Nat} (f : Ring → Ring) (h : j ≠ k) : (s.modRing k f).ring j = s.ring j := at_upd_of_ne s.rings f h
@[simp] theorem State.modPat_pat_self (k : Nat) (f : Pattern → Pattern) : (s.modPat k f).pat k = f (s.pat k) := at_upd_self s.pats k f
theorem State.modPat_pat (k j : Nat) (f : Pattern → Pattern) : (s.modPat k f).pat j = if j = k then f (s.pat j) else s.pat j := at_upd s.pats k j f
theorem State.modPat_pat_of_ne {k j : Nat} (f : Pattern → Pattern) (h : j ≠ k) : (s.modPat k f).pat j = s.pat j := at_upd_of_ne s.pats f h
@[simp] theorem State.modBar_bar_self (k : Nat) (f : Barrier → Barrier) : (s.modBar k f).bar k = f (s.bar k) := at_upd_self s.bars k f
theorem State.modBar_bar (k j : Nat) (f : Barrier → Barrier) : (s.modBar k f).bar j = if j = k then f (s.bar j) else s.bar j := at_upd s.bars k j f
theorem State.modBar_bar_of_ne {k j : Nat} (f : Barrier → Barrier) (h : j ≠ k) : (s.modBar k f).bar j = s.bar j := at_upd_of_ne s.bars f h
@[simp] theorem State.modTile_tile_self (k : Nat) (f : Tile → Tile) : (s.modTile k f).tile k = f (s.tile k) := at_upd_self s.tiles k f
theorem State.modTile_tile (k j : Nat) (f : Tile → Tile) : (s.modTile k f).tile j = if j = k then f (s.tile j) else s.tile j := at_upd s.tiles k j f
theorem State.modTile_tile_of_ne {k j : Nat} (f : Tile → Tile) (h : j ≠ k) : (s.modTile k f).tile j = s.tile j := at_upd_of_ne s.tiles f h
@[simp] theorem State.modSite_site_self (k : Nat) (f : Site → Site) : (s.modSite k f).site k = f (s.site k) := at_upd_self s.sites k f
theorem State.modSite_site (k j : Nat) (f : Site → Site) : (s.modSite k f).site j = if j = k then f (s.site j) else s.site j := at_upd s.sites k j f
theorem State.modSite_site_of_ne {k j : Nat} (f : Site → Site) (h : j ≠ k) : (s.modSite k f).site j = s.site j := at_upd_of_ne s.sites f h
@[simp] theorem State.modPlank_plank_self (k : Nat) (f : Plank → Plank) : (s.modPlank k f).plank k = f (s.plank k) := at_upd_self s.planks k f
theorem State.modPlank_plank (k j : Nat) (f : Plank → Plank) : (s.modPlank k f).plank j = if j = k then f (s.plank j) else s.plank j := at_upd s.planks k j f
theorem State.modPlank_plank_of_ne {k j : Nat} (f : Plank → Plank) (h : j ≠ k) : (s.modPlank k f).plank j = s.plank j := at_upd_of_ne s.planks f h
@[simp] theorem State.modChan_chan_self (k : Nat) (f : Chan → Chan) : (s.modChan k f).chan k = f (s.chan k) := at_upd_self s.chans k f
theorem State.modChan_chan (k j : Nat) (f : Chan → Chan) : (s.modChan k f).chan j = if j = k then f (s.chan j) else s.chan j := at_upd s.chans k j f
theorem State.modChan_chan_of_ne {k j : Nat} (f : Chan → Chan) (h : j ≠ k) : (s.modChan k f).chan j = s.chan j := at_upd_of_ne s.chans f h
@[simp] theorem State.modStack_stack_self (k : Nat) (f : Stack → Stack) : (s.modStack k f).stack k = f (s.stack k) := at_upd_self s.memStacks k f
theorem State.modStack_stack (k j : Nat) (f : Stack → Stack) : (s.modStack k f).stack j = if j = k then f (s.stack j) else s.stack j := at_upd s.memStacks k j f
theorem State.modStack_stack_of_ne {k j : Nat} (f : Stack → Stack) (h : j ≠ k) : (s.modStack k f).stack j = s.stack j := at_upd_of_ne s.memStacks f h
@[simp] theorem State.modLink_link_self (k : Nat) (f : Link → Link) : (s.modLink k f).link k = f (s.link k) := at_upd_self s.links k f
theorem State.modLink_link (k j : Nat) (f : Link → Link) : (s.modLink k f).link j = if j = k then f (s.link j) else s.link j := at_upd s.links k j f
theorem State.modLink_link_of_ne {k j : Nat} (f : Link → Link) (h : j ≠ k) : (s.modLink k f).link j = s.link j := at_upd_of_ne s.links f h
@[simp] theorem State.modRot_rot_self (k : Nat) (f : Rot → Rot) : (s.modRot k f).rot k = f (s.rot k) := at_upd_self s.rots k f
theorem State.modRot_rot (k j : Nat) (f : Rot → Rot) : (s.modRot k f).rot j = if j = k then f (s.rot j) else s.rot j := at_upd s.rots k j f
theorem State.modRot_rot_of_ne {k j : Nat} (f : Rot → Rot) (h : j ≠ k) : (s.modRot k f).rot j = s.rot j := at_upd_of_ne s.rots f h

/-! ### Registers -/

/-- A register copy reads as it was written. -/
@[simp] theorem State.setReg_reg_self (off i v : Nat) : (s.setReg off i v).reg off i = v % 2 ^ 64 := by
  simp [State.setReg, State.reg]

/-- A write leaves every other copy alone. -/
theorem State.setReg_reg_of_ne {off i j c : Nat} (v : Nat) (h : regKey j c ≠ regKey off i) : (s.setReg off i v).reg j c = s.reg j c := by
  unfold State.setReg State.reg
  exact congrArg BitVec.toNat (Table.get_put_of_ne _ s.regs _ h)

/-- Copies of different registers have different keys. -/
theorem regKey_ne {off i j c : Nat} (h : j ≠ off) (hi : i < 8192) (hc : c < 8192) : regKey j c ≠ regKey off i := by
  unfold regKey; omega

/-- Different copies of one register have different keys. -/
theorem regKey_ne_copy {off i c : Nat} (h : c ≠ i) : regKey off c ≠ regKey off i := by
  unfold regKey; omega

end Sys2Proof.Machine
end

