-- ==== Sys2Proof/Laws/Finish.lean ====
section
/-!
SUPPORT. Laws/Finish.lean: what the end of every command does (`settle`, `finish`) and the shape of a meaning (`run`): interrupt outputs are
brought up to date, MSI-X messages may be added to the host port, and nothing else changes.
-/
namespace Sys2Proof.Machine

/-! ### What settling may change -/

/-- A state that differs from another at most in its functions, in ALERT_N and in MSI-X messages appended for the host. -/
def OnlyOutputs (s t : State) : Prop :=
  ∃ fns alertN l, t = { s with fns := fns, nap := { s.nap with alertN := alertN }, outs := { s.outs with host := s.outs.host ++ l } } ∧
    ∀ o ∈ l, ∃ fn, o = .msix fn

theorem OnlyOutputs.refl (s : State) : OnlyOutputs s s := ⟨s.fns, s.nap.alertN, [], by simp, by simp⟩

theorem OnlyOutputs.trans {s t u : State} (h : OnlyOutputs s t) (k : OnlyOutputs t u) : OnlyOutputs s u := by
  obtain ⟨f, a, l, rfl, hl⟩ := h
  obtain ⟨f', a', l', rfl, hl'⟩ := k
  refine ⟨f', a', l ++ l', by simp, fun o ho => ?_⟩
  rcases List.mem_append.1 ho with ho | ho
  · exact hl o ho
  · exact hl' o ho

theorem onlyOutputs_modFn (s : State) (fn : Nat) (f : Fn → Fn) : OnlyOutputs s (s.modFn fn f) :=
  ⟨(s.modFn fn f).fns, s.nap.alertN, [], by simp [State.modFn], by simp⟩

theorem onlyOutputs_msix (s : State) (fn : Nat) : OnlyOutputs s (s.toHost (.msix fn)) :=
  ⟨s.fns, s.nap.alertN, [.msix fn], rfl, by simp⟩

theorem onlyOutputs_trySend (s : State) (fn : Nat) : OnlyOutputs s (s.trySend fn) := by
  unfold State.trySend
  dsimp only
  repeat' split
  · exact .refl s
  any_goals exact onlyOutputs_modFn ..
  all_goals exact (onlyOutputs_modFn ..).trans (onlyOutputs_msix ..)

theorem onlyOutputs_settleFn (s : State) (fn : Nat) : OnlyOutputs s (settleFn s fn) := by
  unfold settleFn
  dsimp only
  split
  · exact (onlyOutputs_trySend ..).trans (onlyOutputs_modFn ..)
  · exact onlyOutputs_modFn ..

theorem onlyOutputs_forN {f : State → Nat → State} (hf : ∀ s i, OnlyOutputs s (f s i)) (n : Nat) (s : State) :
    OnlyOutputs s (forN n s f) := by
  unfold forN
  generalize List.range n = l
  induction l generalizing s with
  | nil => exact .refl s
  | cons i l ih => exact (hf s i).trans (ih _)

/-- What settling may change. -/
theorem onlyOutputs_settle (s : State) : OnlyOutputs s (settle s) := by
  unfold settle
  refine OnlyOutputs.trans ?_ (onlyOutputs_forN onlyOutputs_settleFn 17 _)
  exact ⟨s.fns, s.nap.alert &&& s.nap.alertEn != 0, [], by simp [settleAlert], by simp⟩

/-! ### What a command leaves -/

@[simp] theorem finish_pending (s t : State) : (finish s t).pending = s.pending := rfl
@[simp] theorem finish_free (s t : State) : (finish s t).free = t.free := by
  obtain ⟨_, _, _, h, _⟩ := onlyOutputs_settle t
  show (settle t).free = t.free
  rw [h]
@[simp] theorem finish_hat (s t : State) : (finish s t).hat = t.hat := by
  obtain ⟨_, _, _, h, _⟩ := onlyOutputs_settle t
  show (settle t).hat = t.hat
  rw [h]
@[simp] theorem finish_regs (s t : State) : (finish s t).regs = t.regs := by
  obtain ⟨_, _, _, h, _⟩ := onlyOutputs_settle t
  show (settle t).regs = t.regs
  rw [h]
@[simp] theorem finish_halves (s t : State) : (finish s t).halves = t.halves := by
  obtain ⟨_, _, _, h, _⟩ := onlyOutputs_settle t
  show (settle t).halves = t.halves
  rw [h]
@[simp] theorem finish_hoods (s t : State) : (finish s t).hoods = t.hoods := by
  obtain ⟨_, _, _, h, _⟩ := onlyOutputs_settle t
  show (settle t).hoods = t.hoods
  rw [h]
@[simp] theorem finish_ctxs (s t : State) : (finish s t).ctxs = t.ctxs := by
  obtain ⟨_, _, _, h, _⟩ := onlyOutputs_settle t
  show (settle t).ctxs = t.ctxs
  rw [h]
@[simp] theorem finish_rings (s t : State) : (finish s t).rings = t.rings := by
  obtain ⟨_, _, _, h, _⟩ := onlyOutputs_settle t
  show (settle t).rings = t.rings
  rw [h]
@[simp] theorem finish_works (s t : State) : (finish s t).works = t.works := by
  obtain ⟨_, _, _, h, _⟩ := onlyOutputs_settle t
  show (settle t).works = t.works
  rw [h]
@[simp] theorem finish_waits (s t : State) : (finish s t).waits = t.waits := by
  obtain ⟨_, _, _, h, _⟩ := onlyOutputs_settle t
  show (settle t).waits = t.waits
  rw [h]
@[simp] theorem finish_pats (s t : State) : (finish s t).pats = t.pats := by
  obtain ⟨_, _, _, h, _⟩ := onlyOutputs_settle t
  show (settle t).pats = t.pats
  rw [h]
@[simp] theorem finish_front (s t : State) : (finish s t).front = t.front := by
  obtain ⟨_, _, _, h, _⟩ := onlyOutputs_settle t
  show (settle t).front = t.front
  rw [h]
@[simp] theorem finish_bars (s t : State) : (finish s t).bars = t.bars := by
  obtain ⟨_, _, _, h, _⟩ := onlyOutputs_settle t
  show (settle t).bars = t.bars
  rw [h]
@[simp] theorem finish_tiles (s t : State) : (finish s t).tiles = t.tiles := by
  obtain ⟨_, _, _, h, _⟩ := onlyOutputs_settle t
  show (settle t).tiles = t.tiles
  rw [h]
@[simp] theorem finish_saves (s t : State) : (finish s t).saves = t.saves := by
  obtain ⟨_, _, _, h, _⟩ := onlyOutputs_settle t
  show (settle t).saves = t.saves
  rw [h]
@[simp] theorem finish_sites (s t : State) : (finish s t).sites = t.sites := by
  obtain ⟨_, _, _, h, _⟩ := onlyOutputs_settle t
  show (settle t).sites = t.sites
  rw [h]
@[simp] theorem finish_planks (s t : State) : (finish s t).planks = t.planks := by
  obtain ⟨_, _, _, h, _⟩ := onlyOutputs_settle t
  show (settle t).planks = t.planks
  rw [h]
@[simp] theorem finish_chans (s t : State) : (finish s t).chans = t.chans := by
  obtain ⟨_, _, _, h, _⟩ := onlyOutputs_settle t
  show (settle t).chans = t.chans
  rw [h]
@[simp] theorem finish_memStacks (s t : State) : (finish s t).memStacks = t.memStacks := by
  obtain ⟨_, _, _, h, _⟩ := onlyOutputs_settle t
  show (settle t).memStacks = t.memStacks
  rw [h]
@[simp] theorem finish_mem (s t : State) : (finish s t).mem = t.mem := by
  obtain ⟨_, _, _, h, _⟩ := onlyOutputs_settle t
  show (settle t).mem = t.mem
  rw [h]
@[simp] theorem finish_poison (s t : State) : (finish s t).poison = t.poison := by
  obtain ⟨_, _, _, h, _⟩ := onlyOutputs_settle t
  show (settle t).poison = t.poison
  rw [h]
@[simp] theorem finish_hostMem (s t : State) : (finish s t).hostMem = t.hostMem := by
  obtain ⟨_, _, _, h, _⟩ := onlyOutputs_settle t
  show (settle t).hostMem = t.hostMem
  rw [h]
@[simp] theorem finish_farMem (s t : State) : (finish s t).farMem = t.farMem := by
  obtain ⟨_, _, _, h, _⟩ := onlyOutputs_settle t
  show (settle t).farMem = t.farMem
  rw [h]
@[simp] theorem finish_coh (s t : State) : (finish s t).coh = t.coh := by
  obtain ⟨_, _, _, h, _⟩ := onlyOutputs_settle t
  show (settle t).coh = t.coh
  rw [h]
@[simp] theorem finish_xlt (s t : State) : (finish s t).xlt = t.xlt := by
  obtain ⟨_, _, _, h, _⟩ := onlyOutputs_settle t
  show (settle t).xlt = t.xlt
  rw [h]
@[simp] theorem finish_links (s t : State) : (finish s t).links = t.links := by
  obtain ⟨_, _, _, h, _⟩ := onlyOutputs_settle t
  show (settle t).links = t.links
  rw [h]
@[simp] theorem finish_stl (s t : State) : (finish s t).stl = t.stl := by
  obtain ⟨_, _, _, h, _⟩ := onlyOutputs_settle t
  show (settle t).stl = t.stl
  rw [h]
@[simp] theorem finish_lender (s t : State) : (finish s t).lender = t.lender := by
  obtain ⟨_, _, _, h, _⟩ := onlyOutputs_settle t
  show (settle t).lender = t.lender
  rw [h]
@[simp] theorem finish_rots (s t : State) : (finish s t).rots = t.rots := by
  obtain ⟨_, _, _, h, _⟩ := onlyOutputs_settle t
  show (settle t).rots = t.rots
  rw [h]
@[simp] theorem finish_power (s t : State) : (finish s t).power = t.power := by
  obtain ⟨_, _, _, h, _⟩ := onlyOutputs_settle t
  show (settle t).power = t.power
  rw [h]
@[simp] theorem finish_thermal (s t : State) : (finish s t).thermal = t.thermal := by
  obtain ⟨_, _, _, h, _⟩ := onlyOutputs_settle t
  show (settle t).thermal = t.thermal
  rw [h]
@[simp] theorem finish_nap_pgood (s t : State) : (finish s t).nap.pgood = t.nap.pgood := by
  obtain ⟨_, _, _, h, _⟩ := onlyOutputs_settle t
  show (settle t).nap.pgood = t.nap.pgood
  rw [h]
@[simp] theorem finish_nap_counter (s t : State) : (finish s t).nap.counter = t.nap.counter := by
  obtain ⟨_, _, _, h, _⟩ := onlyOutputs_settle t
  show (settle t).nap.counter = t.nap.counter
  rw [h]
@[simp] theorem finish_nap_alert (s t : State) : (finish s t).nap.alert = t.nap.alert := by
  obtain ⟨_, _, _, h, _⟩ := onlyOutputs_settle t
  show (settle t).nap.alert = t.nap.alert
  rw [h]
@[simp] theorem finish_nap_alertEn (s t : State) : (finish s t).nap.alertEn = t.nap.alertEn := by
  obtain ⟨_, _, _, h, _⟩ := onlyOutputs_settle t
  show (settle t).nap.alertEn = t.nap.alertEn
  rw [h]
@[simp] theorem finish_nap_sideCap (s t : State) : (finish s t).nap.sideCap = t.nap.sideCap := by
  obtain ⟨_, _, _, h, _⟩ := onlyOutputs_settle t
  show (settle t).nap.sideCap = t.nap.sideCap
  rw [h]
@[simp] theorem finish_nap_classA (s t : State) : (finish s t).nap.classA = t.nap.classA := by
  obtain ⟨_, _, _, h, _⟩ := onlyOutputs_settle t
  show (settle t).nap.classA = t.nap.classA
  rw [h]
@[simp] theorem finish_nap_classB (s t : State) : (finish s t).nap.classB = t.nap.classB := by
  obtain ⟨_, _, _, h, _⟩ := onlyOutputs_settle t
  show (settle t).nap.classB = t.nap.classB
  rw [h]
@[simp] theorem finish_nap_countKey (s t : State) : (finish s t).nap.countKey = t.nap.countKey := by
  obtain ⟨_, _, _, h, _⟩ := onlyOutputs_settle t
  show (settle t).nap.countKey = t.nap.countKey
  rw [h]
@[simp] theorem finish_nap_recPend (s t : State) : (finish s t).nap.recPend = t.nap.recPend := by
  obtain ⟨_, _, _, h, _⟩ := onlyOutputs_settle t
  show (settle t).nap.recPend = t.nap.recPend
  rw [h]
@[simp] theorem finish_nap_recFail (s t : State) : (finish s t).nap.recFail = t.nap.recFail := by
  obtain ⟨_, _, _, h, _⟩ := onlyOutputs_settle t
  show (settle t).nap.recFail = t.nap.recFail
  rw [h]
@[simp] theorem finish_nap_mctpEid (s t : State) : (finish s t).nap.mctpEid = t.nap.mctpEid := by
  obtain ⟨_, _, _, h, _⟩ := onlyOutputs_settle t
  show (settle t).nap.mctpEid = t.nap.mctpEid
  rw [h]
@[simp] theorem finish_nap_i3cAddr (s t : State) : (finish s t).nap.i3cAddr = t.nap.i3cAddr := by
  obtain ⟨_, _, _, h, _⟩ := onlyOutputs_settle t
  show (settle t).nap.i3cAddr = t.nap.i3cAddr
  rw [h]
@[simp] theorem finish_nap_refFault (s t : State) : (finish s t).nap.refFault = t.nap.refFault := by
  obtain ⟨_, _, _, h, _⟩ := onlyOutputs_settle t
  show (settle t).nap.refFault = t.nap.refFault
  rw [h]
@[simp] theorem finish_nap_refCheck (s t : State) : (finish s t).nap.refCheck = t.nap.refCheck := by
  obtain ⟨_, _, _, h, _⟩ := onlyOutputs_settle t
  show (settle t).nap.refCheck = t.nap.refCheck
  rw [h]
@[simp] theorem finish_nap_spine (s t : State) : (finish s t).nap.spine = t.nap.spine := by
  obtain ⟨_, _, _, h, _⟩ := onlyOutputs_settle t
  show (settle t).nap.spine = t.nap.spine
  rw [h]
@[simp] theorem finish_nap_tripped (s t : State) : (finish s t).nap.tripped = t.nap.tripped := by
  obtain ⟨_, _, _, h, _⟩ := onlyOutputs_settle t
  show (settle t).nap.tripped = t.nap.tripped
  rw [h]
@[simp] theorem finish_nap_perst (s t : State) : (finish s t).nap.perst = t.nap.perst := by
  obtain ⟨_, _, _, h, _⟩ := onlyOutputs_settle t
  show (settle t).nap.perst = t.nap.perst
  rw [h]
@[simp] theorem finish_nap_hatFail (s t : State) : (finish s t).nap.hatFail = t.nap.hatFail := by
  obtain ⟨_, _, _, h, _⟩ := onlyOutputs_settle t
  show (settle t).nap.hatFail = t.nap.hatFail
  rw [h]
@[simp] theorem finish_outs_board (s t : State) : (finish s t).outs.board = t.outs.board := by
  obtain ⟨_, _, _, h, _⟩ := onlyOutputs_settle t
  show (settle t).outs.board = t.outs.board
  rw [h]
@[simp] theorem finish_outs_stl (s t : State) : (finish s t).outs.stl = t.outs.stl := by
  obtain ⟨_, _, _, h, _⟩ := onlyOutputs_settle t
  show (settle t).outs.stl = t.outs.stl
  rw [h]
/-- What a command has sent to the host stays sent; settling only appends messages. -/
theorem finish_outs_host (s t : State) : ∃ l, (finish s t).outs.host = t.outs.host ++ l ∧ ∀ o ∈ l, ∃ fn, o = .msix fn := by
  obtain ⟨_, _, l, h, hl⟩ := onlyOutputs_settle t
  refine ⟨l, ?_, hl⟩
  show (settle t).outs.host = _
  rw [h]

@[simp] theorem finish_reg (s t : State) (off i : Nat) : (finish s t).reg off i = t.reg off i := by simp [State.reg]
@[simp] theorem finish_now (s t : State) : (finish s t).now = t.now := by simp [State.now]
@[simp] theorem finish_hood (s t : State) (i : Nat) : (finish s t).hood i = t.hood i := by simp [State.hood]
@[simp] theorem finish_ctx (s t : State) (i : Nat) : (finish s t).ctx i = t.ctx i := by simp [State.ctx]
@[simp] theorem finish_ring (s t : State) (i : Nat) : (finish s t).ring i = t.ring i := by simp [State.ring]
@[simp] theorem finish_pat (s t : State) (i : Nat) : (finish s t).pat i = t.pat i := by simp [State.pat]
@[simp] theorem finish_bar (s t : State) (i : Nat) : (finish s t).bar i = t.bar i := by simp [State.bar]
@[simp] theorem finish_tile (s t : State) (i : Nat) : (finish s t).tile i = t.tile i := by simp [State.tile]
@[simp] theorem finish_site (s t : State) (i : Nat) : (finish s t).site i = t.site i := by simp [State.site]
@[simp] theorem finish_plank (s t : State) (i : Nat) : (finish s t).plank i = t.plank i := by simp [State.plank]
@[simp] theorem finish_chan (s t : State) (i : Nat) : (finish s t).chan i = t.chan i := by simp [State.chan]
@[simp] theorem finish_stack (s t : State) (i : Nat) : (finish s t).stack i = t.stack i := by simp [State.stack]
@[simp] theorem finish_link (s t : State) (i : Nat) : (finish s t).link i = t.link i := by simp [State.link]
@[simp] theorem finish_rot (s t : State) (i : Nat) : (finish s t).rot i = t.rot i := by simp [State.rot]
@[simp] theorem finish_work (s t : State) (i : Nat) : (finish s t).work? i = t.work? i := by simp [State.work?]

/-! ### A function's configuration state survives settling -/

theorem trySend_fn_conf (s : State) (i j : Nat) :
    ∃ m h b x, (s.trySend i).fn j = { s.fn j with held := m, pba := h, bmeHeld := b, modBusy := x } := by
  unfold State.trySend
  dsimp only
  split
  · exact ⟨_, _, _, _, rfl⟩
  · repeat' split
    all_goals (try rw [State.toHost_fn])
    all_goals (rw [State.modFn_fn]; split <;> exact ⟨_, _, _, _, rfl⟩)

theorem settleFn_fn_conf (s : State) (i j : Nat) :
    ∃ m h b x z a, (settleFn s i).fn j = { s.fn j with held := m, pba := h, bmeHeld := b, modBusy := x, wasZero := z, inta := a } := by
  have key : ∀ (c : Bool), ∃ m h b x, (if c then s.trySend i else s).fn j = { s.fn j with held := m, pba := h, bmeHeld := b, modBusy := x } := by
    intro c
    cases c
    · exact ⟨_, _, _, _, rfl⟩
    · exact trySend_fn_conf s i j
  unfold settleFn
  dsimp only
  rw [State.modFn_fn]
  obtain ⟨m, h, b, x, e⟩ := key ((!s.summary i == 0) && (s.fn i).wasZero && s.msiOn i)
  split
  · rw [e]; exact ⟨_, _, _, _, _, _, rfl⟩
  · rw [e]; exact ⟨_, _, _, _, _, _, rfl⟩

/-- The fields of a function that only commands write. -/
def Fn.conf (f : Fn) : Bool × Bool × Bool × Bool × Bool × Bool × Bool × BitVec 32 :=
  (f.bme, f.mse, f.ats, f.pasid, f.d3hot, f.intDis, f.masked, f.aer)

theorem settle_fn_conf (s : State) (j : Nat) : ((settle s).fn j).conf = (s.fn j).conf := by
  unfold settle forN
  have base : ((settleAlert s).fn j).conf = (s.fn j).conf := rfl
  rw [← base]
  generalize settleAlert s = u
  generalize List.range 17 = l
  induction l generalizing u with
  | nil => rfl
  | cons i l ih =>
    rw [List.foldl_cons, ih]
    obtain ⟨m, h, b, x, z, a, e⟩ := settleFn_fn_conf u i j
    rw [e]; rfl

theorem finish_fn_conf (s t : State) (j : Nat) : ((finish s t).fn j).conf = (t.fn j).conf := settle_fn_conf t j

@[simp] theorem finish_fn_bme (s t : State) (j : Nat) : ((finish s t).fn j).bme = (t.fn j).bme := congrArg (fun q => q.1) (finish_fn_conf s t j)
@[simp] theorem finish_fn_mse (s t : State) (j : Nat) : ((finish s t).fn j).mse = (t.fn j).mse := congrArg (fun q => q.2.1) (finish_fn_conf s t j)
@[simp] theorem finish_fn_ats (s t : State) (j : Nat) : ((finish s t).fn j).ats = (t.fn j).ats := congrArg (fun q => q.2.2.1) (finish_fn_conf s t j)
@[simp] theorem finish_fn_pasid (s t : State) (j : Nat) : ((finish s t).fn j).pasid = (t.fn j).pasid := congrArg (fun q => q.2.2.2.1) (finish_fn_conf s t j)
@[simp] theorem finish_fn_d3hot (s t : State) (j : Nat) : ((finish s t).fn j).d3hot = (t.fn j).d3hot := congrArg (fun q => q.2.2.2.2.1) (finish_fn_conf s t j)
@[simp] theorem finish_fn_intDis (s t : State) (j : Nat) : ((finish s t).fn j).intDis = (t.fn j).intDis := congrArg (fun q => q.2.2.2.2.2.1) (finish_fn_conf s t j)
@[simp] theorem finish_fn_masked (s t : State) (j : Nat) : ((finish s t).fn j).masked = (t.fn j).masked := congrArg (fun q => q.2.2.2.2.2.2.1) (finish_fn_conf s t j)
@[simp] theorem finish_fn_aer (s t : State) (j : Nat) : ((finish s t).fn j).aer = (t.fn j).aer := congrArg (fun q => q.2.2.2.2.2.2.2) (finish_fn_conf s t j)

/-! ### The shape of a meaning -/

/-- A command whose operands name units of the package, on a powered package, has its effect. -/
theorem run_next {ok : Bool} {eff : State → State} {s : State} (hok : ok = true) (hp : s.nap.pgood = true) :
    run ok eff s = .next (finish s (eff s)) := by simp [run, hok, hp]

/-- An unpowered package does nothing (R410). -/
theorem run_dark {ok : Bool} {eff : State → State} {s : State} (hok : ok = true) (hp : s.nap.pgood = false) :
    run ok eff s = .next s := by simp [run, hok, hp]

/-- A command whose operands name no unit faults. -/
theorem run_fault {eff : State → State} {s : State} : run false eff s = .fault .noSuchUnit := rfl

/-- Everything a meaning can answer. -/
theorem run_cases (ok : Bool) (eff : State → State) (s : State) :
    (ok = false ∧ run ok eff s = .fault .noSuchUnit) ∨ (ok = true ∧ s.nap.pgood = false ∧ run ok eff s = .next s) ∨
    (ok = true ∧ s.nap.pgood = true ∧ run ok eff s = .next (finish s (eff s))) := by
  unfold run
  cases ok <;> cases s.nap.pgood <;> simp

end Sys2Proof.Machine
end

