-- ==== Sys2Proof/Laws/ExecRun.lean ====
section
/-!
SUPPORT. Laws/ExecRun.lean: every command but COLD_START is `run` of its operands' check and of its effect, so that what is true of `run` is
true of `exec`.
-/
namespace Sys2Proof.Machine

/-- A command is `run` of its operands' check and some effect. -/
def IsRun (c : Instr) : Prop := ∀ s, ∃ eff, exec c s = run c.wf eff s

theorem isRun_hatterStartTimeout : IsRun .hatterStartTimeout :=
  fun s => ⟨_, show execHatterStartTimeout s = _ from rfl⟩
theorem isRun_railRegulationTimeout (rail : Nat) : IsRun (.railRegulationTimeout rail) :=
  fun s => ⟨_, show execRailRegulationTimeout rail s = _ from rfl⟩
theorem isRun_pgoodNapFall : IsRun .pgoodNapFall :=
  fun s => ⟨_, show execPgoodNapFall s = _ from rfl⟩
theorem isRun_perst : IsRun .perst :=
  fun s => ⟨_, show execPerst s = _ from rfl⟩
theorem isRun_perstDeassert (refOk katOk : Bool) (failSites : List Nat) (stuck : Option Nat) : IsRun (.perstDeassert refOk katOk failSites stuck) :=
  fun s => ⟨_, show execPerstDeassert refOk katOk failSites stuck s = _ from rfl⟩
theorem isRun_dlDown : IsRun .dlDown :=
  fun s => ⟨_, show execDlDown s = _ from rfl⟩
theorem isRun_functionLevelReset (h : Nat) : IsRun (.functionLevelReset h) :=
  fun s => ⟨_, show execFunctionLevelReset h s = _ from rfl⟩
theorem isRun_pfFunctionLevelReset : IsRun .pfFunctionLevelReset :=
  fun s => ⟨_, show execPfFunctionLevelReset s = _ from rfl⟩
theorem isRun_vfEnableClear : IsRun .vfEnableClear :=
  fun s => ⟨_, show execVfEnableClear s = _ from rfl⟩
theorem isRun_vfEnableSet (numVfs : Nat) : IsRun (.vfEnableSet numVfs) :=
  fun s => ⟨_, show execVfEnableSet numVfs s = _ from rfl⟩
theorem isRun_disablePathComplete (h : Nat) : IsRun (.disablePathComplete h) :=
  fun s => ⟨_, show execDisablePathComplete h s = _ from rfl⟩
theorem isRun_busMasterEnableChange (fn : Nat) (bme mse fmask : Bool) (ctl : FnCtl) : IsRun (.busMasterEnableChange fn bme mse fmask ctl) :=
  fun s => ⟨_, show execBusMasterEnableChange fn bme mse fmask ctl s = _ from rfl⟩
theorem isRun_referenceCheckFault : IsRun .referenceCheckFault :=
  fun s => ⟨_, show execReferenceCheckFault s = _ from rfl⟩
theorem isRun_create (h : Nat) : IsRun (.create h) :=
  fun s => ⟨_, show execCreate h s = _ from rfl⟩
theorem isRun_reshape (h : Nat) : IsRun (.reshape h) :=
  fun s => ⟨_, show execReshape h s = _ from rfl⟩
theorem isRun_addRange (h r : Nat) : IsRun (.addRange h r) :=
  fun s => ⟨_, show execAddRange h r s = _ from rfl⟩
theorem isRun_releaseRange (h r : Nat) : IsRun (.releaseRange h r) :=
  fun s => ⟨_, show execReleaseRange h r s = _ from rfl⟩
theorem isRun_moveRange (h r : Nat) : IsRun (.moveRange h r) :=
  fun s => ⟨_, show execMoveRange h r s = _ from rfl⟩
theorem isRun_markRo (h r : Nat) : IsRun (.markRo h r) :=
  fun s => ⟨_, show execMarkRo h r s = _ from rfl⟩
theorem isRun_seal (h : Nat) : IsRun (.seal h) :=
  fun s => ⟨_, show execSeal h s = _ from rfl⟩
theorem isRun_restart (h : Nat) : IsRun (.restart h) :=
  fun s => ⟨_, show execRestart h s = _ from rfl⟩
theorem isRun_destroy (h : Nat) : IsRun (.destroy h) :=
  fun s => ⟨_, show execDestroy h s = _ from rfl⟩
theorem isRun_blockCommit (h : Nat) : IsRun (.blockCommit h) :=
  fun s => ⟨_, show execBlockCommit h s = _ from rfl⟩
theorem isRun_drainComplete (h : Nat) : IsRun (.drainComplete h) :=
  fun s => ⟨_, show execDrainComplete h s = _ from rfl⟩
theorem isRun_moveCopyComplete (h : Nat) : IsRun (.moveCopyComplete h) :=
  fun s => ⟨_, show execMoveCopyComplete h s = _ from rfl⟩
theorem isRun_eraseComplete (stack : Nat) : IsRun (.eraseComplete stack) :=
  fun s => ⟨_, show execEraseComplete stack s = _ from rfl⟩
theorem isRun_ask (pkg len : Nat) (ro : Bool) (dMs : Nat) : IsRun (.ask pkg len ro dMs) :=
  fun s => ⟨_, show execAsk pkg len ro dMs s = _ from rfl⟩
theorem isRun_grant (pkg leaseId : Nat) (loan : Loan) : IsRun (.grant pkg leaseId loan) :=
  fun s => ⟨_, show execGrant pkg leaseId loan s = _ from rfl⟩
theorem isRun_deny (pkg : Nat) : IsRun (.deny pkg) :=
  fun s => ⟨_, show execDeny pkg s = _ from rfl⟩
theorem isRun_renew (pkg leaseId : Nat) : IsRun (.renew pkg leaseId) :=
  fun s => ⟨_, show execRenew pkg leaseId s = _ from rfl⟩
theorem isRun_ack (pkg leaseId : Nat) : IsRun (.ack pkg leaseId) :=
  fun s => ⟨_, show execAck pkg leaseId s = _ from rfl⟩
theorem isRun_returnLease (pkg leaseId : Nat) : IsRun (.returnLease pkg leaseId) :=
  fun s => ⟨_, show execReturnLease pkg leaseId s = _ from rfl⟩
theorem isRun_leaseRenewTick (h r : Nat) : IsRun (.leaseRenewTick h r) :=
  fun s => ⟨_, show execLeaseRenewTick h r s = _ from rfl⟩
theorem isRun_leaseDeadline (h r : Nat) : IsRun (.leaseDeadline h r) :=
  fun s => ⟨_, show execLeaseDeadline h r s = _ from rfl⟩
theorem isRun_leaseReclaim (leaseId : Nat) : IsRun (.leaseReclaim leaseId) :=
  fun s => ⟨_, show execLeaseReclaim leaseId s = _ from rfl⟩
theorem isRun_leaseAskTimeout (h : Nat) : IsRun (.leaseAskTimeout h) :=
  fun s => ⟨_, show execLeaseAskTimeout h s = _ from rfl⟩
theorem isRun_ctxCreate (h c : Nat) : IsRun (.ctxCreate h c) :=
  fun s => ⟨_, show execCtxCreate h c s = _ from rfl⟩
theorem isRun_ctxDestroy (h c : Nat) : IsRun (.ctxDestroy h c) :=
  fun s => ⟨_, show execCtxDestroy h c s = _ from rfl⟩
theorem isRun_ringCreate (h r : Nat) : IsRun (.ringCreate h r) :=
  fun s => ⟨_, show execRingCreate h r s = _ from rfl⟩
theorem isRun_ringDestroy (h r : Nat) : IsRun (.ringDestroy h r) :=
  fun s => ⟨_, show execRingDestroy h r s = _ from rfl⟩
theorem isRun_setShare (h c share : Nat) : IsRun (.setShare h c share) :=
  fun s => ⟨_, show execSetShare h c share s = _ from rfl⟩
theorem isRun_teardownRelease (h : Nat) (isCtx : Bool) (num : Nat) : IsRun (.teardownRelease h isCtx num) :=
  fun s => ⟨_, show execTeardownRelease h isCtx num s = _ from rfl⟩
theorem isRun_register (h : Nat) : IsRun (.register h) :=
  fun s => ⟨_, show execRegister h s = _ from rfl⟩
theorem isRun_unregister (h pid : Nat) : IsRun (.unregister h pid) :=
  fun s => ⟨_, show execUnregister h pid s = _ from rfl⟩
theorem isRun_retry (h seq : Nat) : IsRun (.retry h seq) :=
  fun s => ⟨_, show execRetry h seq s = _ from rfl⟩
theorem isRun_fail (h seq : Nat) : IsRun (.fail h seq) :=
  fun s => ⟨_, show execFail h seq s = _ from rfl⟩
theorem isRun_migrate (h seq : Nat) : IsRun (.migrate h seq) :=
  fun s => ⟨_, show execMigrate h seq s = _ from rfl⟩
theorem isRun_faultTimeout (h seq : Nat) : IsRun (.faultTimeout h seq) :=
  fun s => ⟨_, show execFaultTimeout h seq s = _ from rfl⟩
theorem isRun_faultRecordWrite (h : Nat) : IsRun (.faultRecordWrite h) :=
  fun s => ⟨_, show execFaultRecordWrite h s = _ from rfl⟩
theorem isRun_invalidationRequest (h c : Nat) : IsRun (.invalidationRequest h c) :=
  fun s => ⟨_, show execInvalidationRequest h c s = _ from rfl⟩
theorem isRun_invalidationFence (h : Nat) : IsRun (.invalidationFence h) :=
  fun s => ⟨_, show execInvalidationFence h s = _ from rfl⟩
theorem isRun_atsTranslationCompletion (h pasid : Nat) (pgs : PageRun) (hostPage : Nat) (r w : Bool) : IsRun (.atsTranslationCompletion h pasid pgs hostPage r w) :=
  fun s => ⟨_, show execAtsTranslationCompletion h pasid pgs hostPage r w s = _ from rfl⟩
theorem isRun_priPageRequest (h pasid page : Nat) : IsRun (.priPageRequest h pasid page) :=
  fun s => ⟨_, show execPriPageRequest h pasid page s = _ from rfl⟩
theorem isRun_priResponse (h pasid page code : Nat) : IsRun (.priResponse h pasid page code) :=
  fun s => ⟨_, show execPriResponse h pasid page code s = _ from rfl⟩
theorem isRun_atsInvalidateRequest (h pasid page pages : Nat) : IsRun (.atsInvalidateRequest h pasid page pages) :=
  fun s => ⟨_, show execAtsInvalidateRequest h pasid page pages s = _ from rfl⟩
theorem isRun_hoodReset (fn : Nat) : IsRun (.hoodReset fn) :=
  fun s => ⟨_, show execHoodReset fn s = _ from rfl⟩
theorem isRun_plankReset (p : Nat) (failSites : List Nat) : IsRun (.plankReset p failSites) :=
  fun s => ⟨_, show execPlankReset p failSites s = _ from rfl⟩
theorem isRun_plankResetSaveTimeout (p : Nat) : IsRun (.plankResetSaveTimeout p) :=
  fun s => ⟨_, show execPlankResetSaveTimeout p s = _ from rfl⟩
theorem isRun_repairSite (f : Nat) (spareOk : Bool) : IsRun (.repairSite f spareOk) :=
  fun s => ⟨_, show execRepairSite f spareOk s = _ from rfl⟩
theorem isRun_retireChannel (c : Nat) : IsRun (.retireChannel c) :=
  fun s => ⟨_, show execRetireChannel c s = _ from rfl⟩
theorem isRun_apply (classes : Nat) : IsRun (.apply classes) :=
  fun s => ⟨_, show execApply classes s = _ from rfl⟩
theorem isRun_freeze (peerOk : Bool) : IsRun (.freeze peerOk) :=
  fun s => ⟨_, show execFreeze peerOk s = _ from rfl⟩
theorem isRun_thaw : IsRun .thaw :=
  fun s => ⟨_, show execThaw s = _ from rfl⟩
theorem isRun_restore (img : MigImage) : IsRun (.restore img) :=
  fun s => ⟨_, show execRestore img s = _ from rfl⟩
theorem isRun_retrain : IsRun .retrain :=
  fun s => ⟨_, show execRetrain s = _ from rfl⟩
theorem isRun_disable : IsRun .disable :=
  fun s => ⟨_, show execDisable s = _ from rfl⟩
theorem isRun_enable : IsRun .enable :=
  fun s => ⟨_, show execEnable s = _ from rfl⟩
theorem isRun_svnCommit : IsRun .svnCommit :=
  fun s => ⟨_, show execSvnCommit s = _ from rfl⟩
theorem isRun_config : IsRun .config :=
  fun s => ⟨_, show execConfig s = _ from rfl⟩
theorem isRun_debugOpen : IsRun .debugOpen :=
  fun s => ⟨_, show execDebugOpen s = _ from rfl⟩
theorem isRun_intFuncRearm (fn : Nat) (ide : Bool) : IsRun (.intFuncRearm fn ide) :=
  fun s => ⟨_, show execIntFuncRearm fn ide s = _ from rfl⟩
theorem isRun_topTsHostWrite (fn : Nat) (ide : Bool) (v : BitVec 64) : IsRun (.topTsHostWrite fn ide v) :=
  fun s => ⟨_, show execTopTsHostWrite fn ide v s = _ from rfl⟩
theorem isRun_stlPkgIdWrite (v : BitVec 32) : IsRun (.stlPkgIdWrite v) :=
  fun s => ⟨_, show execStlPkgIdWrite v s = _ from rfl⟩
theorem isRun_capWrite (v : BitVec 32) : IsRun (.capWrite v) :=
  fun s => ⟨_, show execCapWrite v s = _ from rfl⟩
theorem isRun_sidebandCapSet (watts : Nat) : IsRun (.sidebandCapSet watts) :=
  fun s => ⟨_, show execSidebandCapSet watts s = _ from rfl⟩
theorem isRun_modeWrite (v : BitVec 32) : IsRun (.modeWrite v) :=
  fun s => ⟨_, show execModeWrite v s = _ from rfl⟩
theorem isRun_groupEnable (v : BitVec 32) : IsRun (.groupEnable v) :=
  fun s => ⟨_, show execGroupEnable v s = _ from rfl⟩
theorem isRun_hatbandConfigWrite (off : Nat) (v : BitVec 32) : IsRun (.hatbandConfigWrite off v) :=
  fun s => ⟨_, show execHatbandConfigWrite off v s = _ from rfl⟩
theorem isRun_holdSet : IsRun .holdSet :=
  fun s => ⟨_, show execHoldSet s = _ from rfl⟩
theorem isRun_holdClear : IsRun .holdClear :=
  fun s => ⟨_, show execHoldClear s = _ from rfl⟩
theorem isRun_serviceStateWrite (v : BitVec 32) : IsRun (.serviceStateWrite v) :=
  fun s => ⟨_, show execServiceStateWrite v s = _ from rfl⟩
theorem isRun_saveAreaWrite (isLen : Bool) (v : BitVec 64) : IsRun (.saveAreaWrite isLen v) :=
  fun s => ⟨_, show execSaveAreaWrite isLen v s = _ from rfl⟩
theorem isRun_feCtxCountWrite (v : BitVec 32) : IsRun (.feCtxCountWrite v) :=
  fun s => ⟨_, show execFeCtxCountWrite v s = _ from rfl⟩
theorem isRun_feRingCountWrite (v : BitVec 32) : IsRun (.feRingCountWrite v) :=
  fun s => ⟨_, show execFeRingCountWrite v s = _ from rfl⟩
theorem isRun_poolConfigWrite (r : Nat) (v : BitVec 64) : IsRun (.poolConfigWrite r v) :=
  fun s => ⟨_, show execPoolConfigWrite r v s = _ from rfl⟩
theorem isRun_causeClear (fn : Nat) (ide : Bool) (off : Nat) (v : BitVec 64) : IsRun (.causeClear fn ide off v) :=
  fun s => ⟨_, show execCauseClear fn ide off v s = _ from rfl⟩
theorem isRun_alertSummaryClear (v : BitVec 32) : IsRun (.alertSummaryClear v) :=
  fun s => ⟨_, show execAlertSummaryClear v s = _ from rfl⟩
theorem isRun_registerWrite (fn : Nat) (ide : Bool) (off width : Nat) (v : BitVec 64) : IsRun (.registerWrite fn ide off width v) :=
  fun s => ⟨_, show execRegisterWrite fn ide off width v s = _ from rfl⟩
theorem isRun_lowerHalfRead (fn : Nat) (ide : Bool) (off : Nat) : IsRun (.lowerHalfRead fn ide off) :=
  fun s => ⟨_, show execLowerHalfRead fn ide off s = _ from rfl⟩
theorem isRun_lowerHalfWrite (fn : Nat) (ide : Bool) (off : Nat) (v : BitVec 32) : IsRun (.lowerHalfWrite fn ide off v) :=
  fun s => ⟨_, show execLowerHalfWrite fn ide off v s = _ from rfl⟩
theorem isRun_invalidRegisterAccess (fn : Nat) (ide : Bool) (off width : Nat) (isRead : Bool) : IsRun (.invalidRegisterAccess fn ide off width isRead) :=
  fun s => ⟨_, show execInvalidRegisterAccess fn ide off width isRead s = _ from rfl⟩
theorem isRun_windowRead (h : Nat) (ide : Bool) (off len ecc : Nat) : IsRun (.windowRead h ide off len ecc) :=
  fun s => ⟨_, show execWindowRead h ide off len ecc s = _ from rfl⟩
theorem isRun_windowWrite (h : Nat) (ide : Bool) (off : Nat) (data : List Byte) : IsRun (.windowWrite h ide off data) :=
  fun s => ⟨_, show execWindowWrite h ide off data s = _ from rfl⟩
theorem isRun_wakePageWrite (h : Nat) (ide : Bool) (off width : Nat) (v : BitVec 64) : IsRun (.wakePageWrite h ide off width v) :=
  fun s => ⟨_, show execWakePageWrite h ide off width v s = _ from rfl⟩
theorem isRun_atomicopRequest (fn bar : Nat) : IsRun (.atomicopRequest fn bar) :=
  fun s => ⟨_, show execAtomicopRequest fn bar s = _ from rfl⟩
theorem isRun_poisonedTlpReceived (fn : Nat) : IsRun (.poisonedTlpReceived fn) :=
  fun s => ⟨_, show execPoisonedTlpReceived fn s = _ from rfl⟩
theorem isRun_completionTimeout (fn w : Nat) : IsRun (.completionTimeout fn w) :=
  fun s => ⟨_, show execCompletionTimeout fn w s = _ from rfl⟩
theorem isRun_ideIntegrityFailure (stream : Nat) : IsRun (.ideIntegrityFailure stream) :=
  fun s => ⟨_, show execIdeIntegrityFailure stream s = _ from rfl⟩
theorem isRun_msixModExpiry (fn : Nat) : IsRun (.msixModExpiry fn) :=
  fun s => ⟨_, show execMsixModExpiry fn s = _ from rfl⟩
theorem isRun_msixUnmask (fn : Nat) : IsRun (.msixUnmask fn) :=
  fun s => ⟨_, show execMsixUnmask fn s = _ from rfl⟩
theorem isRun_mctpControlMessage (bus code eid : Nat) : IsRun (.mctpControlMessage bus code eid) :=
  fun s => ⟨_, show execMctpControlMessage bus code eid s = _ from rfl⟩
theorem isRun_pldmRequest (code arg : Nat) : IsRun (.pldmRequest code arg) :=
  fun s => ⟨_, show execPldmRequest code arg s = _ from rfl⟩
theorem isRun_pldmFirmwareUpdate (img : Image) : IsRun (.pldmFirmwareUpdate img) :=
  fun s => ⟨_, show execPldmFirmwareUpdate img s = _ from rfl⟩
theorem isRun_imageVerified (cls : Nat) : IsRun (.imageVerified cls) :=
  fun s => ⟨_, show execImageVerified cls s = _ from rfl⟩
theorem isRun_getVersion : IsRun .getVersion :=
  fun s => ⟨_, show execGetVersion s = _ from rfl⟩
theorem isRun_getCapabilities : IsRun .getCapabilities :=
  fun s => ⟨_, show execGetCapabilities s = _ from rfl⟩
theorem isRun_negotiateAlgorithms : IsRun .negotiateAlgorithms :=
  fun s => ⟨_, show execNegotiateAlgorithms s = _ from rfl⟩
theorem isRun_getDigests : IsRun .getDigests :=
  fun s => ⟨_, show execGetDigests s = _ from rfl⟩
theorem isRun_getCertificate (slot off len : Nat) : IsRun (.getCertificate slot off len) :=
  fun s => ⟨_, show execGetCertificate slot off len s = _ from rfl⟩
theorem isRun_challenge (slot : Nat) : IsRun (.challenge slot) :=
  fun s => ⟨_, show execChallenge slot s = _ from rfl⟩
theorem isRun_getMeasurements (idx : Nat) : IsRun (.getMeasurements idx) :=
  fun s => ⟨_, show execGetMeasurements idx s = _ from rfl⟩
theorem isRun_keyExchange (sid : Nat) : IsRun (.keyExchange sid) :=
  fun s => ⟨_, show execKeyExchange sid s = _ from rfl⟩
theorem isRun_finish (sid : Nat) : IsRun (.finish sid) :=
  fun s => ⟨_, show execFinish sid s = _ from rfl⟩
theorem isRun_heartbeat (sid : Nat) : IsRun (.heartbeat sid) :=
  fun s => ⟨_, show execHeartbeat sid s = _ from rfl⟩
theorem isRun_keyUpdate (sid : Nat) : IsRun (.keyUpdate sid) :=
  fun s => ⟨_, show execKeyUpdate sid s = _ from rfl⟩
theorem isRun_endSession (sid : Nat) : IsRun (.endSession sid) :=
  fun s => ⟨_, show execEndSession sid s = _ from rfl⟩
theorem isRun_chunkSend (seq : Nat) (last : Bool) : IsRun (.chunkSend seq last) :=
  fun s => ⟨_, show execChunkSend seq last s = _ from rfl⟩
theorem isRun_chunkGet (seq : Nat) : IsRun (.chunkGet seq) :=
  fun s => ⟨_, show execChunkGet seq s = _ from rfl⟩
theorem isRun_vendorDefinedRequest (req : VdrOp) : IsRun (.vendorDefinedRequest req) :=
  fun s => ⟨_, show execVendorDefinedRequest req s = _ from rfl⟩
theorem isRun_lockInterfaceRequest (h : Nat) : IsRun (.lockInterfaceRequest h) :=
  fun s => ⟨_, show execLockInterfaceRequest h s = _ from rfl⟩
theorem isRun_stopInterfaceRequest (h : Nat) : IsRun (.stopInterfaceRequest h) :=
  fun s => ⟨_, show execStopInterfaceRequest h s = _ from rfl⟩
theorem isRun_nop (w : Nat) : IsRun (.nop w) :=
  fun s => ⟨_, show execNop w s = _ from rfl⟩
theorem isRun_patternLaunch (w : Nat) : IsRun (.patternLaunch w) :=
  fun s => ⟨_, show execPatternLaunch w s = _ from rfl⟩
theorem isRun_patch (w : Nat) : IsRun (.patch w) :=
  fun s => ⟨_, show execPatch w s = _ from rfl⟩
theorem isRun_fenceSignal (w : Nat) : IsRun (.fenceSignal w) :=
  fun s => ⟨_, show execFenceSignal w s = _ from rfl⟩
theorem isRun_fenceWait (w : Nat) : IsRun (.fenceWait w) :=
  fun s => ⟨_, show execFenceWait w s = _ from rfl⟩
theorem isRun_chain (w : Nat) : IsRun (.chain w) :=
  fun s => ⟨_, show execChain w s = _ from rfl⟩
theorem isRun_strided (w : Nat) : IsRun (.strided w) :=
  fun s => ⟨_, show execStrided w s = _ from rfl⟩
theorem isRun_gather (w : Nat) : IsRun (.gather w) :=
  fun s => ⟨_, show execGather w s = _ from rfl⟩
theorem isRun_scatter (w : Nat) : IsRun (.scatter w) :=
  fun s => ⟨_, show execScatter w s = _ from rfl⟩
theorem isRun_fill (w : Nat) : IsRun (.fill w) :=
  fun s => ⟨_, show execFill w s = _ from rfl⟩
theorem isRun_copyComplete (w : Nat) : IsRun (.copyComplete w) :=
  fun s => ⟨_, show execCopyComplete w s = _ from rfl⟩
theorem isRun_mma (w : Nat) : IsRun (.mma w) :=
  fun s => ⟨_, show execMma w s = _ from rfl⟩
theorem isRun_wb (w : Nat) : IsRun (.wb w) :=
  fun s => ⟨_, show execWb w s = _ from rfl⟩
theorem isRun_merge (w : Nat) : IsRun (.merge w) :=
  fun s => ⟨_, show execMerge w s = _ from rfl⟩
theorem isRun_load (w : Nat) : IsRun (.load w) :=
  fun s => ⟨_, show execLoad w s = _ from rfl⟩
theorem isRun_store (w : Nat) : IsRun (.store w) :=
  fun s => ⟨_, show execStore w s = _ from rfl⟩
theorem isRun_kvc (w : Nat) : IsRun (.kvc w) :=
  fun s => ⟨_, show execKvc w s = _ from rfl⟩
theorem isRun_attn (w : Nat) : IsRun (.attn w) :=
  fun s => ⟨_, show execAttn w s = _ from rfl⟩
theorem isRun_kvringSetUp (w : Nat) : IsRun (.kvringSetUp w) :=
  fun s => ⟨_, show execKvringSetUp w s = _ from rfl⟩
theorem isRun_kvringTearDown (w : Nat) : IsRun (.kvringTearDown w) :=
  fun s => ⟨_, show execKvringTearDown w s = _ from rfl⟩
theorem isRun_bar (w : Nat) : IsRun (.bar w) :=
  fun s => ⟨_, show execBar w s = _ from rfl⟩
theorem isRun_vecAdd (w : Nat) : IsRun (.vecAdd w) :=
  fun s => ⟨_, show execVecAdd w s = _ from rfl⟩
theorem isRun_vecSub (w : Nat) : IsRun (.vecSub w) :=
  fun s => ⟨_, show execVecSub w s = _ from rfl⟩
theorem isRun_vecMul (w : Nat) : IsRun (.vecMul w) :=
  fun s => ⟨_, show execVecMul w s = _ from rfl⟩
theorem isRun_vecFma (w : Nat) : IsRun (.vecFma w) :=
  fun s => ⟨_, show execVecFma w s = _ from rfl⟩
theorem isRun_vecMin (w : Nat) : IsRun (.vecMin w) :=
  fun s => ⟨_, show execVecMin w s = _ from rfl⟩
theorem isRun_vecMax (w : Nat) : IsRun (.vecMax w) :=
  fun s => ⟨_, show execVecMax w s = _ from rfl⟩
theorem isRun_vecAbs (w : Nat) : IsRun (.vecAbs w) :=
  fun s => ⟨_, show execVecAbs w s = _ from rfl⟩
theorem isRun_vecNeg (w : Nat) : IsRun (.vecNeg w) :=
  fun s => ⟨_, show execVecNeg w s = _ from rfl⟩
theorem isRun_vecCmp (w : Nat) : IsRun (.vecCmp w) :=
  fun s => ⟨_, show execVecCmp w s = _ from rfl⟩
theorem isRun_vecSel (w : Nat) : IsRun (.vecSel w) :=
  fun s => ⟨_, show execVecSel w s = _ from rfl⟩
theorem isRun_vecExp2 (w : Nat) : IsRun (.vecExp2 w) :=
  fun s => ⟨_, show execVecExp2 w s = _ from rfl⟩
theorem isRun_vecLog2 (w : Nat) : IsRun (.vecLog2 w) :=
  fun s => ⟨_, show execVecLog2 w s = _ from rfl⟩
theorem isRun_vecRcp (w : Nat) : IsRun (.vecRcp w) :=
  fun s => ⟨_, show execVecRcp w s = _ from rfl⟩
theorem isRun_vecRsqrt (w : Nat) : IsRun (.vecRsqrt w) :=
  fun s => ⟨_, show execVecRsqrt w s = _ from rfl⟩
theorem isRun_vecExp (w : Nat) : IsRun (.vecExp w) :=
  fun s => ⟨_, show execVecExp w s = _ from rfl⟩
theorem isRun_vecLn (w : Nat) : IsRun (.vecLn w) :=
  fun s => ⟨_, show execVecLn w s = _ from rfl⟩
theorem isRun_cvtDown (w : Nat) : IsRun (.cvtDown w) :=
  fun s => ⟨_, show execCvtDown w s = _ from rfl⟩
theorem isRun_cvtUp (w : Nat) : IsRun (.cvtUp w) :=
  fun s => ⟨_, show execCvtUp w s = _ from rfl⟩
theorem isRun_qmx (w : Nat) : IsRun (.qmx w) :=
  fun s => ⟨_, show execQmx w s = _ from rfl⟩
theorem isRun_stb (w : Nat) : IsRun (.stb w) :=
  fun s => ⟨_, show execStb w s = _ from rfl⟩
theorem isRun_rmax (w : Nat) : IsRun (.rmax w) :=
  fun s => ⟨_, show execRmax w s = _ from rfl⟩
theorem isRun_rsum (w : Nat) : IsRun (.rsum w) :=
  fun s => ⟨_, show execRsum w s = _ from rfl⟩
theorem isRun_accrd (w : Nat) : IsRun (.accrd w) :=
  fun s => ⟨_, show execAccrd w s = _ from rfl⟩
theorem isRun_kernelComplete (w : Nat) : IsRun (.kernelComplete w) :=
  fun s => ⟨_, show execKernelComplete w s = _ from rfl⟩
theorem isRun_descriptorFetch (r : Nat) : IsRun (.descriptorFetch r) :=
  fun s => ⟨_, show execDescriptorFetch r s = _ from rfl⟩
theorem isRun_doorbellPoll (r : Nat) : IsRun (.doorbellPoll r) :=
  fun s => ⟨_, show execDoorbellPoll r s = _ from rfl⟩
theorem isRun_ringSleep (r : Nat) : IsRun (.ringSleep r) :=
  fun s => ⟨_, show execRingSleep r s = _ from rfl⟩
theorem isRun_ringRotate (r : Nat) : IsRun (.ringRotate r) :=
  fun s => ⟨_, show execRingRotate r s = _ from rfl⟩
theorem isRun_signalApply : IsRun .signalApply :=
  fun s => ⟨_, show execSignalApply s = _ from rfl⟩
theorem isRun_waitTimeout (w : Nat) : IsRun (.waitTimeout w) :=
  fun s => ⟨_, show execWaitTimeout w s = _ from rfl⟩
theorem isRun_fencePoll (w : Nat) : IsRun (.fencePoll w) :=
  fun s => ⟨_, show execFencePoll w s = _ from rfl⟩
theorem isRun_deadlockScan : IsRun .deadlockScan :=
  fun s => ⟨_, show execDeadlockScan s = _ from rfl⟩
theorem isRun_quantumExpiry (w : Nat) : IsRun (.quantumExpiry w) :=
  fun s => ⟨_, show execQuantumExpiry w s = _ from rfl⟩
theorem isRun_saveComplete (w : Nat) : IsRun (.saveComplete w) :=
  fun s => ⟨_, show execSaveComplete w s = _ from rfl⟩
theorem isRun_scratchpadParityError (site : Nat) : IsRun (.scratchpadParityError site) :=
  fun s => ⟨_, show execScratchpadParityError site s = _ from rfl⟩
theorem isRun_plankGateIdle (p : Nat) : IsRun (.plankGateIdle p) :=
  fun s => ⟨_, show execPlankGateIdle p s = _ from rfl⟩
theorem isRun_barrierArrival (unit site gen : Nat) : IsRun (.barrierArrival unit site gen) :=
  fun s => ⟨_, show execBarrierArrival unit site gen s = _ from rfl⟩
theorem isRun_fullingHoldEnd (unit : Nat) : IsRun (.fullingHoldEnd unit) :=
  fun s => ⟨_, show execFullingHoldEnd unit s = _ from rfl⟩
theorem isRun_issueRampStage (p : Nat) : IsRun (.issueRampStage p) :=
  fun s => ⟨_, show execIssueRampStage p s = _ from rfl⟩
theorem isRun_capStageTimeout (h : Nat) : IsRun (.capStageTimeout h) :=
  fun s => ⟨_, show execCapStageTimeout h s = _ from rfl⟩
theorem isRun_powerEstimateTick (pkgWatts : Nat) (est : List (Nat × Nat)) : IsRun (.powerEstimateTick pkgWatts est) :=
  fun s => ⟨_, show execPowerEstimateTick pkgWatts est s = _ from rfl⟩
theorem isRun_freqStepComplete (p : Nat) : IsRun (.freqStepComplete p) :=
  fun s => ⟨_, show execFreqStepComplete p s = _ from rfl⟩
theorem isRun_droopTrip (p : Nat) : IsRun (.droopTrip p) :=
  fun s => ⟨_, show execDroopTrip p s = _ from rfl⟩
theorem isRun_droopStretchEnd (p : Nat) : IsRun (.droopStretchEnd p) :=
  fun s => ⟨_, show execDroopStretchEnd p s = _ from rfl⟩
theorem isRun_droopHoldoffEnd (p : Nat) : IsRun (.droopHoldoffEnd p) :=
  fun s => ⟨_, show execDroopHoldoffEnd p s = _ from rfl⟩
theorem isRun_droopIntervalEnd (p : Nat) (overHalf : Bool) : IsRun (.droopIntervalEnd p overHalf) :=
  fun s => ⟨_, show execDroopIntervalEnd p overHalf s = _ from rfl⟩
theorem isRun_electricalEmergency (regulator : Bool) : IsRun (.electricalEmergency regulator) :=
  fun s => ⟨_, show execElectricalEmergency regulator s = _ from rfl⟩
theorem isRun_emergencyReleaseStage : IsRun .emergencyReleaseStage :=
  fun s => ⟨_, show execEmergencyReleaseStage s = _ from rfl⟩
theorem isRun_pmbusTelemetryPoll (readings : List (Nat × Nat)) (faults : List Nat) : IsRun (.pmbusTelemetryPoll readings faults) :=
  fun s => ⟨_, show execPmbusTelemetryPoll readings faults s = _ from rfl⟩
theorem isRun_pmbAlert (rail : Nat) (fault : Bool) : IsRun (.pmbAlert rail fault) :=
  fun s => ⟨_, show execPmbAlert rail fault s = _ from rfl⟩
theorem isRun_regulatorTimeout (rail : Nat) : IsRun (.regulatorTimeout rail) :=
  fun s => ⟨_, show execRegulatorTimeout rail s = _ from rfl⟩
theorem isRun_thermalSample (readings layers : List (Nat × Int)) : IsRun (.thermalSample readings layers) :=
  fun s => ⟨_, show execThermalSample readings layers s = _ from rfl⟩
theorem isRun_throttleStep (p : Nat) : IsRun (.throttleStep p) :=
  fun s => ⟨_, show execThrottleStep p s = _ from rfl⟩
theorem isRun_throttleRecoveryStep (p : Nat) : IsRun (.throttleRecoveryStep p) :=
  fun s => ⟨_, show execThrottleRecoveryStep p s = _ from rfl⟩
theorem isRun_thermalEmergency (sensor : Nat) : IsRun (.thermalEmergency sensor) :=
  fun s => ⟨_, show execThermalEmergency sensor s = _ from rfl⟩
theorem isRun_hardwareThermalTrip (sensor : Nat) : IsRun (.hardwareThermalTrip sensor) :=
  fun s => ⟨_, show execHardwareThermalTrip sensor s = _ from rfl⟩
theorem isRun_groupConfirmTick : IsRun .groupConfirmTick :=
  fun s => ⟨_, show execGroupConfirmTick s = _ from rfl⟩
theorem isRun_arrive (member gid seq lateness : Nat) : IsRun (.arrive member gid seq lateness) :=
  fun s => ⟨_, show execArrive member gid seq lateness s = _ from rfl⟩
theorem isRun_shift (seq : Nat) (off : Int) (time : Nat) : IsRun (.shift seq off time) :=
  fun s => ⟨_, show execShift seq off time s = _ from rfl⟩
theorem isRun_revert (pkg : Nat) : IsRun (.revert pkg) :=
  fun s => ⟨_, show execRevert pkg s = _ from rfl⟩
theorem isRun_groupShiftTimeout : IsRun .groupShiftTimeout :=
  fun s => ⟨_, show execGroupShiftTimeout s = _ from rfl⟩
theorem isRun_groupRestoreTimer : IsRun .groupRestoreTimer :=
  fun s => ⟨_, show execGroupRestoreTimer s = _ from rfl⟩
theorem isRun_groupOffsetRiseTimer : IsRun .groupOffsetRiseTimer :=
  fun s => ⟨_, show execGroupOffsetRiseTimer s = _ from rfl⟩
theorem isRun_hatbandWindowStart (h : Nat) : IsRun (.hatbandWindowStart h) :=
  fun s => ⟨_, show execHatbandWindowStart h s = _ from rfl⟩
theorem isRun_rds (line : Nat) (who : Asker) (ecc : Nat) : IsRun (.rds line who ecc) :=
  fun s => ⟨_, show execRds line who ecc s = _ from rfl⟩
theorem isRun_rdx (line : Nat) (who : Asker) : IsRun (.rdx line who) :=
  fun s => ⟨_, show execRdx line who s = _ from rfl⟩
theorem isRun_upg (line : Nat) (who : Asker) : IsRun (.upg line who) :=
  fun s => ⟨_, show execUpg line who s = _ from rfl⟩
theorem isRun_rdu (h line req ecc : Nat) : IsRun (.rdu h line req ecc) :=
  fun s => ⟨_, show execRdu h line req ecc s = _ from rfl⟩
theorem isRun_wru (h line req off ecc : Nat) (data : List Byte) : IsRun (.wru h line req off ecc data) :=
  fun s => ⟨_, show execWru h line req off ecc data s = _ from rfl⟩
theorem isRun_wbm (line req : Nat) : IsRun (.wbm line req) :=
  fun s => ⟨_, show execWbm line req s = _ from rfl⟩
theorem isRun_evc (line req : Nat) : IsRun (.evc line req) :=
  fun s => ⟨_, show execEvc line req s = _ from rfl⟩
theorem isRun_atomicAdd (a : AtomArgs) : IsRun (.atomicAdd a) :=
  fun s => ⟨_, show execAtomicAdd a s = _ from rfl⟩
theorem isRun_atomicAnd (a : AtomArgs) : IsRun (.atomicAnd a) :=
  fun s => ⟨_, show execAtomicAnd a s = _ from rfl⟩
theorem isRun_atomicOr (a : AtomArgs) : IsRun (.atomicOr a) :=
  fun s => ⟨_, show execAtomicOr a s = _ from rfl⟩
theorem isRun_atomicXor (a : AtomArgs) : IsRun (.atomicXor a) :=
  fun s => ⟨_, show execAtomicXor a s = _ from rfl⟩
theorem isRun_atomicSmin (a : AtomArgs) : IsRun (.atomicSmin a) :=
  fun s => ⟨_, show execAtomicSmin a s = _ from rfl⟩
theorem isRun_atomicSmax (a : AtomArgs) : IsRun (.atomicSmax a) :=
  fun s => ⟨_, show execAtomicSmax a s = _ from rfl⟩
theorem isRun_atomicUmin (a : AtomArgs) : IsRun (.atomicUmin a) :=
  fun s => ⟨_, show execAtomicUmin a s = _ from rfl⟩
theorem isRun_atomicUmax (a : AtomArgs) : IsRun (.atomicUmax a) :=
  fun s => ⟨_, show execAtomicUmax a s = _ from rfl⟩
theorem isRun_atomicSwap (a : AtomArgs) : IsRun (.atomicSwap a) :=
  fun s => ⟨_, show execAtomicSwap a s = _ from rfl⟩
theorem isRun_atomicCas (a : AtomArgs) : IsRun (.atomicCas a) :=
  fun s => ⟨_, show execAtomicCas a s = _ from rfl⟩
theorem isRun_atomicFadd (a : AtomArgs) : IsRun (.atomicFadd a) :=
  fun s => ⟨_, show execAtomicFadd a s = _ from rfl⟩
theorem isRun_fwds (line holder : Nat) : IsRun (.fwds line holder) :=
  fun s => ⟨_, show execFwds line holder s = _ from rfl⟩
theorem isRun_fwdx (line holder : Nat) : IsRun (.fwdx line holder) :=
  fun s => ⟨_, show execFwdx line holder s = _ from rfl⟩
theorem isRun_fwdrd (line holder : Nat) : IsRun (.fwdrd line holder) :=
  fun s => ⟨_, show execFwdrd line holder s = _ from rfl⟩
theorem isRun_inv (line holder : Nat) : IsRun (.inv line holder) :=
  fun s => ⟨_, show execInv line holder s = _ from rfl⟩
theorem isRun_recall (line holder : Nat) : IsRun (.recall line holder) :=
  fun s => ⟨_, show execRecall line holder s = _ from rfl⟩
theorem isRun_invack (line holder : Nat) : IsRun (.invack line holder) :=
  fun s => ⟨_, show execInvack line holder s = _ from rfl⟩
theorem isRun_done (line src : Nat) : IsRun (.done line src) :=
  fun s => ⟨_, show execDone line src s = _ from rfl⟩
theorem isRun_upgradeGrant (line req : Nat) : IsRun (.upgradeGrant line req) :=
  fun s => ⟨_, show execUpgradeGrant line req s = _ from rfl⟩
theorem isRun_atomresult (line req : Nat) : IsRun (.atomresult line req) :=
  fun s => ⟨_, show execAtomresult line req s = _ from rfl⟩
theorem isRun_wrack (line req : Nat) : IsRun (.wrack line req) :=
  fun s => ⟨_, show execWrack line req s = _ from rfl⟩
theorem isRun_data (line req : Nat) : IsRun (.data line req) :=
  fun s => ⟨_, show execData line req s = _ from rfl⟩
theorem isRun_datax (line req : Nat) : IsRun (.datax line req) :=
  fun s => ⟨_, show execDatax line req s = _ from rfl⟩
theorem isRun_wbdata (line src : Nat) : IsRun (.wbdata line src) :=
  fun s => ⟨_, show execWbdata line src s = _ from rfl⟩
theorem isRun_patrol (stack : Nat) (lines errs : List Nat) : IsRun (.patrol stack lines errs) :=
  fun s => ⟨_, show execPatrol stack lines errs s = _ from rfl⟩
theorem isRun_counterHalve (stack : Nat) : IsRun (.counterHalve stack) :=
  fun s => ⟨_, show execCounterHalve stack s = _ from rfl⟩
theorem isRun_dataFlit (f : Flit) : IsRun (.dataFlit f) :=
  fun s => ⟨_, show execDataFlit f s = _ from rfl⟩
theorem isRun_idleFlit (f : Flit) : IsRun (.idleFlit f) :=
  fun s => ⟨_, show execIdleFlit f s = _ from rfl⟩
theorem isRun_linkLoss (e : LinkEnd) : IsRun (.linkLoss e) :=
  fun s => ⟨_, show execLinkLoss e s = _ from rfl⟩
theorem isRun_keepaliveTick : IsRun .keepaliveTick :=
  fun s => ⟨_, show execKeepaliveTick s = _ from rfl⟩
theorem isRun_keepalive (pkg : Nat) : IsRun (.keepalive pkg) :=
  fun s => ⟨_, show execKeepalive pkg s = _ from rfl⟩
theorem isRun_pathLoss (pkg : Nat) : IsRun (.pathLoss pkg) :=
  fun s => ⟨_, show execPathLoss pkg s = _ from rfl⟩
theorem isRun_retrainNotice (l : Nat) : IsRun (.retrainNotice l) :=
  fun s => ⟨_, show execRetrainNotice l s = _ from rfl⟩
theorem isRun_linkTrainingComplete (l lanes : Nat) : IsRun (.linkTrainingComplete l lanes) :=
  fun s => ⟨_, show execLinkTrainingComplete l lanes s = _ from rfl⟩
theorem isRun_linkRetrainRetry (l : Nat) : IsRun (.linkRetrainRetry l) :=
  fun s => ⟨_, show execLinkRetrainRetry l s = _ from rfl⟩
theorem isRun_mreqHoldRelease (die dst : Nat) : IsRun (.mreqHoldRelease die dst) :=
  fun s => ⟨_, show execMreqHoldRelease die dst s = _ from rfl⟩
theorem isRun_associationRekey (die idx : Nat) : IsRun (.associationRekey die idx) :=
  fun s => ⟨_, show execAssociationRekey die idx s = _ from rfl⟩
theorem isRun_pieceSend (engine : Nat) : IsRun (.pieceSend engine) :=
  fun s => ⟨_, show execPieceSend engine s = _ from rfl⟩
theorem isRun_pieceLanded (engine : Nat) (spot : Landing) (data : List Byte) (psn : List Nat) : IsRun (.pieceLanded engine spot data psn) :=
  fun s => ⟨_, show execPieceLanded engine spot data psn s = _ from rfl⟩
theorem isRun_tamperTrip (cause : Nat) : IsRun (.tamperTrip cause) :=
  fun s => ⟨_, show execTamperTrip cause s = _ from rfl⟩
theorem isRun_hatterWatchdogTimeout : IsRun .hatterWatchdogTimeout :=
  fun s => ⟨_, show execHatterWatchdogTimeout s = _ from rfl⟩
theorem isRun_singeCountRetry (accepted : Bool) : IsRun (.singeCountRetry accepted) :=
  fun s => ⟨_, show execSingeCountRetry accepted s = _ from rfl⟩
theorem isRun_trngHealthFailure : IsRun .trngHealthFailure :=
  fun s => ⟨_, show execTrngHealthFailure s = _ from rfl⟩
theorem isRun_physicalFault (kind index : Nat) : IsRun (.physicalFault kind index) :=
  fun s => ⟨_, show execPhysicalFault kind index s = _ from rfl⟩
theorem isRun_devicePowerStateChange (fn : Nat) (d3hot : Bool) : IsRun (.devicePowerStateChange fn d3hot) :=
  fun s => ⟨_, show execDevicePowerStateChange fn d3hot s = _ from rfl⟩
theorem isRun_interruptDisableChange (v : Bool) : IsRun (.interruptDisableChange v) :=
  fun s => ⟨_, show execInterruptDisableChange v s = _ from rfl⟩
theorem isRun_resizableBarWrite (log2 : Nat) : IsRun (.resizableBarWrite log2) :=
  fun s => ⟨_, show execResizableBarWrite log2 s = _ from rfl⟩
theorem isRun_pcieLinkError (code : Nat) : IsRun (.pcieLinkError code) :=
  fun s => ⟨_, show execPcieLinkError code s = _ from rfl⟩
theorem isRun_dynamicAddressAssignment (addr : Nat) : IsRun (.dynamicAddressAssignment addr) :=
  fun s => ⟨_, show execDynamicAddressAssignment addr s = _ from rfl⟩
theorem isRun_rstdaa : IsRun .rstdaa :=
  fun s => ⟨_, show execRstdaa s = _ from rfl⟩

/-- COLD_START acts only on a package without power (R377, R410). -/
theorem exec_coldStart (f : FlashImage) (kat : Bool) (fs fc : List Nat) (st : Option Nat) (s : State) :
    exec (.coldStart f kat fs fc st) s = .next (if s.nap.pgood then s else finish s (coldStartEff f kat fs fc st s)) := rfl

end Sys2Proof.Machine
end

