-- ==== Sys2Proof/Laws/Memory.lean ====
section
/-!
SUPPORT. Laws/Memory.lean: reading a byte after the primitive writes of the three memories, and that each operation which changes a memory
keeps its canonical form. Every other operation of the model writes through these.
-/
namespace Sys2Proof.Machine

/-- Insert bytes at rising keys from `k`. -/
def insertFrom (m : Table Byte) (k : Nat → Nat) (l : List (Nat × Byte)) : Table Byte := l.foldl (fun m p => m.insert (k p.1) p.2) m

theorem insertFrom_sorted (m : Table Byte) (k : Nat → Nat) (l : List (Nat × Byte)) (h : Memory.wf m = true) : Memory.wf (insertFrom m k l) = true := by
  induction l generalizing m with
  | nil => exact h
  | cons p r ih => exact ih _ (Table.sorted_insert _ _ h)

/-- A key that no byte goes to reads as before. -/
theorem insertFrom_find_of_not (m : Table Byte) (k : Nat → Nat) (l : List (Nat × Byte)) (j : Nat) (h : ∀ p ∈ l, j ≠ k p.1) :
    (insertFrom m k l).find j = m.find j := by
  induction l generalizing m with
  | nil => rfl
  | cons p r ih =>
    have := ih (m.insert (k p.1) p.2) (fun q hq => h q (List.mem_cons_of_mem _ hq))
    exact this.trans (Table.find_insert_of_ne m p.2 (h p (List.mem_cons_self ..)))

theorem putBytes_wf (s : State) (ga : Nat) (d : List Byte) (h : Memory.wf s.mem = true) : Memory.wf (s.putBytes ga d).mem = true :=
  insertFrom_sorted s.mem (ga + ·) _ h

/-- A write to another package's memory keeps the form of the bytes and of the marks. -/
theorem farWr_wf (s : State) (pkg lease a : Nat) (d : List PB) (h : Memory.wf s.farMem = true) : Memory.wf (s.farWr pkg lease a d).farMem = true :=
  insertFrom_sorted s.farMem (fun i => farKey pkg lease (a + i)) _ h

theorem farWr_psn_sorted (s : State) (pkg lease a : Nat) (d : List PB) (h : Table.sorted s.farPsn = true) :
    Table.sorted (s.farWr pkg lease a d).farPsn = true := by
  unfold State.farWr
  dsimp only
  split
  · exact Table.sorted_insert _ _ h
  · split
    · exact Table.sorted_erase _ h
    · exact h

theorem setPsn_sorted (s : State) (line : Nat) (v : Bool) (h : Table.sorted s.poison = true) : Table.sorted (s.setPsn line v).poison = true := by
  unfold State.setPsn
  cases v
  · exact Table.sorted_erase _ h
  · exact Table.sorted_insert _ _ h

theorem chanWr_wf (s : State) (line off : Nat) (d : List PB) (h : Memory.wf s.mem = true) : Memory.wf (s.chanWr line off d).mem = true := by
  unfold State.chanWr
  split
  · exact h
  · exact putBytes_wf s _ _ h

theorem hostWr_wf (s : State) (a : Nat) (d : List Byte) (h : Memory.wf s.hostMem = true) : Memory.wf (s.hostWr a d).hostMem = true :=
  insertFrom_sorted s.hostMem (a + ·) _ h

/-- A byte outside those written reads as before. -/
theorem putBytes_find_of_not (s : State) (ga : Nat) (d : List Byte) (j : Nat) (h : j < ga ∨ ga + d.length ≤ j) :
    (s.putBytes ga d).mem.find j = s.mem.find j := by
  refine insertFrom_find_of_not s.mem (ga + ·) _ j (fun p hp => ?_)
  have := List.mem_range.1 (List.of_mem_zip hp).1
  show j ≠ ga + p.1
  omega

theorem hostWr_find_of_not (s : State) (a : Nat) (d : List Byte) (j : Nat) (h : j < a ∨ a + d.length ≤ j) :
    (s.hostWr a d).hostMem.find j = s.hostMem.find j := by
  refine insertFrom_find_of_not s.hostMem (a + ·) _ j (fun p hp => ?_)
  have := List.mem_range.1 (List.of_mem_zip hp).1
  show j ≠ a + p.1
  omega

/-- The memories at reset list nothing. -/
theorem reset_mem_wf : Memory.wf State.reset.mem = true ∧ Memory.wf State.reset.hostMem = true ∧ Memory.wf State.reset.farMem = true :=
  ⟨rfl, rfl, rfl⟩

/-- Erasing extents (R104) keeps the form. -/
theorem dropIf_wf (m : Table Byte) (p : Nat → Bool) (h : Memory.wf m = true) : Memory.wf (m.dropIf p) = true := Table.sorted_dropIf p h

end Sys2Proof.Machine
end

