-- ==== Sys2Proof/Laws/Regs.lean ====
section
/-!
SUPPORT. Laws/Regs.lean: what the shared operations that write only registers, and those of the power manager, may change: `OnlyRegs ks` and
`OnlyPower ks` say that every other field, and every register copy whose key is not in `ks`, is left as it was.
-/
namespace Sys2Proof.Machine

/-- Only the register copies with keys in `ks` may differ. -/
def OnlyRegs (ks : List Nat) (s t : State) : Prop :=
  t = { s with regs := t.regs } ∧ ∀ j c, regKey j c ∉ ks → t.reg j c = s.reg j c

namespace OnlyRegs

theorem refl (ks : List Nat) (s : State) : OnlyRegs ks s s := ⟨rfl, fun _ _ _ => rfl⟩

theorem trans {ks ks' : List Nat} {s t u : State} (h : OnlyRegs ks s t) (k : OnlyRegs ks' t u) : OnlyRegs (ks ++ ks') s u := by
  refine ⟨?_, fun j c hj => ?_⟩
  · rw [k.1, h.1]
  · rw [List.mem_append, not_or] at hj; rw [k.2 j c hj.2, h.2 j c hj.1]

theorem mono {ks ks' : List Nat} {s t : State} (h : OnlyRegs ks s t) (hk : ∀ k ∈ ks, k ∈ ks') : OnlyRegs ks' s t :=
  ⟨h.1, fun j c hj => h.2 j c (fun hm => hj (hk _ hm))⟩

theorem trans' {ks : List Nat} {s t u : State} (h : OnlyRegs ks s t) (k : OnlyRegs ks t u) : OnlyRegs ks s u :=
  (h.trans k).mono (fun _ h => by simpa using h)

end OnlyRegs

theorem onlyRegs_setReg (s : State) (off i v : Nat) : OnlyRegs [regKey off i] s (s.setReg off i v) :=
  ⟨rfl, fun j c hj => State.setReg_reg_of_ne s v (by simpa using hj)⟩

theorem onlyRegs_modReg (s : State) (off i : Nat) (f : Nat → Nat) : OnlyRegs [regKey off i] s (s.modReg off i f) := onlyRegs_setReg ..

theorem onlyRegs_countReg (s : State) (off i n : Nat) : OnlyRegs [regKey off i] s (s.countReg off i n) := onlyRegs_setReg ..

theorem onlyRegs_errCount (s : State) (fn : Nat) : OnlyRegs [regKey rHOST_ERR_COUNT fn] s (s.errCount fn) := onlyRegs_setReg ..

theorem onlyRegs_reject (s : State) (h : Nat) : OnlyRegs [regKey rHOOD_REJECT_COUNT h] s (s.reject h) := onlyRegs_setReg ..

theorem onlyRegs_hostClamp (s : State) (fn row : Nat) :
    OnlyRegs [regKey rHOST_CLAMP fn, regKey rHOST_CLAMP_ROW fn] s (s.hostClamp fn row) :=
  (onlyRegs_countReg ..).trans (onlyRegs_setReg ..)

theorem onlyRegs_ctxClamp (s : State) (c row : Nat) :
    OnlyRegs [regKey rCTX_CLAMP c, regKey rCTX_CLAMP_ROW c] s (s.ctxClamp c row) :=
  (onlyRegs_countReg ..).trans (onlyRegs_setReg ..)

theorem onlyRegs_cause (s : State) (off fn b : Nat) : OnlyRegs [regKey off fn] s (s.cause off fn b) := by
  unfold State.cause
  split
  · exact onlyRegs_modReg ..
  · exact .refl ..

theorem onlyRegs_causeV (s : State) (off fn b det v : Nat) : OnlyRegs [regKey det fn, regKey off fn] s (s.causeV off fn b det v) := by
  unfold State.causeV
  split
  · exact (onlyRegs_setReg ..).trans (onlyRegs_cause ..)
  · exact .refl ..

theorem onlyRegs_causeM (s : State) (off fn b det i : Nat) : OnlyRegs [regKey det fn, regKey off fn] s (s.causeM off fn b det i) := by
  unfold State.causeM
  split
  · exact (onlyRegs_modReg ..).trans (onlyRegs_cause ..)
  · exact .refl ..

/-- A cause bit is set in the function, if it exists (R231). -/
theorem cause_sets (s : State) (off fn b : Nat) (h : s.fnOn fn = true) :
    (s.cause off fn b).reg off fn = (s.reg off fn ||| 1 <<< b) % 2 ^ 64 := by
  simp [State.cause, h, State.modReg]

/-! ### The power manager -/

/-- Only the planks, the power manager and the register copies with keys in `ks` may differ. -/
def OnlyPower (ks : List Nat) (s t : State) : Prop :=
  t = { s with regs := t.regs, planks := t.planks, power := t.power } ∧ ∀ j c, regKey j c ∉ ks → t.reg j c = s.reg j c

namespace OnlyPower

theorem refl (ks : List Nat) (s : State) : OnlyPower ks s s := ⟨rfl, fun _ _ _ => rfl⟩

theorem trans {ks : List Nat} {s t u : State} (h : OnlyPower ks s t) (k : OnlyPower ks t u) : OnlyPower ks s u :=
  ⟨by rw [k.1, h.1], fun j c hj => by rw [k.2 j c hj, h.2 j c hj]⟩

theorem ofRegs {ks ks' : List Nat} {s t : State} (h : OnlyRegs ks s t) (hk : ∀ k ∈ ks, k ∈ ks') : OnlyPower ks' s t :=
  ⟨by rw [h.1], fun j c hj => h.2 j c (fun hm => hj (hk _ hm))⟩

theorem mono {ks ks' : List Nat} {s t : State} (h : OnlyPower ks s t) (hk : ∀ k ∈ ks, k ∈ ks') : OnlyPower ks' s t :=
  ⟨h.1, fun j c hj => h.2 j c (fun hm => hj (hk _ hm))⟩

end OnlyPower

theorem onlyPower_modPlank (ks : List Nat) (s : State) (p : Nat) (f : Plank → Plank) : OnlyPower ks s (s.modPlank p f) :=
  ⟨rfl, fun _ _ _ => rfl⟩

theorem onlyPower_power (ks : List Nat) (s : State) (p : Power) : OnlyPower ks s { s with power := p } := ⟨rfl, fun _ _ _ => rfl⟩

theorem onlyPower_foldl {α : Type} (ks : List Nat) {f : State → α → State} (hf : ∀ s a, OnlyPower ks s (f s a)) (l : List α) (s : State) :
    OnlyPower ks s (l.foldl f s) := by
  induction l generalizing s with
  | nil => exact .refl ..
  | cons a l ih => exact (hf s a).trans (ih _)

theorem onlyPower_redivide (ks : List Nat) (s : State) (cap : Nat) (q : Nat → Bool) : OnlyPower ks s (s.redivide cap q) :=
  onlyPower_foldl (α := Nat × Nat × Bool) ks (fun s e => onlyPower_modPlank ks s e.1 _) _ s

theorem onlyPower_repower (ks : List Nat) (s : State) : OnlyPower ks s s.repower := onlyPower_redivide ..

theorem onlyPower_stage (ks : List Nat) (s : State) (hs : List Nat) : OnlyPower ks s (s.stage hs) := onlyPower_power ..

theorem onlyPower_demote (ks : List Nat) (s : State) : OnlyPower ks s s.demote := by
  unfold State.demote
  split
  · exact onlyPower_stage ..
  · exact .refl ..

/-- The registers that a change of the effective cap writes (R324, R332, R337). -/
def capKeys : List Nat := [regKey rPWR_CAP_EFF 0, regKey rPWR_GRP_OFFSET 0, regKey rPWR_CAUSE 0]

theorem onlyPower_setReg {ks : List Nat} {s : State} {off i v : Nat} (h : regKey off i ∈ ks) : OnlyPower ks s (s.setReg off i v) :=
  OnlyPower.ofRegs (onlyRegs_setReg s off i v) (by simpa using h)

theorem onlyPower_capDone (s : State) : OnlyPower capKeys s s.capDone := by
  unfold State.capDone
  split
  · exact .refl ..
  · dsimp only
    refine OnlyPower.trans ?_ (OnlyPower.ofRegs (onlyRegs_cause ..) (by simp [capKeys]))
    refine OnlyPower.trans ?_ (onlyPower_power capKeys _ _)
    refine OnlyPower.trans ?_ (onlyPower_setReg (by simp [capKeys]))
    exact onlyPower_setReg (by simp [capKeys])

theorem onlyPower_changeCap (s : State) : OnlyPower capKeys s s.changeCap := by
  unfold State.changeCap
  dsimp only
  split
  · exact .refl ..
  · exact (((onlyPower_power capKeys _ _).trans (onlyPower_stage ..)).trans (onlyPower_redivide ..)).trans (onlyPower_capDone ..)

end Sys2Proof.Machine
end

