-- ==== Sys2Proof/Laws/Xlat.lean ====
section
/-!
SUPPORT. Laws/Xlat.lean: what an access of an engine may change (`Accessed`): every shared operation on the way of a read or a write by
virtual address leaves work, tiles, sites, planks, waits, rings of tiles, started descriptors and the blocks of hoods as they were.
-/
namespace Sys2Proof.Machine

/-- What keeps all these fields is an access. -/
theorem Accessed.of_eq {s u : State} (h1 : u.works = s.works) (h2 : u.tiles = s.tiles) (h3 : u.sites = s.sites) (h4 : u.planks = s.planks)
    (h5 : u.waits = s.waits) (h6 : u.rots = s.rots) (h7 : u.rings = s.rings) (h8 : u.hoods = s.hoods) : Accessed s u :=
  ⟨fun w => by simp only [State.work?, h1], h2, h3, h4, h5, h6, fun r => by simp only [State.ring, h7], fun h => by simp only [State.hood, h8]⟩

theorem Accessed.rfl' (s : State) : Accessed s s := .of_eq rfl rfl rfl rfl rfl rfl rfl rfl

theorem Accessed.trans {s t u : State} (h : Accessed s t) (k : Accessed t u) : Accessed s u := by
  obtain ⟨h1, h2, h3, h4, h5, h6, h7, h8⟩ := h
  obtain ⟨k1, k2, k3, k4, k5, k6, k7, k8⟩ := k
  exact ⟨fun w => (k1 w).trans (h1 w), k2.trans h2, k3.trans h3, k4.trans h4, k5.trans h5, k6.trans h6, fun r => (k7 r).trans (h7 r),
    fun g => (k8 g).trans (h8 g)⟩

/-- A loop keeps what each turn keeps. -/
theorem foldl_accessed {α : Type} {f : State → α → State} (h : ∀ t a, Accessed t (f t a)) (l : List α) (s : State) : Accessed s (l.foldl f s) := by
  induction l generalizing s with
  | nil => exact .rfl' s
  | cons a l ih => exact (h s a).trans (ih (f s a))

theorem setReg_accessed (s : State) (off i v : Nat) : Accessed s (s.setReg off i v) := .of_eq rfl rfl rfl rfl rfl rfl rfl rfl

theorem OnlyRegs.accessed {ks : List Nat} {s t : State} (h : OnlyRegs ks s t) : Accessed s t := by rw [h.1]; exact setReg_accessed s 0 0 0

theorem draw_accessed (s : State) : Accessed s s.draw.2 := .of_eq rfl rfl rfl rfl rfl rfl rfl rfl

theorem xlt_accessed (s : State) (x : Xlt) : Accessed s { s with xlt := x } := .of_eq rfl rfl rfl rfl rfl rfl rfl rfl

/-- Accesses to the memory of a hood change what `memSide` takes over, and nothing else. -/
theorem memSide_accessed (s t : State) : Accessed s (s.memSide t) := .of_eq rfl rfl rfl rfl rfl rfl rfl rfl

theorem rdB_accessed (s : State) (a : Acc) (b : Block) (x n : Nat) : Accessed s (s.rdB a b x n).2 := memSide_accessed ..

theorem wrB_accessed (s : State) (a : Acc) (b : Block) (x : Nat) (d : List PB) : Accessed s (s.wrB a b x d) := memSide_accessed ..

theorem settled_accessed (s : State) : Accessed s s.settled := memSide_accessed ..

theorem rdHood_accessed (s : State) (a : Acc) (x n : Nat) : Accessed s (s.rdHood a x n).2 :=
  (rdB_accessed ..).trans (settled_accessed ..)

theorem wrHood_accessed (s : State) (a : Acc) (x : Nat) (d : List PB) : Accessed s (s.wrHood a x d) :=
  (wrB_accessed ..).trans (settled_accessed ..)

/-- A lender noted at a ring is no change of what is started. -/
theorem modRing_accessed (s : State) (g : Nat) (f : Ring → Ring) (h : ∀ k, (f k).started = k.started) : Accessed s (s.modRing g f) := by
  refine ⟨fun _ => rfl, rfl, rfl, rfl, rfl, rfl, fun j => ?_, fun _ => rfl⟩
  rw [State.modRing_ring]
  split
  · exact h _
  · rfl

/-- A note at a work leaves its core. -/
theorem modWork_accessed (s : State) (g : Nat) (f : Work → Work) (h : ∀ x, (f x).core = x.core) : Accessed s (s.modWork g f) := by
  unfold State.modWork
  split
  · rename_i x hx
    refine ⟨fun w => ?_, rfl, rfl, rfl, rfl, rfl, fun _ => rfl, fun _ => rfl⟩
    by_cases hw : w = g
    · subst hw
      simp only [State.work?, Table.find_insert_self, hx, Option.map_some, h]
    · simp only [State.work?, Table.find_insert_of_ne _ _ hw]
  · exact .rfl' s

theorem noteLender_accessed (s : State) (w r : Option Nat) (p : Nat) : Accessed s (s.noteLender w r p) := by
  unfold State.noteLender
  split
  · exact modWork_accessed _ _ _ (fun x => by split <;> rfl)
  · exact modRing_accessed _ _ _ (fun k => by split <;> rfl)
  · exact .rfl' s

theorem noteFar_accessed (s : State) (e : Eng) (a : Nat) : Accessed s (s.noteFar e a) := by
  unfold State.noteFar
  split
  · exact noteLender_accessed ..
  · exact .rfl' s

theorem fromHost_accessed (s : State) (e : Eng) (a n : Nat) : Accessed s (s.fromHost e a n).2 := by
  unfold State.fromHost
  dsimp only
  split
  · exact modWork_accessed _ _ _ (fun x => rfl)
  · exact .rfl' s

/-! ### Translation -/

theorem walkAt_accessed (a : Acc) (b : Block) (va rem : Nat) (s : State) (l : Nat) (table : Nat) (above : BitVec 64)
    (seen : List (Nat × BitVec 64)) : Accessed s (walkAt a b va rem s l table above seen).2.1 := by
  induction l generalizing s table above seen with
  | zero =>
    have h := rdB_accessed s a b (table + 8 * lvlIndex 0 va) 8
    unfold walkAt
    dsimp only
    repeat' split
    all_goals exact h
  | succ l ih =>
    have h := rdB_accessed s a b (table + 8 * lvlIndex (l + 1) va) 8
    unfold walkAt
    dsimp only
    repeat' split
    all_goals first | exact .rfl' s | exact h | exact h.trans (ih ..)

theorem walkPut_accessed (s : State) (e : Eng) (va : Nat) (l : List (Nat × BitVec 64)) : Accessed s (s.walkPut e va l) := by
  unfold State.walkPut
  split
  · exact .rfl' s
  · refine foldl_accessed (fun t p => ?_) l s
    dsimp only
    split
    · exact xlt_accessed ..
    · exact (draw_accessed t).trans (xlt_accessed ..)

theorem walkFull_accessed (s : State) (e : Eng) (va rem : Nat) : Accessed s (s.walkFull e va rem).2.1 := walkAt_accessed ..

theorem walkFrom_accessed (s : State) (e : Eng) (w : WalkEnt) (va rem : Nat) : Accessed s (s.walkFrom e w va rem).2.1 := by
  unfold State.walkFrom
  split
  · exact .rfl' s
  · exact walkAt_accessed ..

theorem walk_accessed (s : State) (e : Eng) (va rem : Nat) : Accessed s (s.walk e va rem).2 := by
  have fin : ∀ (t : State) (r : Except Stop Leaf × State × List (Nat × BitVec 64)), Accessed t r.2.1 →
      Accessed t (r.2.1.walkPut e (va % 2 ^ 48) r.2.2) := fun t r h => h.trans (walkPut_accessed ..)
  have hd := draw_accessed s
  unfold State.walk
  generalize s.draw = q at hd ⊢
  obtain ⟨f, u⟩ := q
  have full := fun t => fin t _ (walkFull_accessed t e (va % 2 ^ 48) rem)
  have near := fun t w => fin t _ (walkFrom_accessed t e w (va % 2 ^ 48) rem)
  have pick : ∀ (c : Prop) [Decidable c] (w : WalkEnt) (x y : Except Stop Leaf), Accessed s
      (if c then (x, (u.walkFrom e w (va % 2 ^ 48) rem).2.1.walkPut e (va % 2 ^ 48) (u.walkFrom e w (va % 2 ^ 48) rem).2.2)
        else (y, (u.walkFull e (va % 2 ^ 48) rem).2.1.walkPut e (va % 2 ^ 48) (u.walkFull e (va % 2 ^ 48) rem).2.2)).2 := by
    intro c _ w x y
    split
    · exact hd.trans (near u w)
    · exact hd.trans (full u)
  dsimp only
  split
  · exact full s
  · rename_i w _
    split
    · split
      · exact near s w
      · exact pick ..
    · split
      · exact near s w
      · exact pick ..
    · exact pick ..

theorem tlbPut_accessed (s : State) (e : Eng) (l : Leaf) : Accessed s (s.tlbPut e l) := by
  unfold State.tlbPut
  dsimp only
  split
  · exact xlt_accessed ..
  · exact (draw_accessed s).trans (xlt_accessed ..)

theorem walkKeep_accessed (s : State) (e : Eng) (va rem : Nat) : Accessed s (s.walkKeep e va rem).2 := by
  have h := walk_accessed s e va rem
  unfold State.walkKeep
  generalize s.walk e va rem = q at h ⊢
  obtain ⟨r, u⟩ := q
  cases r with
  | ok l => exact h.trans (tlbPut_accessed ..)
  | error x => exact h

theorem translate_accessed (s : State) (e : Eng) (va rem acc : Nat) : Accessed s (s.translate e va rem acc).2 := by
  unfold State.translate
  split
  · exact walkKeep_accessed ..
  · split
    · split
      · exact .rfl' s
      · dsimp only
        split
        · exact draw_accessed s
        · exact (draw_accessed s).trans (walkKeep_accessed ..)
    · dsimp only
      split
      · exact draw_accessed s
      · exact (draw_accessed s).trans (walkKeep_accessed ..)

theorem takeDenied_accessed (s u : State) (e : Eng) (pasid page : Nat) (h : s.takeDenied e pasid page = some u) : Accessed s u := by
  unfold State.takeDenied at h
  split at h
  · cases h; exact xlt_accessed ..
  · cases h

theorem pieceAt_accessed (s : State) (e : Eng) (va rem acc : Nat) : Accessed s (s.pieceAt e va rem acc).2 := by
  have h := translate_accessed s e (va % 2 ^ 48) rem acc
  unfold State.pieceAt
  dsimp only
  generalize s.translate e (va % 2 ^ 48) rem acc = q at h ⊢
  obtain ⟨r, u⟩ := q
  cases r with
  | error x => cases x <;> exact h
  | ok l =>
    dsimp only at h ⊢
    repeat' split
    all_goals first | exact h | exact h.trans (takeDenied_accessed _ _ _ _ _ (by assumption))

/-! ### Reads and writes by virtual address -/

theorem rdPieces_accessed (k : Nat) (s : State) (e : Eng) (va n : Nat) (acc : List PB) : Accessed s (rdPieces k s e va n acc).2.1 := by
  induction k generalizing s va n acc with
  | zero => exact .rfl' s
  | succ k ih =>
    have h := pieceAt_accessed s e va n 0
    unfold rdPieces
    split
    · exact .rfl' s
    · generalize s.pieceAt e va n 0 = q at h ⊢
      obtain ⟨d, u⟩ := q
      cases d with
      | stop x => exact h
      | dev a room mt => exact (h.trans ((noteFar_accessed u e a).trans (rdHood_accessed ..))).trans (ih ..)
      | host a room => exact (h.trans (fromHost_accessed u e a (min n room))).trans (ih ..)

theorem rdVA_accessed (s : State) (e : Eng) (va n : Nat) : Accessed s (s.rdVA e va n).2.1 := rdPieces_accessed ..

theorem wrPieces_accessed (k : Nat) (s : State) (e : Eng) (va : Nat) (d : List PB) (k0 : Nat) : Accessed s (wrPieces k s e va d k0).2.1 := by
  induction k generalizing s va d k0 with
  | zero => exact .rfl' s
  | succ k ih =>
    have h := pieceAt_accessed s e va d.length 1
    unfold wrPieces
    split
    · exact .rfl' s
    · generalize s.pieceAt e va d.length 1 = q at h ⊢
      obtain ⟨t, u⟩ := q
      cases t with
      | stop x => exact h
      | dev a room mt => exact (h.trans ((noteFar_accessed u e a).trans (wrHood_accessed ..))).trans (ih ..)
      | host a room =>
        refine (h.trans ?_).trans (ih ..)
        dsimp only
        split <;> exact .of_eq rfl rfl rfl rfl rfl rfl rfl rfl

theorem wrVA_accessed (s : State) (e : Eng) (va : Nat) (d : List PB) : Accessed s (s.wrVA e va d).2.1 := wrPieces_accessed ..

/-- Reading a batt is at most two reads. -/
theorem readBatt_accessed (s : State) (e : Eng) (g : Region) (va m : Nat) : Accessed s (s.readBatt e g va m).2.1 := by
  have h := rdVA_accessed s e va 256
  unfold State.readBatt
  generalize s.rdVA e va 256 = q at h ⊢
  obtain ⟨d, u, y⟩ := q
  cases y with
  | some y => exact h
  | none =>
    dsimp only at h ⊢
    split
    · exact h
    · have k := rdVA_accessed u e (va + 256) (2 * g.sec)
      generalize u.rdVA e (va + 256) (2 * g.sec) = r at k ⊢
      obtain ⟨d', v, y⟩ := r
      cases y <;> exact h.trans k

end Sys2Proof.Machine
end

