-- ==== Sys2Proof/Machine/Lands.lean ====
section
/-!
DEFINITION. Machine/Lands.lean: the land grid and the net of every land (R403 to R406), the rails (R407), and THERMTRIP_N (R413).
-/
namespace Sys2Proof.Machine

/-- The signal lands of row 006, in column order from 020 (Table 3 of Lands). -/
inductive Signal where
  | ref25P | ref25N | xin32 | xout32 | pgoodNap | perstN | alertN | thermtripN | i3cScl | i3cSda | avsClk | avsMdata | avsSdata | pmbScl | pmbSda
  | pmbAlertN | xspiClk | xspiCsN | xspiDq (n : Nat) | xspiDqs | xspiResetN | tck | tms | tdi | tdo | trstN
  deriving DecidableEq, Repr

/-- The net of a site of the grid; `keepOut` where the site carries no land. -/
inductive Net where
  | keepOut | vss | rsvd
  | vinCd (n : Nat) | vddSpine | vddLink (n : Nat) | vddBir | vppBir | vddPcie | vddHat | vddio18 | vddNap
  | sense (rail : Nat) (neg : Bool)
  | signal (x : Signal)
  | stader (link lane : Nat) (tx neg : Bool)
  | pcie (lane : Nat) (tx neg : Bool) | refclk (neg : Bool)
  deriving DecidableEq, Repr

/-- Table 3 of Lands. -/
def signals : List Signal :=
  [.ref25P, .ref25N, .xin32, .xout32, .pgoodNap, .perstN, .alertN, .thermtripN, .i3cScl, .i3cSda, .avsClk, .avsMdata, .avsSdata, .pmbScl, .pmbSda,
    .pmbAlertN, .xspiClk, .xspiCsN, .xspiDq 0, .xspiDq 1, .xspiDq 2, .xspiDq 3, .xspiDq 4, .xspiDq 5, .xspiDq 6, .xspiDq 7, .xspiDqs, .xspiResetN,
    .tck, .tms, .tdi, .tdo, .trstN]

/-- Is a number in a range, both ends included? -/
def between (lo hi n : Nat) : Bool := decide (lo ≤ n) && decide (n ≤ hi)

/-- The outer 20 rows or columns of the grid, and the four at its very edge where a fiducial stands. -/
def outer (n : Nat) : Bool := between 0 19 n || between 120 139 n
def rim (n : Nat) : Bool := between 0 3 n || between 136 139 n

/-- The keep-outs of Table 1 of Lands: corners and mid-edge fiducials. -/
def keptOut (r c : Nat) : Bool := (outer r && outer c) || (rim r && between 68 72 c) || (between 68 72 r && rim c)

/-- The two rows of a link that carry lanes (R405): `i` is the row between the link's five, `j` the column from the link's base column. -/
def staderNet (link i j : Nat) : Net :=
  if 16 ≤ j then .vss
  else if i = 1 then .stader link (j / 2) true (j % 2 == 1)
  else if i = 3 then .stader link (j / 2) false (j % 2 == 1)
  else .vss

/-- Land (i, j) of interior block n (Table 2 of Lands). -/
def interiorNet (n j : Nat) : Net :=
  match n % 4 with
  | 0 => if j % 2 = 1 ∨ j = 24 then .vss else if j ≤ 2 then .vddLink 0 else .vinCd n
  | 3 => if j % 2 = 1 ∨ j = 0 then .vss else if 22 ≤ j then .vddLink 1 else .vinCd n
  | _ => if j % 2 = 1 ∨ j = 22 then .vss else if j = 0 ∨ j = 24 then .vddSpine else .vinCd n

/-- A PCIe pair: lane k has its P at 038 + 3k and its N beside it (R406). -/
def pcieNet (tx : Bool) (c : Nat) : Net :=
  if between 38 84 c && (c - 38) % 3 != 2 then .pcie ((c - 38) / 3) tx ((c - 38) % 3 == 1) else .vss

/-- The north band (R406). -/
def northNet (r c : Nat) : Net :=
  match r with
  | 2 => if between 20 27 c then .vddio18 else if between 28 31 c then .vddNap else if between 32 39 c then .vddHat else .vss
  | 4 => if between 20 49 c then .sense ((c - 20) / 2) (c % 2 == 1) else .vss
  | 6 => match signals[c - 20]? with | some x => .signal x | none => .vss
  | 8 => if between 20 50 c then .rsvd else .vss
  | 10 => if between 22 114 c && (c - 22) % 4 == 0 then .vppBir else .vss
  | 12 | 14 | 16 | 18 => if c % 2 = 0 then .vddBir else .vss
  | _ => .vss

/-- The south band (R406). -/
def southNet (r c : Nat) : Net :=
  match r with
  | 121 | 123 | 125 | 127 => if c % 2 = 0 then .vddBir else .vss
  | 129 => if between 22 114 c && (c - 22) % 4 == 0 then .vppBir else .vss
  | 130 => pcieNet true c
  | 133 => if c = 90 then .refclk false else if c = 91 then .refclk true else pcieNet false c
  | 137 => if between 20 51 c then .vddPcie else .vss
  | _ => .vss

/-- The net of the land at row r and column c, both 0 to 139 (R403 to R406). -/
def landNet (r c : Nat) : Net :=
  if keptOut r c then .keepOut
  else if r < 20 then northNet r c
  else if 120 ≤ r then southNet r c
  else if c < 20 then (if c < 4 then .vss else staderNet ((r - 20) / 5) ((r - 20) % 5) (c - 4))
  else if 120 ≤ c then staderNet (20 + (r - 20) / 5) ((r - 20) % 5) (c - 120)
  else interiorNet (4 * ((r - 20) / 50) + (c - 20) / 25) ((c - 20) % 25)

/-- A rail of Table 5 of Lands: nominal voltage and the range set over AVSBus in mV (none: fixed), rated current in A, tolerance in percent. -/
structure Rail where
  nominal : Nat
  range   : Option (Nat × Nat)
  amps    : Nat
  tol     : Nat
  deriving DecidableEq, Repr

/-- The rails that the package commands, by index, which is AVSBus rail select and PMBus address less 0x40 (R407, R409). -/
def railSpec : Nat → Option Rail
  | 8 => some { nominal := 750, range := some (700, 800), amps := 240, tol := 2 }
  | 9 | 10 => some { nominal := 750, range := some (700, 800), amps := 175, tol := 2 }
  | 11 => some { nominal := 1100, range := some (1060, 1140), amps := 320, tol := 2 }
  | 12 => some { nominal := 1800, range := none, amps := 36, tol := 3 }
  | 13 => some { nominal := 900, range := none, amps := 20, tol := 2 }
  | 14 => some { nominal := 750, range := none, amps := 4, tol := 2 }
  | n => if n < 8 then some { nominal := 1800, range := some (1650, 1900), amps := 380, tol := 2 } else none

/-- The PMBus address of a rail's regulator (R409). -/
def pmbusAddr (rail : Nat) : Nat := 0x40 + rail

/-- Is THERMTRIP_N driven low: from a hardware trip until the PERST# that restarts the package (R413)? -/
def State.thermtripLow (s : State) : Bool := s.nap.tripped

end Sys2Proof.Machine
end

