-- ==== Sys2Proof/Tests/Slice0.lean ====
section
/-!
SUPPORT. Tests/Slice0.lean: the checks of WellFormed, worked examples of the spec, and for the hypotheses of each statement a small state that
meets them (`wit_…`).
-/
namespace Sys2Proof.Machine

set_option Elab.async false

/-! ### States -/

/-- A flash whose contents verify. -/
def fl0 : FlashImage :=
  { (default : FlashImage) with present := true, recordsOk := true, rpmbOk := true, image0Ok := true, boardMax := 5000, owner := 1, svn := [1, 1, 1, 1], imgSvn := [2, 2, 2, 2], auto := [false, false, false, false] }

/-- A powered package that is READY, its hatter running. -/
def up : State :=
  { State.reset with nap := { State.reset.nap with pgood := true, countKey := true, refCheck := true }, hat := { State.reset.hat with step := 12, runs := true, rails := spineRails ++ coreRails, aliasKey := true, table3 := true, calib := true, serial := 7, flash := fl0, running := [2, 2, 2, 2] } }.setReg
    rTOP_START_STATE 0 4

/-- Hood 0 exists; its function and the PF may master the bus. -/
def upH : State :=
  { up with hoods := [(0, { vf := 1 })], fns := [(0, { bme := true, pasid := true, masked := false }), (1, { bme := true, mse := true, ats := true, masked := false })] }

/-- A read-write range of 1 MiB at hood address 0 on channel 0, and a read-only one behind it. -/
def rngA : Range := { hbase := 0, len := 1048576 }
def rngB : Range := { hbase := 1048576, len := 262144, ro := true, cbase := 1048576 }
def blkA : Block := { tmap := [0, 1], channels := 1, ranges := [rngA, rngB] }

/-- Hood 0 created with that block, contexts and rings 0 to 15. -/
def upC : State :=
  ((({ upH with hoods := [(0, { vf := 1, created := true, block := blkA, gen := 1 })], chans := [(0, { extents := [{ base := 0, len := 1048576 }, { base := 1048576, len := 262144 }] })], sites := [(0, { owner := some 0 }), (1, { owner := some 0 })], planks := [(0, { gated := false })], hat := { upH.hat with keys := [(0, 1)] } }).setReg
    rFE_CTX_COUNT 0 16).setReg rFE_RING_COUNT 0 16).setReg rHOOD_EPOCH 0 1

theorem wit_up : Powered up ∧ Ready up ∧ PfOpen up ∧ SpdmUp up := by
  simp only [Powered, Ready, PfOpen, SpdmUp]; decide

theorem wit_upC : HoodOpen upC 0 ∧ NoService upC 0 ∧ Ready upC ∧ PfOpen upC := by
  simp only [HoodOpen, NoService, PfOpen, Ready]; decide

/-- Where one hood is listed, every other reads as its default. -/
theorem hood_ne (s : State) (k : Nat) (v : Hood) (g : Nat) (hs : s.hoods = [(k, v)]) (h : g ≠ k) : s.hood g = default := by
  simp [State.hood, at', Table.get, hs, Table.find, h]

/-! ### Hypotheses of the statements about the host port and registers -/

/-- A message is held for function 1, whose HOST cause is set and enabled. -/
def held1 : State :=
  ((({ upH with fns := [(0, { bme := true }), (1, { bme := true, masked := false, bmeHeld := true, wasZero := false })] }.setReg rHOST_CAUSE 1 1).setReg
    (rHOST_CAUSE + 4) 1 1).setReg rINT_FUNC_CTL 1 1)

theorem wit_PortErrors : Powered upH ∧ upH.portUp = true ∧ upH.fnOn 1 = true ∧ upH.fnOn 0 = true ∧ upH.fnOn 16 = false ∧ upH.ariOk 1 = true ∧ upH.ariOk 0 = true ∧
    (∀ h, h < 16 → (up.fn (h + 1)).mse = false ∧ (up.hood h).tdi ≠ 1 ∧ (up.hood h).tdi ≠ 2) ∧ (upH.fn 1).mse = true := by
  simp only [Powered]; decide

theorem wit_PortErrors_held : Powered held1 ∧ held1.portUp = true ∧ held1.fnOn 1 = true ∧ held1.ctxs = [] ∧ held1.works = [] ∧
    held1.front.patWait = [] ∧ (held1.hood 0).faults = [] ∧ (held1.fn 1).bmeHeld = true ∧ held1.summary 1 ≠ 0 ∧ (held1.fn 1).modBusy = false ∧
    (held1.fn 1).masked = false ∧ (held1.fn 1).d3hot = false ∧ (held1.hood 0).tdi ≠ 3 := by
  simp only [Powered]; decide

theorem wit_NothingHeld : NothingHeld held1 1 ∧ NothingHeld upH 0 := by
  refine ⟨⟨by decide, ?_, by decide, by decide, by decide⟩, ⟨by decide, by decide, by decide, by decide, by decide⟩⟩
  intro f hf; rw [show (held1.hood (1 - 1)).faults = [] from by decide] at hf; exact absurd hf (by simp)

/-- The same function with the vector's state given. -/
def irq (modBusy held masked pba : Bool) : State :=
  held1.modFn 1 (fun f => { f with modBusy := modBusy, held := held, masked := masked, pba := pba })

theorem wit_Interrupts : ∀ s ∈ [irq true true false false, irq false false true true, irq false false false false, irq true false false false],
    s.nap.pgood = true ∧ (s.reach 1 false == .ok) = true ∧ s.fnOn 1 = true ∧ s.reg rINT_FUNC_CTL 1 % 4 = 1 ∧ s.mayAsk 1 = true ∧
    (s.fn 1).d3hot = false ∧ (s.fn 1).fmask = false ∧ (s.fn 1).wasZero = false ∧ s.summary 1 ≠ 0 ∧ s.presents rINT_FUNC_REARM = true := by decide

/-- Clearing causes, by the PF and by a VF. -/
theorem wit_CauseClear : ∀ e ∈ [(0, rMEM_CAUSE), (1, rMEM_CAUSE), (1, rCTX_CAUSE)], (upH.reach e.1 false == .ok) = true ∧ upH.ready = true ∧
    causeRegs.any (fun c => c.1 == e.2) = true ∧ (regInfo e.2).any (fun r => r.inFn e.1 && (if e.1 = 0 then r.w1P else r.w1V) != 0) = true := by decide

theorem wit_WrongWidth : Powered upH ∧ (upH.reach 0 false == .ok) = true ∧ (upH.reach 1 false == .ok) = true ∧ 0xFFFFF < bar0Size 1 ∧
    (0x22 % 4 ≠ 0) ∧ wideAt 0 rHOOD_SEL = false := by
  simp only [Powered]; decide

/-- A plain register of the PF, and a cause register in the VF. -/
theorem wit_PlainRegisters : ∀ e ∈ [(0, rHOOD_SEL, 0), (1, rMEM_CAUSE, 1)],
    (upH.reach e.1 false == .ok) = true ∧ upH.presents e.2.1 = true ∧ e.2.1 < bar0Size e.1 ∧ e.2.1 % 4 = 0 ∧ isRoute e.1 e.2.1 = false ∧
    wideAt e.1 (e.2.1 - 4) = false ∧
    ((regInfo e.2.1).any (fun r => !r.wide && r.inFn e.1 && (regCmds.find? (fun c => c.1 == r.off)).isNone &&
      (regWrites.find? (fun c => c.1 == r.off)).isNone && upH.copyIdx e.1 r.scope == some e.2.2 &&
      (if e.1 = 0 then r.rwP ||| r.w1P else r.rwV ||| r.w1V) != 0)) = true := by decide

theorem wit_Halves : ∀ fn ∈ [0, 1], (upH.reach fn false == .ok) = true ∧ upH.ready = true ∧ rTOP_TS_HOST + 8 ≤ bar0Size fn ∧
    rTOP_TS_HOST % 8 = 0 ∧ isRoute fn rTOP_TS_HOST = false ∧ wideAt fn (rTOP_TS_HOST + 4) = false ∧
    ((regInfo rTOP_TS_HOST).any (fun r => r.wide && r.inFn fn && r.off != rDBG_PERF_COUNT && r.off != rPWR_PLANK_CYC)) = true ∧
    upH.presents rTOP_TS_HOST = true := by decide

/-- Setup registers: before and after ENABLE, with the pool idle or lent, and with a tile held or not. -/
def lent1 : State := { upH with stl := { idFixed := true }, works := [(1, { hood := 0, holds := true })] }.setReg rHOOD_POOL_USED 0 64

theorem wit_Setup : PfOpen upH ∧ PfOpen lent1 ∧ upH.selHood 0 = 0 ∧ lent1.selHood 0 = 0 ∧ upH.hoodExists 0 = true ∧ lent1.hoodExists 0 = true ∧
    upH.stl.idFixed = false ∧ lent1.stl.idFixed = true ∧ upH.reg rHOOD_POOL_USED 0 = 0 ∧ lent1.reg rHOOD_POOL_USED 0 ≠ 0 ∧
    upH.holdsTile 0 = false ∧ lent1.holdsTile 0 = true := by
  simp only [PfOpen, Ready]; decide

/-- Caps, modes and the group: hoods 1 and 2 ask for mode 1. -/
def modes2 : State := (upH.setReg rPWR_HOOD_CFG 1 0x101).setReg rPWR_HOOD_CFG 2 0x101

theorem wit_Caps : PfOpen modes2 ∧ modes2.reg rPWR_SEL 0 % 16 = 0 ∧ modes2.hoodExists 0 = true ∧ modes2.hat.runs = true ∧
    ((1500#32).toNat % 8192 = 1500 ∧ (6000#32).toNat % 8192 = 6000 ∧ (1499#32).toNat % 8192 < 1500 ∧ 6000 < (6001#32).toNat % 8192) ∧
    ((0x100#32).toNat % 4 = 0 ∧ bits (0x100#32).toNat 8 8 ≠ 0) ∧ ((0x101#32).toNat % 4 = 1 ∧ bits (0x101#32).toNat 8 8 ≠ 0) ∧ modes2.modeOf 0 ≠ 1 ∧
    2 ≤ ((List.range 16).filter (fun g => g != 0 && (modes2.reg rPWR_HOOD_CFG g % 4 == 1 || modes2.modeOf g == 1))).length ∧
    (bits (0xC80#32).toNat 7 5 = 25 ∧ bits (0xC80#32).toNat 6 1 = 0) ∧ (bits (0xCC0#32).toNat 7 5 = 25 ∧ bits (0xCC0#32).toNat 6 1 = 1) ∧
    25 < bits (0xD00#32).toNat 7 5 ∧ modes2.reg rPWR_GRP_CFG 0 / 64 % 2 = 0 := by
  simp only [PfOpen, Ready]; decide

/-- Range counts: hood 1 has contexts 0 to 15. -/
def ctx1 : State := upH.setReg rFE_CTX_COUNT 1 16

theorem wit_RangeCounts : PfOpen upH ∧ upH.selHood 0 = 0 ∧ (upH.hood 0).sealed = false ∧
    (∀ g, g < 16 → g ≠ 0 → upH.reg rFE_CTX_COUNT g = 0 ∧ upH.reg rFE_RING_COUNT g = 0) ∧
    (upH.front.bases.find 0).getD (upH.reg rFE_CTX_BASE 0) + 4096 ≤ 4096 ∧ (upH.front.bases.find 1).getD (upH.reg rFE_RING_BASE 0) + 8192 ≤ 8192 ∧
    PfOpen ctx1 ∧ ctx1.reg rFE_CTX_COUNT 1 ≠ 0 ∧ overlaps 0 8 (ctx1.reg rFE_CTX_BASE 1) (ctx1.reg rFE_CTX_COUNT 1) = true := by
  simp only [PfOpen, Ready]; decide

/-- Requests and tokens: host memory at 0x1000 holds a record of command `cmd` with an argument of 1. -/
def req (cmd : Nat) : State :=
  (({ up with fns := [(0, { bme := true })] }.hostWr 0x1000 (leBytes 1 cmd ++ List.replicate 31 0 ++ leBytes 8 1 ++ List.replicate 104 0)).setReg
    rSEC_REQ_ADDR 0 0x1000).setReg rDBG_TOKEN_ADDR 0 0x1000

set_option maxRecDepth 8000 in
theorem wit_Requests : ∀ cmd ∈ [1, 2, 3], (req cmd).nap.pgood = true ∧ (req cmd).ready = true ∧ ((req cmd).fn 0).d3hot = false ∧ (req cmd).hatServes = true ∧
    ((req cmd).fn 0).bme = true ∧ (req cmd).reg rSEC_REQ_STATUS 0 ≠ 1 ∧ (req cmd).reg rDBG_TOKEN_STATUS 0 ≠ 1 ∧
    (fld ((req cmd).hostRd 0x1000 144) 0 0 8 = cmd ∧ fld ((req cmd).hostRd 0x1000 144) 1 0 8 = 0 ∧
      fld ((req cmd).hostRd 0x1000 144) 0x20 0 64 = 1) ∧ (req cmd).now ≤ 1 ∧ (req cmd).nap.classA < 2 ∧ (req cmd).liveHoods = [] ∧ (req cmd).stl.watch = [] ∧ (req cmd).hat.repair = none ∧
    (req cmd).hat.flash.svn.length = 4 ∧ 1 ≤ (req cmd).hat.running.headD 0 ∧
    fld ((req cmd).hostRd 0x1000 144) 8 0 64 ≠ (req cmd).hat.serial.toNat := by decide

/-- The window: offset 0 reads and writes range A, 0x100000 range B, 0x140000 nothing. -/
theorem wit_Window : (upC.reach 1 false == .ok) = true ∧ upC.winAt 0 = 0 ∧ 0x200000 ≤ 2 ^ upC.front.vfBar2 ∧
    (upC.hood 0).block.placeOf 0x140000 = .none ∧ (upC.hood 0).block.placeOf 0 = .loc 0 ∧ (upC.hood 0).block.placeOf 0x100000 = .loc 0x100000 ∧
    (upC.hood 0).block.rangeAt 0 = some rngA ∧ (∀ i, i < 64 → (upC.hood 0).block.rangeAt (0x100000 + i) = some rngB) := by decide

theorem plain_of (s : State) (h line : Nat) (e : Extent) (he : s.extentOf line = some e) (hl : isLocalLine line = true)
    (hd : s.chanDown (chanOfLine line) = false) (hf : s.coh.dir.find line = none ∧ s.coh.txns.find line = none)
    (hc : s.coh.msgs = [] ∧ s.coh.waiting = [] ∧ s.coh.caches = [] ∧ s.moveTwin line = none ∧ s.coh.hot = [])
    (hx : e.lent = false ∧ e.owner = h ∧ s.keyGen e.key ≠ 0 ∧ s.reg rBIR_HOT_THR h / 256 % 2 = 0) : PlainLine s h line :=
  ⟨hl, hd, hf.1, hf.2, by simp [hc.1], by simp [hc.2.1], by simp [hc.2.2.1, Table.find], hc.2.2.2.1, hc.2.2.2.2, e, he, hx⟩

theorem wit_PlainPlace : PlainPlace upC 0 0 0 false ∧ PlainPlace upC 0 0x100000 0x4000 true :=
  ⟨⟨by decide, rngA, by decide, by decide, by decide, by decide, by decide, by decide, ⟨0, by decide, by decide⟩,
      plain_of _ _ _ { base := 0, len := 1048576 } (by decide) (by decide) (by decide) (by decide) (by decide) (by decide)⟩,
    ⟨by decide, rngB, by decide, by decide, by decide, by decide, by decide, by decide, ⟨0x100000, by decide, by decide⟩,
      plain_of _ _ _ { base := 1048576, len := 262144 } (by decide) (by decide) (by decide) (by decide) (by decide) (by decide)⟩⟩

/-- Wake pages: context 3 has an asleep ring 5, context 4 none. -/
def wake5 : State :=
  { upC with ctxs := [(3, { state := 1 }), (4, { state := 1 })], rings := [(5, { live := true, ctx := 3, state := 1 })] }

theorem wit_WakePages : (wake5.reach 1 false == .ok) = true ∧ wake5.ctxOf 0 3 = true ∧ wake5.asleep 3 = [5] ∧ wake5.awakeRings.length < 512 ∧
    wake5.ctxOf 0 4 = true ∧ wake5.asleep 4 = [] ∧ wake5.ctxOf 0 (0x5000 / 4096) = false := by decide

/-! ### Hypotheses of the statements about the hatter, resets and blocks -/

/-- SPDM sessions 1 (exchanging) and 2 (established); and eight of them. -/
def sess : State := { up with hat := { up.hat with sessions := [(1, 1), (2, 2)] } }
def sess8 : State := { up with hat := { up.hat with sessions := (List.range 8).map (fun i => (i, 2)) } }

theorem wit_Sessions : SpdmUp sess ∧ SpdmUp sess8 ∧ sess.hat.aliasKey = true ∧ sess.hat.sessions.find 9 = none ∧ sess.hat.sessions.length < 8 ∧
    sess.hat.sessions.find 1 = some 1 ∧ sess.hat.sessions.find 2 = some 2 ∧ sess8.hat.sessions.find 9 = none ∧ 8 ≤ sess8.hat.sessions.length ∧
    sess.hat.chunk = 0 := by
  simp only [SpdmUp, Powered]; decide

theorem wit_Measurements : SpdmUp upC ∧ (upC.measurement 1).isSome = true ∧ upC.hoodExists 0 = true ∧ (upC.hood 0).meas = false ∧
    (upC.hoodContent 0 0).isSome = true ∧ ((upC.modHood 0 (fun k => { k with meas := true })).hood 0).meas = true ∧ upC.hoodExists 15 = false := by
  simp only [SpdmUp, Powered]; decide

/-- A confidential hood with an established session; `tdi` and the seal as given; stream 0 has keys of hood 0. -/
def tdi (n : Nat) (sealed : Bool) : State :=
  ({ upC with hat := { upC.hat with sessions := [(2, 2)], ideKeys := [(0, 1)] } }).modHood 0 (fun k => { k with sealed := sealed, tdi := n, block := { k.block with conf := true } })

theorem wit_Tdi : ∀ s ∈ [tdi 0 true, tdi 0 false, tdi 1 true], s.nap.pgood = true ∧ s.hat.runs = true ∧ s.nap.perst = false ∧ s.nap.classB = false ∧
    s.isTdi 0 = true ∧ s.hat.sessions.any (fun e => e.2 == 2) = true ∧ s.portUp = true ∧ s.hat.ideKeys.find 15 = none ∧
    s.hat.ideKeys.find 0 = some (0 + 1) ∧ (s.hood 0).tdi ≠ 3 ∧ (s.hood 0).sealed = (s.hood 0).sealed := by decide

/-- The sideband: both lands, with and without the hatter. -/
def noHatter : State := { up with hat := { up.hat with runs := false } }

theorem wit_Sideband : up.busUp 0 = true ∧ up.busUp 1 = true ∧ { up with nap := { up.nap with i3cAddr := some 8 } }.busUp 2 = true ∧
    noHatter.busUp 1 = true ∧ noHatter.hat.runs = false ∧ noHatter.nap.classB = false ∧ up.hat.runs = true := by decide

def im0 : Image := { (default : Image) with cls := 1, svn := 3, stepB0 := true, digestOk := true, sigOk := true, keySerial := 9 }

/-- An image received for class 1. -/
def imgd (im : Image) : State := { up with hat := { up.hat with staged := [(1, im)] } }.setReg rSEC_UPD_STATUS 1 2

theorem wit_Images : up.hatServes = true ∧ up.reg rTOP_START_STATE 0 ≠ 5 ∧ (up.setReg rTOP_START_STATE 0 5).hatServes = true ∧
    (imgd im0).hat.staged.find 1 = some im0 ∧ (imgd im0).reg rSEC_UPD_STATUS 1 % 8 = 2 ∧ im0.keySerial ∉ (imgd im0).hat.flash.revoked ∧
    (imgd im0).hat.flash.svn.getD 1 0 ≤ im0.svn ∧ (imgd { im0 with svn := 0 }).hat.staged.find 1 = some { im0 with svn := 0 } ∧
    0 < (imgd { im0 with svn := 0 }).hat.flash.svn.getD 1 0 := by decide

theorem wit_ColdStart : State.reset.nap.pgood = false ∧ fl0.present = true ∧ fl0.recordsOk = true ∧ fl0.rpmbOk = true ∧ fl0.image0Ok = true ∧
    { fl0 with rpmbOk := false }.rpmbOk = false ∧ 8 ∈ spineRails := by decide

/-- A start held up, and one whose rail 3 is stuck. -/
theorem wit_PackageStops : noHatter.nap.hatFail = false ∧ noHatter.nap.perst = false ∧ up.nap.refCheck = true ∧ up.liveHoods = [] ∧
    { up with hat := { up.hat with stuck := some 3 } }.hat.stuck = some 3 ∧ up.nap.tripped = false ∧ up.nap.hatFail = false ∧ up.nap.perst = false ∧
    up.hat.step = 12 ∧ up.nap.spine = false ∧ { up with nap := { up.nap with perst := true } }.hat.step = 12 := by decide

/-- VFs: none; hood 3 on its disable path; hood 3 on it with an enable waiting. -/
def dis3 : State := { up with hoods := [(3, { vf := 2 })] }
def dis3q : State := { up with hoods := [(3, { vf := 3 })], front := { up.front with enQ := true, enNum := 4 } }

theorem wit_Vfs : (Ready up ∧ Ready dis3 ∧ Ready dis3q) ∧ (up.front.vfEn = false ∧ up.front.enQ = false ∧ ∀ g, g < 16 → (up.hood g).vf ≠ 2) ∧
    (dis3.front.vfEn = false ∧ dis3.front.enQ = false ∧ (dis3.hood 3).vf = 2) ∧ (dis3q.hood 3).vf = 3 ∧ dis3q.front.enQ = true ∧
    dis3q.front.enNum = 4 ∧ up.front.heldBlk = [] ∧ dis3.front.heldBlk = [] ∧ up.hat.repair = none ∧ ∀ g, g < 16 → g ≠ 3 → (dis3q.hood g).vf < 2 := by
  simp only [Ready]; decide

theorem wit_Vfs_none (g : Nat) : ((up.hood g).created = false ∧ (up.hood g).change.phase = .stable) ∧
    ((dis3.hood g).created = false ∧ (dis3.hood g).change.phase = .stable) ∧
    ((dis3q.hood g).created = false ∧ (dis3q.hood g).change.phase = .stable) := by
  refine ⟨⟨rfl, rfl⟩, ?_, ?_⟩
  · by_cases h : g = 3
    · subst h; exact ⟨rfl, rfl⟩
    · rw [hood_ne dis3 3 _ g rfl h]; exact ⟨rfl, rfl⟩
  · by_cases h : g = 3
    · subst h; exact ⟨rfl, rfl⟩
    · rw [hood_ne dis3q 3 _ g rfl h]; exact ⟨rfl, rfl⟩

/-- After a trip: hot still, and the PERST# land not asserted. -/
def tripUp : State := { up with nap := { up.nap with tripped := true }, thermal := { up.thermal with temps := [(3, 950)] } }

theorem wit_Tripped : Powered tripUp ∧ tripUp.nap.perst = false ∧ tripUp.nap.tripped = true ∧ tripUp.cool = false := by
  simp only [Powered]; decide

/-- Two works of hood 0: one holds site 0 and one is queued; plank 0 waits for saves. -/
def wk (p : WPhase) (holds : Bool) : Work := { hood := 0, hgen := 1, ring := 5, ctx := 3, phase := p, holds := holds, cnt := 1, desc := leBytes 1 1 ++ List.replicate 63 0 }
def busy0 : State := { upC with works := [(1, wk .started true)], planks := [(0, { gated := false, saveWait := true })] }

theorem wit_Resets : Ready upC ∧ upC.hoodExists 0 = true ∧ upC.nap.classB = false ∧ upC.hat.repair = none ∧ upC.namesRetired 0 = false ∧ (upC.hood 0).created = true ∧ (upC.hood 0).block.conf = false ∧
    (upH.hood 0).created = false ∧ upC.reg rTOP_MAINT_STATUS 0 % 8 ≠ 1 ∧ upC.works = [] ∧ busy0.worksOn 0 ≠ [] ∧ (busy0.plank 0).saveWait = true ∧
    (1, wk .started true) ∈ busy0.worksOn 0 ∧ (upC.plank 127).saveWait = false ∧ Ready busy0 := by
  simp only [Ready]; decide

/-- A block record at host address 0 for hood 0: sites 0 and 1, channel 0, one entry that asks for 64 KiB at `hbase`. -/
def recAt (s : State) (hbase : Nat) : State :=
  ((s.hostWr 0 (List.replicate 10 0 ++ [2, 0, 1, 0] ++ List.replicate 18 0 ++ [1] ++ List.replicate 31 0)).hostWr 0x40 [0, 0, 1, 0]).hostWr 0xC40
    (leBytes 8 hbase ++ leBytes 8 65536 ++ List.replicate 8 0 ++ leBytes 8 allOnes ++ List.replicate 8 0 ++ leBytes 8 allOnes ++ List.replicate 16 0)

set_option maxRecDepth 20000 in
theorem wit_Create : BlockOpen (recAt upH 0) 0 ∧ ((recAt upH 0).hood 0).created = false ∧
    ((recAt upH 0).recordBlock 0 0).any (fun b => b.keydom == 0 && !b.conf && b.ranges.all (fun r => !r.borrowed) &&
      ((recAt upH 0).bindRanges 0 b).isSome) = true := by
  simp only [BlockOpen, NoService, Ready]; decide

set_option maxRecDepth 20000 in
theorem wit_Restart : BlockOpen (recAt upC 0) 0 ∧ ((recAt upC 0).hood 0).created = true ∧ ((recAt upC 0).hood 0).block.keydom = 0 ∧
    ((recAt upC 0).hood 0).block.conf = false ∧
    ((recAt upC 0).recordBlock 0 0).any (fun b => b.keydom == 0 && !b.conf && b.ranges.all (fun r => !r.borrowed) &&
      ((recAt upC 0).bindRanges 0 b).isSome) = true := by
  simp only [BlockOpen, NoService, Ready]; decide

/-- Hoods without ranges, sealed or not; a record of another hood; a change in progress; a FAILED hood. -/
theorem wit_BlockCommands : BlockOpen upC 0 ∧ (upC.hood 0).sealed = false ∧
    ((upC.modHood 0 (fun k => { k with sealed := true })).hood 0).sealed = true ∧
    ((upC.modHood 0 (fun k => { k with block := { k.block with ranges := [] } })).hood 0).block.ranges = [] ∧
    ((upC.modHood 0 (fun k => { k with change := { k.change with phase := .draining } })).hood 0).change.phase ≠ .stable ∧
    ((upC.modHood 0 (fun k => { k with failed := true })).hood 0).failed = true := by
  simp only [BlockOpen, NoService, Ready]; decide

set_option maxRecDepth 20000 in
theorem wit_BadRecord : BlockOpen (upC.hostWr 0 (List.replicate 64 0)) 0 ∧ (upC.hostWr 0 (List.replicate 64 0)).recordBlock 0 0 = none ∧
    (upH.hostWr 0 (List.replicate 64 0)).namedRange 0 255 0 = none := by
  simp only [BlockOpen, NoService, Ready]; decide

/-- RELEASE_RANGE, MARK_RO and MOVE_RANGE of range A; ADD_RANGE at 0x400000, and one that overlaps range A. -/
theorem wit_Ranges : ((recAt upC 0).hood 0).created = true ∧ (recAt upC 0).namedRange 0 0 0 = some rngA ∧ entryOk ((recAt upC 0).recEntry 0 0) = true ∧
    rngA.state = 0 ∧ rngA.borrowed = false ∧ (recAt upC 0).sharers 0 blkA rngA = [] ∧ fldB ((recAt upC 0).recEntry 0 0) 0x30 0 = false ∧
    fld ((recAt upC 0).recEntry 0 0) 0x28 0 64 = allOnes ∧ (membersOf blkA.channels).length ≠ 0 ∧
    rngA.len % ((membersOf blkA.channels).length * 65536) = 0 ∧ ((recAt upC 0).bindLocal 0 blkA { rngA with cbase := allOnes }).isSome = true := by
  decide +kernel

theorem wit_AddRange : headOk ((recAt upC 0x400000).recHead 0) 0 false = true ∧ entryOk ((recAt upC 0x400000).recEntry 0 0) = true ∧
    ((recAt upC 0x400000).checkRange 0 blkA (entryRange ((recAt upC 0x400000).recEntry 0 0))).any (fun r => !r.borrowed && !r.shared &&
      ((recAt upC 0x400000).bindLocal 0 blkA r).isSome) = true ∧
    (recAt upC 0).checkRange 0 blkA (entryRange ((recAt upC 0).recEntry 0 0)) = none := by
  decide +kernel

/-- RESHAPE to the map of the record, and its commit. -/
def stg : State := upC.modHood 0 (fun k => { k with change := { k.change with phase := .staged, cmd := 2, new := some { blkA with tmap := [0, 1, 2] } } })

theorem wit_Reshape : BlockOpen (recAt upC 0) 0 ∧ tmapOf ((recAt upC 0).recHead 0) ((recAt upC 0).recTmap 0 ((recAt upC 0).recHead 0)) = some [0, 1] ∧
    headOk ((recAt upC 0).recHead 0) 0 false = true ∧ (recAt upC 0).tmapOk 0 true [0, 1] = true ∧
    BitVec.ofNat 40 (fld ((recAt upC 0).recHead 0) 0x10 0 40) = blkA.links ∧ (stg.hood 0).change.phase = .staged ∧ (stg.hood 0).change.cmd = 2 ∧
    (stg.hood 0).change.new = some { blkA with tmap := [0, 1, 2] } ∧
    (∀ i, i ∈ [0, 1, 2] → i ∉ (stg.hood 0).block.tmap → (stg.site i).owner = none) ∧ stg.modeOf 0 ≠ 2 ∧ (recAt upC 0).works = [] ∧ stg.works = [] := by
  simp only [BlockOpen, NoService, Ready]; decide +kernel

/-- A draining change of command `cmd`; a copying move with its target; an erase on stack 0. -/
def drn (cmd : Nat) (second : Bool) : State :=
  upC.modHood 0 (fun k => { k with change := { k.change with phase := .draining, cmd := cmd, second := second, leaving := [1], range := some rngA } })
def drnBack : State := (drn 5 false).modHood 0 (fun k => { k with change := { k.change with aborted := true } })
def cpy : State :=
  { upC with memStacks := [(0, { erases := [{ chan := 0, base := 0, len := 65536 }] })] }.modHood 0 (fun k => { k with
    block := { blkA with ranges := [{ rngA with state := 2, target := some { cbase := 2097152 } }] }, change := { k.change with phase := .copying, cmd := 5, range := some rngA } })

theorem wit_Changes : (∀ c ∈ [2, 3, 4, 5, 6], ((drn c true).hood 0).change.phase = .draining ∧ (drn c true).drainCount 0 = 0 ∧ (drn c true).hoodExists 0 = true ∧
      ((drn c true).hood 0).change.cmd = c ∧ ((drn c true).hood 0).change.second = true ∧ ((drn c false).hood 0).change.second = false ∧
      ((drn c true).hood 0).change.aborted = false ∧ ((drn c true).hood 0).change.range = some rngA) ∧ (drnBack.hood 0).change.aborted = true ∧ drnBack.drainCount 0 = 0 ∧
    (drn 2 true).stl.mreqs = [] ∧
    NoService (drn 5 true) 0 ∧ 0 < { drn 2 false with stl := { mreqs := [{ who := { hood := 0, epoch := 7 } }] } }.drainCount 0 ∧ (cpy.hood 0).change.phase = .copying ∧
    (cpy.hood 0).change.range = some rngA ∧
    ((cpy.hood 0).block.ranges.find? (fun q => q.hbase == rngA.hbase)).bind (fun q => q.target) = some { cbase := 2097152 } ∧
    (cpy.stack 0).erases = [{ chan := 0, base := 0, len := 65536 }] := by
  simp only [NoService]; decide +kernel

/-- A lender with channel 0 in its pool and lease 1 to package 5, due at 22 ms. -/
def lendr : State :=
  ({ up with lender := { leases := [{ id := 1, pkg := 5, len := 65536, dMs := 10 }], next := 2 } }.setReg rHOOD_POOL_CHAN 0 1).setReg rHOOD_POOL_BUDGET 0 0x1000000
def late (s : State) : State := { s with nap := { s.nap with counter := 100000000000 } }

theorem wit_Lender : Ready lendr ∧ up.poolMembers = [] ∧ lendr.poolMembers ≠ [] ∧ lendr.nap.classB = false ∧
    lendr.reg rHOOD_POOL_USED 0 + 65536 ≤ lendr.reg rHOOD_POOL_BUDGET 0 ∧ (lendr.placeFor lendr.poolMembers (lentPlen 65536 1) none).isSome = true ∧
    (lendr.leaseOf 5 1).isSome = true ∧ (lendr.lender.leases.find? (fun x => x.id == 1)).any (fun l =>
      decide (lendr.now < l.g + l.dMs * 1000000 + driftMargin l.dMs) && decide (l.g + l.dMs * 1000000 + driftMargin l.dMs ≤ (late lendr).now)) = true := by
  simp only [Ready]; decide +kernel

/-- A borrower: hood 0 waits on lenders `ls` for ADD_RANGE; its range of lease 7 of package 5 runs to 10 ms. -/
def rngL : Range := { hbase := 0, len := 65536, borrowed := true, lender := 5, leaseId := 7, leaseMs := 10 }
def ask (ls : List Nat) : State :=
  upC.modHood 0 (fun k => { k with
    block := { blkA with ranges := [rngL] }, change := { k.change with phase := .staged, cmd := 3, lenders := ls, new := some { blkA with ranges := [{ rngL with state := 1 }] } } })
def brw : State := upC.modHood 0 (fun k => { k with block := { blkA with ranges := [rngL] } })

theorem wit_Borrower : (ask [5]).asker 5 = some 0 ∧ NoService (ask [5]) 0 ∧ ((ask [5, 6]).hood 0).change.lenders.erase 5 ≠ [] ∧
    ((ask [5]).hood 0).change.lenders = [5] ∧ ((ask [5]).hood 0).change.new.isSome = true ∧ ((ask [5]).hood 0).change.cmd = 3 ∧
    (ask [5]).asker 9 = none ∧ (brw.hood 0).created = true ∧ (brw.hood 0).block.ranges[0]? = some rngL ∧ rngL.borrowed = true ∧ rngL.state ≠ 4 ∧
    rngL.target = none ∧ brw.now < rngL.asked + rngL.leaseMs * 1000000 ∧ rngL.asked + rngL.leaseMs * 1000000 ≤ (late brw).now ∧
    (late brw).works = [] ∧ ((ask [5]).hood 0).change.phase = .staged ∧
    (∃ q, q ∈ [{ rngL with state := 1 }] ∧ q.borrowed = true ∧ q.state = 1 ∧ q.sent + 10000000 ≤ (late (ask [5])).now) ∧
    (∀ q, q ∈ [{ rngL with state := 1 }] → q.target = none ∧ (ask [5]).now < q.sent + 10000000) := by
  simp only [NoService]; decide +kernel

theorem wit_Borrower_stable (g : Nat) : ((late brw).hood g).change.phase = .stable := by
  by_cases h : g = 0
  · subst h; rfl
  · rw [hood_ne (late brw) 0 _ g rfl h]; rfl
/-! ### Hypotheses of the statements about contexts, rings, faults and services -/

/-- Contexts 3 (with ring 5) and 4 of hood 0; the page table of context 3 maps all of the first GiB to itself. -/
def cx : State :=
  (({ upC with ctxs := [(3, { state := 1, ptroot := 0x30000, pasidv := true }), (4, { state := 1, ptroot := 0x4000000000 })], rings := [(5, { live := true, ctx := 3, dbase := 0x9000, dbrec := 0x8040, log2n := 8, pfd := 32, state := 0 })] }.putBytes
    0x30000 (leBytes 8 0x31001)).putBytes 0x31000 (leBytes 8 0x1F))

/-- An object of 64 bytes at 0x20000: a context's. -/
def obj : State :=
  (cx.putBytes 0x20000 (leBytes 8 0x30000 ++ List.replicate 4 0 ++ leBytes 2 9 ++ List.replicate 10 0 ++ [8, 0, 0, 0, 100, 0, 0, 0] ++ List.replicate 32 0)).setReg
    rCTX_CMD_ADDR 0 0x20000

theorem wit_Contexts : HoodOpen obj 0 ∧ obj.hasCtx 0 7 = true ∧ (obj.ctx 7).state = 0 ∧ (obj.hood 0).created = true ∧
    (obj.objectAt 0 64).1.any ctxObjectOk = true ∧ ((obj.setReg rCTX_CMD_ADDR 0 0x140000).objectAt 0 64).1 = none ∧ obj.hasCtx 0 4095 = false ∧ (obj.ctx 3).state ≠ 0 ∧ obj.ctxOf 0 4 = true ∧ (obj.ctx 4).state ≠ 3 ∧
    obj.dfenceOk 0 (some 4) = true ∧ (obj.hood 0).teardown.length < 16 ∧ (∀ e, e ∈ obj.rings → e.2.live = true → e.2.ctx ≠ 4) := by
  simp only [HoodOpen, Ready]; decide +kernel

/-- A pattern image of one NOP at 0x40000; and a stored pattern 5. -/
def pat : State := (((cx.putBytes 0x40000 (List.replicate 128 0)).setReg rFE_PAT_CTX 0 3).setReg rFE_PAT_ADDR 0 0x40000).setReg rFE_PAT_QUOTA 0 1
def pat5 : State := { pat with pats := [(5, { live := true })] }

theorem wit_Register : pat.patBusy 0 = false ∧ pat.front.patWait = [] ∧ pat.ctxOf 0 (pat.reg rFE_PAT_CTX 0) = true ∧
    (pat.rdVA (feEng 0 3) 0x40000 64).2.2 = none ∧ anyPsn (pat.rdVA (feEng 0 3) 0x40000 64).1 = false ∧
    patHeaderOk (bytesOf (pat.rdVA (feEng 0 3) 0x40000 64).1) = true ∧ patBytes (bytesOf (pat.rdVA (feEng 0 3) 0x40000 64).1) = 128 ∧
    (((pat.rdVA (feEng 0 3) 0x40000 64).2.1.rdVA (feEng 0 3) 0x40000 128).2.2 = none ∧
      anyPsn ((pat.rdVA (feEng 0 3) 0x40000 64).2.1.rdVA (feEng 0 3) 0x40000 128).1 = false ∧
      (parsePattern (bytesOf ((pat.rdVA (feEng 0 3) 0x40000 64).2.1.rdVA (feEng 0 3) 0x40000 128).1)).any (fun p => decide (p.bytes ≤ 2 ^ 20)) = true) ∧
    ((List.range 1024).find? (fun k => !(pat.pat k).live)).isSome = true ∧ (pat5.pat 5).live = true ∧ (pat5.pat 5).hood = 0 ∧ (pat5.pat 5).dying = false ∧
    pat5.works = [] ∧ (pat5.pat 1023).live = false := by
  decide +kernel

/-- A poisoned header. -/
theorem wit_RegisterPoisoned : let s := pat.setPsn (0x40000 / 64) true;
    (s.rdVA (feEng 0 3) 0x40000 64).2.2 = none ∧ anyPsn (s.rdVA (feEng 0 3) 0x40000 64).1 = true := by decide +kernel

/-- A ring record at 0x20000 for ring 6 of context 3. -/
def robj : State :=
  (cx.putBytes 0x20000 (leBytes 8 0x9000 ++ leBytes 8 0x8040 ++ [6, 0, 3, 0, 0x28] ++ List.replicate 11 0)).setReg rCTX_CMD_ADDR 0 0x20000
def tear (c : Bool) : State := cx.modHood 0 (fun k => { k with teardown := [{ isCtx := c, num := 5 }] })

theorem wit_Rings : robj.hasRing 0 6 = true ∧ (robj.ring 6).live = false ∧ (robj.hood 0).teardown = [] ∧
    (robj.objectAt 0 32).1.any (fun b => ringRecordOk b 6 && robj.ctxOf 0 (fld b 0x12 0 12) && (robj.ctx (fld b 0x12 0 12)).state != 3 &&
      decide ((robj.rings.filter (fun e => e.2.live && e.2.ctx == fld b 0x12 0 12)).length < 256)) = true ∧ robj.awakeRings.length < 512 ∧
    robj.hasRing 0 8191 = false ∧ (robj.ring 5).live = true ∧ robj.hasRing 0 5 = true ∧ (robj.ring 5).hood = 0 ∧ robj.dfenceOk 0 none = true ∧
    robj.front.wakeQ = [] ∧ ((tear true).hood 0).teardown = [{ isCtx := true, num := 5 }] ∧ ((tear false).hood 0).teardown = [{ isCtx := false, num := 5 }] := by
  decide +kernel

/-- Fault 9 of hood 0, in context 4, whose table lies outside the block; with works `ws`. -/
def flt (written : Bool) (work : Option Nat) (ws : List (Nat × Work)) : State :=
  { cx with works := ws }.modHood 0 (fun k => { k with faults := [{ seq := 9, ctx := 4, ring := some 5, work := work, written := written }] })

theorem wit_Faults : (flt true none []).faultOf 0 8 = none ∧ ((flt true none []).faultOf 0 9).isSome = true ∧ (flt true none []).works = [] ∧
    ((flt true none []).ctx 4).state = 1 ∧ (entryAt ((migEng 0 4).acc (flt true none []) 0) blkA 0 (flt true none []) 3 ((flt true none []).ctx 4).ptroot).1 = none ∧
    ((flt true none []).hood 0).invals = [] ∧ ((flt true (some 1) [(1, wk .stalled false)]).faultOf 0 9).any (fun f => f.work == some 1 && !f.switch && f.due.isNone && f.atom.isNone) = true ∧
    (∀ e, e ∈ (flt true none []).rings → e.2.dbDue = false) ∧
    (flt true none []).now < 0 + (flt true none []).reg rXLT_FQ_TIMEOUT 0 * 1000 ∧
    0 + (flt true none []).reg rXLT_FQ_TIMEOUT 0 * 1000 ≤ (late (flt true none [])).now ∧ Ready (flt true none []) := by
  simp only [Ready]; decide +kernel

/-- MIGRATE: context 3's fault at VA 0, sixteen host pages readable, a target at 0x80000. -/
def migr : State :=
  ((((({ cx with xlt := { ats := (List.range 16).map (fun i => { ctx := 3, gen := 1, page := i, host := 100 + i, r := true }) } }.modHood 0 (fun k => { k with
    faults := [{ seq := 9, ctx := 3, written := true }] })).putBytes 0x31000 (leBytes 8 0x32001)).putBytes 0x32000 (leBytes 8 0x33001)).setReg rXLT_RESP_DST 0 0x80000))

theorem wit_Migrate : ((migr.faultOf 0 9).any (fun f => f.va == 0 && f.ctx == 3)) = true ∧ (migr.fn 1).ats = true ∧ migr.portOpen 0 = true ∧
    (migr.fn 0).pasid = true ∧ (migr.ctx 3).pasidv = true ∧ (migr.hood 0).block.holds (migr.reg rXLT_RESP_DST 0) 65536 = true ∧
    (let u := migr.modHood 0 (fun k => { k with faults := k.faults.map (fun g => if g.seq == 9 then
        { g with mig := some (migr.reg rXLT_RESP_SRC 0, migr.reg rXLT_RESP_DST 0, migr.reg rXLT_RESP_PTE 0) } else g) });
      (entryAt ((migEng 0 3).acc u 0) (u.hood 0).block 0 u 3 (migr.ctx 3).ptroot).1.isSome = true ∧
      ∀ p, p < 16 → (migr.atsHit 0 3 (migr.ctx 3).pasid p).any (fun a => a.r) = true) ∧ migr.works = [] := by
  decide +kernel

theorem wit_FaultQueue : ((flt false none []).hood 0).faults.find? (fun g => !g.written) ≠ none ∧ (flt false none []).portOpen 0 = true ∧
    ((flt false none []).reg rXLT_FQ_PI 0 + 2 ^ 32 - (flt false none []).reg rXLT_FQ_CI 0) % 2 ^ 32 < 2 ^ (flt false none []).reg rXLT_FQ_CFG 0 ∧
    (let s := (flt false none []).setReg rXLT_FQ_PI 0 (2 ^ (flt false none []).reg rXLT_FQ_CFG 0);
      2 ^ s.reg rXLT_FQ_CFG 0 ≤ (s.reg rXLT_FQ_PI 0 + 2 ^ 32 - s.reg rXLT_FQ_CI 0) % 2 ^ 32) := by decide +kernel

def inv (n : Nat) : State := cx.modHood 0 (fun k => { k with invals := List.replicate n { ctx := 3, fva := 0x50000, val := 1 } })
def pri (n : Nat) : State := { cx with xlt := { atsReq := [(0, 1, 2)], priWait := [(0, 1, 3)], pri := List.replicate n (0, 1, 4) } }

theorem wit_Invalidations : (inv 1).ctxOf 0 3 = true ∧ ((inv 63).hood 0).invals.length < 64 ∧ 64 ≤ ((inv 64).hood 0).invals.length ∧
    ((inv 1).hood 0).faults = [] ∧ ((inv 1).hood 0).invals = [{ ctx := 3, fva := 0x50000, val := 1 }] ∧ (0, 1, 2) ∈ (pri 1).xlt.atsReq ∧
    (0, 1, 3) ∈ (pri 1).xlt.priWait ∧ (0, 1, 4) ∈ (pri 1).xlt.pri ∧ (pri 1023).xlt.pri.length < 1024 ∧ 1024 ≤ (pri 1024).xlt.pri.length ∧
    (inv 1).flown 0 { ctx := 3, fva := 0x50000, val := 1 } = true ∧
    { inv 1 with stl := { mreqs := [{ die := 0, dst := 5, tag := 2 }] } }.flown 0 { ctx := 3, far := [(0, 5, 2)] } = false ∧
    (pri 1).portOpen 0 = true ∧ (pri 1).works = [] ∧ (pri 1).front.patWait = [] ∧ (pri 1).xlt.ats.length + (pri 1).ctxs.length ≤ 4096 ∧
    atsSizeOk 262144 = true ∧ (∀ e, e ∈ (pri 1).rings → e.2.dbDue = false) ∧ (∀ e, e ∈ (pri 1).ctxs → e.2.evheld = []) ∧
    (({ pri 1 with fns := [(0, { pri := true })] }).fn 0).pri = true := by decide +kernel

/-- Site 5 is isolated; plank 0's spare is free or assigned. -/
def rep (spare : Bool) : State := { up with sites := [(5, { isol := true })], planks := [(0, { spare := spare })] }

theorem wit_Repair : Ready (rep false) ∧ (rep false).reg rTOP_MAINT_STATUS 0 % 8 ≠ 1 ∧ (rep false).siteActive 5 = true ∧ (rep false).hoodsOfSite 5 = [] ∧
    ((rep false).site 5).isol = true ∧ ((rep false).plank (plankOf 5)).spare = false ∧ ((rep false).plank (plankOf 5)).spareBad = false ∧
    ((rep true).plank (plankOf 5)).spare = true ∧ (rep true).siteActive 5 = true ∧ (rep false).siteActive 12 = false := by
  simp only [Ready]; decide

/-- Live update: a STAGED image of class 1; hood 0 idle. -/
def upd1 : State := { upC with hat := { upC.hat with staged := [(1, im0)] } }.setReg rSEC_UPD_STATUS 1 3

theorem wit_Apply : NoService upd1 0 ∧ upd1.hat.repair = none ∧ (upd1.hood 0).created = true ∧ (upd1.hood 0).failed = false ∧ (upd1.hood 0).frozen = false ∧
    (upd1.hood 0).change.phase = .stable ∧ upd1.works = [] ∧ upd1.hat.staged.find 1 = some im0 ∧ upd1.reg rSEC_UPD_STATUS 1 % 8 = 3 ∧
    upd1.hat.flash.svn.getD 1 0 ≤ im0.svn ∧ (∀ i, i < 3 → Nat.testBit 1 i = true → i = 0) ∧ upd1.hat.staged.find 2 = none ∧ (upH.hood 0).created = false := by
  simp only [NoService]; decide

/-- Migration: hood 0 without ranges, unsealed, without contexts, with room for its image and a key. -/
def mig0 : State := ({ upC with hat := { upC.hat with migKeys := [(0, 3)] } }.modHood 0 (fun k => { k with block := { blkA with ranges := [] } })).setReg rHOOD_MIG_LEN 0 (2 ^ 52)

theorem wit_Freeze : (mig0.hood 0).block.ranges = [] ∧ mig0.rots = [] ∧ (mig0.fn 0).bme = true ∧ (mig0.hood 0).frozen = false ∧ NoService mig0 0 ∧
    mig0.migBusy 0 = false ∧ (mig0.hood 0).change.phase = .stable ∧ mig0.selHood 0 = 0 ∧ (mig0.hood 0).sealed = false ∧ mig0.hoodCtxs 0 = [] ∧ mig0.pats = [] ∧ mig0.hat.migKeys.find 0 ≠ none ∧
    mig0.reg rHOOD_PREEMPT 0 % 2 = 0 ∧ ((mig0.modHood 0 (fun k => { k with frozen := true })).hood 0).frozen = true := by
  simp only [NoService]; decide

theorem wit_FreezeRoom : mig0.imageSize 0 ≤ mig0.reg rHOOD_MIG_LEN 0 := by
  have h : mig0.imageSize 0 = (Config.imageExtra 0).toNat := rfl
  have h2 : mig0.reg rHOOD_MIG_LEN 0 = 2 ^ 52 := by decide
  rw [h, h2]
  exact Nat.le_of_lt (Nat.lt_trans (Config.imageExtra 0).isLt (by decide))

/-- An empty image of the same shape. -/
def img0 : MigImage := { (default : MigImage) with keyOk := true, seqOk := true, srcPkg := 3, ntile := 2, nchan := 1, ctxCount := 16, ringCount := 16, gen := 4 }

theorem wit_Restore : ((((mig0.setReg rHOOD_MIG_STATUS 0 5).modHood 0 (fun k => { k with restore := some img0 })).modHood 0 (fun k =>
    { k with restore := none })).restoreTo 0 img0).1 = 6 ∧ mig0.migBusy 0 = false ∧ img0.key ∉ mig0.hat.migUsed ∧
    { img0 with keyOk := false }.keyOk = false ∧ ((mig0.modFn 0 (fun f => { f with bme := false })).fn 0).bme = false := by decide +kernel

/-- A ring that may be fetched from: nothing waits and its doorbell record reads 1; one NOP waits at slot 0. -/
def bell : State := cx.putBytes 0x8040 [1, 0, 0, 0]
def nop1 : State := ((cx.putBytes 0x9000 (List.replicate 64 0)).modRing 5 (fun k => { k with pi := 1 }))

theorem wit_RingService : cx.fetchable 5 = true ∧ bell.waiting 5 = 0 ∧ (bell.rdVA (feEng 0 3) 0x8040 4).2.2 = none ∧
    (leNat (bytesOf (bell.rdVA (feEng 0 3) 0x8040 4).1) + 2 ^ 32 - (bell.ring 5).ci) % 2 ^ 32 ≤ 2 ^ (bell.ring 5).log2n ∧
    (bell.rdVA (feEng 0 3) 0x8040 4).2.1.rings = bell.rings ∧ min (min 16 ((nop1.ring 5).pfd - (nop1.ring 5).queue.length)) (nop1.waiting 5) = 1 ∧
    nop1.fetchable 5 = true ∧ (nop1.rdVA (feEng 0 3) 0x9000 64).2.2 = none ∧
    ((nop1.rdVA (feEng 0 3) 0x9000 64).2.1.readInputs (feEng 0 3) (bytesOf (nop1.rdVA (feEng 0 3) 0x9000 64).1)).2.2.2 = none ∧
    ((nop1.rdVA (feEng 0 3) 0x9000 64).2.1.readInputs (feEng 0 3) (bytesOf (nop1.rdVA (feEng 0 3) 0x9000 64).1)).2.2.1.rings = nop1.rings := by
  decide +kernel

theorem wit_RingSleep : (late cx).waiting 5 = 0 ∧ ((late cx).ring 5).idle + (late cx).reg rFE_SLEEP_IDLE 0 * 1000 ≤ (late cx).now ∧ cx.front.wakeQ = [] ∧
    cx.now < (cx.ring 5).idle + cx.reg rFE_SLEEP_IDLE 0 * 1000 ∧ nop1.waiting 5 ≠ 0 ∧ (nop1.ring 5).awake + 100000 ≤ (late nop1).now := by decide +kernel
/-! ### Hypotheses of the statements about works and kernels -/

/-- A record of `n` bytes with values at byte offsets. -/
def rcd (n : Nat) (l : List (Nat × Nat)) : List Byte := leBytes n (l.foldl (fun a e => a ||| (e.2 <<< (8 * e.1))) 0)

/-- A started work of ring 5 with a descriptor and arguments, on `n` tiles from tile 0. -/
def job (desc : List (Nat × Nat)) (args : List Byte) (n : Nat) : Work := { wk .started true with desc := rcd 64 desc, args := args, cnt := n, holds := true, taken := true }
def run1 (x : Work) : State := { cx with works := [(1, x)] }
def kn (op : Nat) (args : List Byte) (n : Nat) : Work := job [(0, 1), (1, op), (0x12, n - 1), (0x18, 0x50000)] args n

/-- What has arrived under its epoch stays as it is. -/
theorem arrive_taken (s : State) (w op : Nat) (m : List Byte → Bool) (x : Work) (h : s.kernel w op = some x) (ht : x.taken = true) :
    s.arrive w op m = s := by
  simp [State.arrive, h, ht]

/-- A kernel whose commands were dispatched under epoch 0. -/
def stale (x : Work) : Work := { x with taken := false }

theorem whole_of (s : State) (w op : Nat) (x : Work) (h1 : s.kernel w op = some x) (h2 : x.recordsOk = true) (h3 : x.doneT = [])
    (h4 : ∀ k, k < x.cnt → s.tileOut w x k = false ∧ s.siteDown (x.siteIn s k) = false)
    (h5 : ∀ j, j < x.cnt → ∀ k, k < x.cnt → x.siteIn s j = x.siteIn s k → j = k) : Whole s w op x :=
  ⟨h1, h2, h3, h4, fun j k hj hk h => h5 j hj k hk h⟩

/-- NOPs: in order, of an unlisted KIND, and with a completion record at 0x60000. -/
theorem wit_Nop : (run1 (job [] [] 0)).begun 1 (fun k => k == 0 || decide (8 ≤ k)) = some (job [] [] 0) ∧ (job [] [] 0).parent = none ∧
    dCpl (job [] [] 0).desc = 0 ∧ descOk (job [] [] 0).desc = true ∧
    (run1 (job [(0, 9)] [] 0)).begun 1 (fun k => k == 0 || decide (8 ≤ k)) = some (job [(0, 9)] [] 0) ∧ descOk (job [(0, 9)] [] 0).desc = false ∧
    dCpl (job [(8, 0x60000)] [] 0).desc ≠ 0 ∧ descOk (job [(8, 0x60000)] [] 0).desc = true ∧
    (run1 (job [(8, 0x60000)] [] 0)).begun 1 (fun k => k == 0 || decide (8 ≤ k)) = some (job [(8, 0x60000)] [] 0) := by decide +kernel

def nopC : Work := { job [(8, 0x60000)] [] 0 with status := 0, ran := true, phase := .finished }
def nopR : Nat × State × Option Stop := ((run1 (job [(8, 0x60000)] [] 0)).modWork 1 (fun _ => nopC)).wrVA (feEng 0 3) 0x60000 (clean (nopC.record 0))

theorem wit_NopRecord : nopR.2.2 = none ∧ nopR.2.1.rings = cx.rings ∧
    nopR.2.1.works = ((run1 (job [(8, 0x60000)] [] 0)).modWork 1 (fun _ => nopC)).works := by decide +kernel

/-- BAR at unit 4 of hood 0 on tiles 0 and 1; a waiting one, with tile 0's arrival or none. -/
def barW : Work := kn 10 (rcd 16 [(0, 4)]) 2
def barS (owner : Nat) : State := { run1 barW with bars := [(4, { owner := owner })] }
def barA (arrived : List Nat) : State :=
  { run1 { barW with phase := .waiting, prog := [(4097, 1)] } with bars := [(4, { owner := 1, arrived := arrived })] }

theorem wit_Barriers : (barS 1).kernel 1 10 = some barW ∧ barW.recordsOk = true ∧ 4 = 64 * barW.hood + fld barW.args 0 0 6 ∧ ((barS 1).bar 4).owner = barW.hood + 1 ∧
    barW.prog.find 4097 = none ∧ 0 < barW.cnt ∧ (barS 0).kernel 1 10 = some barW ∧ ((barS 0).bar 4).owner ≠ 1 ∧ barW.parent = none ∧ dCpl barW.desc = 0 ∧
    ((barA []).tmap 0).contains 0 = true ∧ ((barA []).tmap 0).idxOf 0 = 0 ∧ 0 ∈ (barA []).barMembers 4 ∧ 0 ∉ ((barA []).bar 4).arrived ∧
    1 ∈ (barA []).barMembers 4 ∧ 1 ∉ ((barA []).bar 4).arrived ∧ ((barA [0]).tmap 0).idxOf 1 = 1 ∧ 1 ∉ ((barA [0]).bar 4).arrived ∧
    (∀ m, m ∈ (barA [0]).barMembers 4 → m = 1 ∨ m ∈ ((barA [0]).bar 4).arrived) ∧ ((barA []).tmap 0).contains 1663 = false ∧
    ((barA []).hood 0).gen ≠ 0 := by decide +kernel

/-- Finished works: a kernel, a copy on engine 3; a started kernel of an unlisted OP. -/
def fin (desc : List (Nat × Nat)) : Work := { job desc [] 0 with phase := .finished, ran := true, engine := some 3 }

theorem wit_Complete : (run1 (fin [(0, 1)])).work? 1 = some (fin [(0, 1)]) ∧ (run1 (fin [(0, 1)])).current (fin [(0, 1)]) = true ∧ Unrecorded (fin [(0, 1)]) ∧
    (fin [(0, 1)]).kind = 1 ∧ (fin [(0, 6)]).kind = 6 ∧ (fin [(0, 6)]).engine = some 3 ∧ argBytes (job [(0, 1), (1, 77)] [] 1).op = 0 ∧
    (run1 (job [(0, 1), (1, 77)] [] 1)).current (job [(0, 1), (1, 77)] [] 1) = true ∧ (run1 (fin [(0, 1)])).work? 9 = none := by
  simp only [Unrecorded]; decide +kernel

/-- A CHAIN of one NOP, a launch of pattern 5, and a PATCH of its slot 2. -/
def chn : Work := { job [(0, 7), (0x10, 0x70000)] [] 0 with elems := [(List.replicate 64 0, [])] }
def lau (pid : Nat) : Work := job [(0, 2), (0x10, pid)] [] 0
def ptc (slot : Nat) : Work := job [(0, 3), (0x10, 5), (0x14, slot), (0x20, 9)] [] 0
def withPat (x : Work) : State := { run1 x with pats := [(5, { live := true, slots := [{ slot := 2 }] })] }

theorem wit_Chains : (run1 chn).begun 1 (fun k => k == 7) = some chn ∧ descOk chn.desc = true ∧ chn.doneN = [] ∧ chn.runN = [] ∧ statusRank chn.status < 2 ∧
    dKind (List.replicate 64 0) ≠ 6 ∧ (run1 chn).work? (run1 chn).front.nextW ≠ none ∧
    ({ run1 chn with front := { cx.front with nextW := 2 } }).work? 2 = none := by decide +kernel

theorem wit_Launches : (withPat (lau 5)).begun 1 (fun k => k == 2) = some (lau 5) ∧ ((withPat (lau 5)).patFor (lau 5) (lPid (lau 5).desc)).isSome = true ∧
    descOk (lau 5).desc = true ∧ (withPat (lau 1023)).begun 1 (fun k => k == 2) = some (lau 1023) ∧ (withPat (lau 1023)).patFor (lau 1023) (lPid (lau 1023).desc) = none ∧
    dCpl (lau 1023).desc = 0 ∧ (lau 5).parent = none := by decide +kernel

theorem wit_Patches : (withPat (ptc 2)).begun 1 (fun k => k == 3) = some (ptc 2) ∧ descOk (ptc 2).desc = true ∧ dCpl (ptc 2).desc = 0 ∧
    fld (ptc 2).desc 0x12 0 2 = 0 ∧ ((withPat (ptc 2)).ring 5).started = [] ∧
    ((withPat (ptc 2)).patFor (ptc 2) 5).any (fun p => p.slots.any (fun q => q.slot == fld (ptc 2).desc 0x14 0 9)) = true ∧
    ((withPat (ptc 511)).patFor (ptc 511) 5).any (fun p => !p.slots.any (fun q => q.slot == fld (ptc 511).desc 0x14 0 9)) = true ∧
    (withPat (ptc 511)).begun 1 (fun k => k == 3) = some (ptc 511) := by decide +kernel

/-- A fence of 64 zero bytes at 0x50000; a signal and a wait on it. -/
def fsg : Work := job [(0, 4), (0x10, 0x50000), (0x18, 1)] [] 0
def fwt (v : Nat) : Work := job [(0, 5), (0x10, 0x50000), (0x18, v)] [] 0
def fen (x : Work) : State := (run1 x).putBytes 0x50000 (List.replicate 64 0)

theorem wit_FenceSignal : (fen fsg).begun 1 (fun k => k == 4) = some fsg ∧ descOk fsg.desc = true ∧ ((fen fsg).ring 5).xstop = false ∧
    fValue fsg.desc ≠ 2 ^ 64 - 1 ∧ (match (fen fsg).fenceAt 0 3 (fVa fsg.desc) 1 with
      | (.at l _, v) => l.1 == 0 && decide (v.works = (fen fsg).works)
      | _ => false) = true := by decide +kernel

theorem wit_FenceWait : ∀ v ∈ [0, 1], (fen (fwt v)).begun 1 (fun k => k == 5) = some (fwt v) ∧ descOk (fwt v).desc = true ∧
    (match (fen (fwt v)).fenceAt 0 3 (fVa (fwt v).desc) 0 with
      | (.at l _, u) => decide (u.works = (fen (fwt v)).works) && !anyPsn (u.fenceRd l) && fcErr (bytesOf (u.fenceRd l)) == 0 &&
          !u.orphan l (bytesOf (u.fenceRd l)) && fcValue (bytesOf (u.fenceRd l)) == 0
      | _ => false) = true ∧ (fValue (fwt v).desc = v ∧ fValue (fwt v).desc ≠ 2 ^ 64 - 1) := by decide +kernel

/-- Waits: of work 1 on the fence, on time or late; of work 1 on a fence at package 4. -/
def wtg (loc : FLoc) : State := { fen { fwt 1 with phase := .waiting } with waits := [{ work := 1, ctx := 3, ring := 5, loc := loc, thr := 1, timeout := 100 }] }
def sigd (v : Nat) : State :=
  { fen (fwt 1) with works := [], front := { cx.front with sigs := [{ loc := (0, 0x50000), ctx := 3, ring := 5, hgen := 1, value := v }] } }

theorem wit_Waits : ((wtg (0, 0x50000)).waits.find? (fun y => y.work == 1)).isSome = true ∧ 0 + 100 * 1000 ≤ (late (wtg (0, 0x50000))).now ∧
    (wtg (0, 0x50000)).now < 0 + 100 * 1000 ∧ ((wtg (0, 0x50000)).ring 5).state < 2 ∧ ((fwt 1).parent = none ∧ dCpl (fwt 1).desc = 0) ∧
    (let s := { wtg (5, 0x40) with farMem := (List.range 64).map (fun i => (farKey 4 0 (0x40 + i), 0)) };
      fcErr (bytesOf (s.fenceRd (5, 0x40))) = 0 ∧ s.orphan (5, 0x40) (bytesOf (s.fenceRd (5, 0x40))) = false ∧ fcValue (bytesOf (s.fenceRd (5, 0x40))) < 1) := by
  decide +kernel

theorem wit_Signals : ∀ v ∈ [0, 1], (sigd v).front.sigs.length = 1 ∧ ((sigd v).hood 0).gen = 1 ∧ anyPsn ((sigd v).fenceRd (0, 0x50000)) = false ∧
    fcErr (bytesOf ((sigd v).fenceRd (0, 0x50000))) = 0 ∧ (sigd v).orphan (0, 0x50000) (bytesOf ((sigd v).fenceRd (0, 0x50000))) = false ∧
    fcValue (bytesOf ((sigd v).fenceRd (0, 0x50000))) = 0 ∧ fcArm (bytesOf ((sigd v).fenceRd (0, 0x50000))) = 0 ∧ (sigd v).waits = [] := by decide +kernel

/-- Holds, a scan, a kernel whose quantum has ended while ring 6 of context 4 waits, and a save. -/
def qnt : State :=
  State.setReg (late { run1 (kn 7 (rcd 32 []) 2) with
    ctxs := [(3, { state := 1, vt := 9 }), (4, { state := 1, vt := 1 })], works := [(1, kn 7 (rcd 32 []) 2), (2, { kn 7 (rcd 32 []) 2 with ring := 6, ctx := 4, phase := .queued, holds := false })], rings := [(5, { live := true, ctx := 3, started := [1], state := 0 }), (6, { live := true, ctx := 4, queue := [2], state := 0, pi := 1 })] }) rHOOD_SAVE_LEN 0 0x10000000

theorem wit_Holds : PfOpen upC ∧ upC.selHood 0 = 0 ∧ (upC.hood 0).ucNext = [] ∧ upC.reg rHOOD_MIG_STATUS 0 = 0 ∧ (upC.hood 0).frozen = false ∧
    ((upC.modHood 0 (fun k => { k with frozen := true })).hood 0).frozen = true ∧ (wtg (0, 0x50000)).waits.all (fun y => y.scans == 0) = true := by
  simp only [PfOpen, Ready]; decide +kernel

theorem wit_Quantum : (qnt.work? 1).any (fun x => (qnt.accrueHood 0).mayRun 0 && (qnt.accrueHood 0).qualifies x) = true ∧
    (∀ e, e ∈ (qnt.accrueHood 0).works → e.2.hood = 0 → (qnt.accrueHood 0).qualifies e.2 = true → e.1 = 1) := by decide +kernel

theorem wit_Save : (run1 { kn 7 (rcd 32 []) 2 with phase := .saving }).work? 1 = some { kn 7 (rcd 32 []) 2 with phase := .saving } ∧
    (∀ p, p < 128 → (cx.plank p).saveWait = false) ∧ NoService cx 0 := by
  simp only [NoService]; decide +kernel

/-- Kernels on tile 0 (and 1 for MERGE): MMA of BF16 with START, WB, MERGE at distance 1, VEC of every operation on one element. -/
def mmaW (start : Bool) : Work := kn 1 (rcd 64 [(0, 0x500000 + 0x5000000 + (if start then 0x20000000 else 0)), (8, 0xFFFFF), (0xC, 0xFFFFF)]) 1
def wbW : Work := kn 2 (rcd 16 [(4, 0x1000), (8, 0xFFFFF)]) 1
def mrgW (d : Nat) : Work := kn 3 (rcd 16 [(2, d)]) 2

theorem wit_Mma : ∀ b ∈ [true, false], Whole (run1 (mmaW b)) 1 1 (mmaW b) ∧ mmaOk (mmaW b).args = true ∧ fldB (mmaW b).args 0 29 = b ∧
    ((((run1 (mmaW b)).tile 0).tags.find 0).getD 0 = BitVec.ofNat 32 (fld (mmaW b).args 0x18 0 32)) := by
  intro b hb
  rcases List.mem_cons.1 hb with rfl | hb
  · exact ⟨whole_of _ _ _ _ (by decide +kernel) (by decide +kernel) rfl (by decide +kernel) (by decide +kernel), by decide +kernel, by decide +kernel, by decide +kernel⟩
  · rcases List.mem_singleton.1 hb with rfl
    exact ⟨whole_of _ _ _ _ (by decide +kernel) (by decide +kernel) rfl (by decide +kernel) (by decide +kernel), by decide +kernel, by decide +kernel, by decide +kernel⟩

theorem wit_Wb : Whole (run1 wbW) 1 2 wbW ∧ a32none wbW.args 8 = none :=
  ⟨whole_of _ _ _ _ (by decide +kernel) (by decide +kernel) rfl (by decide +kernel) (by decide +kernel), by decide +kernel⟩

/-- Tiles whose tags agree, and tiles whose tags do not. -/
def mrgS (tag : BitVec 32) : State := { run1 (mrgW 1) with tiles := [(1, { tags := [(0, tag)] })] }

theorem wit_Merge : Whole (run1 (mrgW 1)) 1 3 (mrgW 1) ∧ fld (mrgW 1).args 2 0 11 = 1 ∧ ((run1 (mrgW 1)).tile 0).mergeOk ((run1 (mrgW 1)).tile 1) 0 = true ∧
    Whole (mrgS 5) 1 3 (mrgW 1) ∧ ((mrgS 5).tile ((mrgW 1).siteIn (mrgS 5) 0)).mergeOk ((mrgS 5).tile ((mrgW 1).siteIn (mrgS 5) 1)) 0 = false ∧
    (mrgW 1).siteIn (run1 (mrgW 1)) 1 = 1 :=
  ⟨whole_of _ _ _ _ (by decide +kernel) (by decide +kernel) rfl (by decide +kernel) (by decide +kernel), by decide +kernel, by decide +kernel,
    whole_of _ _ _ _ (by decide +kernel) (by decide +kernel) rfl (by decide +kernel) (by decide +kernel), by decide +kernel, by decide +kernel⟩

theorem wit_BadKernels : (run1 (kn 1 (rcd 64 [(0, 0xF00000)]) 1)).kernel 1 1 = some (kn 1 (rcd 64 [(0, 0xF00000)]) 1) ∧ mmaOk (kn 1 (rcd 64 [(0, 0xF00000)]) 1).args = false ∧
    (run1 (kn 2 (rcd 16 [(15, 1)]) 1)).kernel 1 2 = some (kn 2 (rcd 16 [(15, 1)]) 1) ∧ (kn 2 (rcd 16 [(15, 1)]) 1).recordsOk = false ∧
    (run1 (mrgW 0)).kernel 1 3 = some (mrgW 0) ∧ fld (mrgW 0).args 2 0 11 = 0 ∧ (mrgW 0).parent = none ∧ dCpl (mrgW 0).desc = 0 := by decide +kernel

/-- A VEC kernel of an operation, a format that it has, and one element. -/
def vecW (op : Nat) : Work := kn 7 (rcd 32 [(0, op + (if op = 0x20 then 0x300 else 0)), (4, 0x1000), (8, 0x2000), (0xC, 0x3000), (0x10, 0x4000), (0x14, 1)]) 1

theorem wit_Vec : ∀ p ∈ vecRows 1, vOp (vecW p.1).args = p.1 ∧ vecOk (vecW p.1).args = true ∧ 0 < min (vNum (vecW p.1).args) (vecFit (vecW p.1).args) ∧
    (run1 (vecW p.1)).kernel 1 7 = some (vecW p.1) ∧ (vecW p.1).recordsOk = true ∧ (run1 (vecW p.1)).siteDown 0 = false ∧
    (run1 (vecW p.1)).tileOut 1 (vecW p.1) 0 = false := by
  decide +kernel

/-! ### Hypotheses of further clauses -/

/-- A configuration that may be written; a device interface with nothing held; a 64-bit register without an effect of its own. -/
def cfg1 : FnCfg := { (default : FnCfg) with bme := true, rate := 6, width := 16, l0p := 16 }

theorem wit_Cfg : cfgOk cfg1 = true ∧ cfg1.bme = true ∧ cfg1.fmask = false ∧ NothingHeld (tdi 0 true) 1 := by
  refine ⟨by decide, rfl, rfl, ⟨by decide +kernel, ?_, by decide +kernel, by decide +kernel, by decide +kernel⟩⟩
  intro f hf; rw [show ((tdi 0 true).hood (1 - 1)).faults = [] from by decide +kernel] at hf; exact absurd hf (by simp)

theorem wit_UpperHalf : (at' upH.halves (2 ^ 26 * 1 + rCTX_CMD_ADDR)).wr = none ∧ (at' upH.halves (2 ^ 26 * 1 + rCTX_CMD_ADDR)).rd = none ∧
    rCTX_CMD_ADDR % 8 = 0 ∧ rCTX_CMD_ADDR + 8 ≤ bar0Size 1 ∧ isRoute 1 rCTX_CMD_ADDR = false ∧ wideAt 1 (rCTX_CMD_ADDR + 4) = false ∧
    (regInfo rCTX_CMD_ADDR).any (fun r => r.wide && r.inFn 1 && (upH.copyIdx 1 r.scope).isSome && (regCmds.find? (fun c => c.1 == r.off)).isNone &&
      (regWrites.find? (fun c => c.1 == r.off)).isNone) = true := by decide

/-- A fetch that faults, and a ring that another waits for. -/
def nopF : State := nop1.modRing 5 (fun k => { k with ctx := 4 })

theorem wit_RingStops : nopF.fetchable 5 = true ∧ min (min 16 ((nopF.ring 5).pfd - (nopF.ring 5).queue.length)) (nopF.waiting 5) ≠ 0 ∧
    (match (nopF.rdVA (feEng 0 4) 0x9000 64).2.2 with | some (.fault ..) => true | _ => false) = true ∧ (nopF.rdVA (feEng 0 4) 0x9000 64).2.1.rings = nopF.rings ∧
    { nop1 with front := { nop1.front with wakeQ := [6] } }.front.wakeQ ≠ [] ∧ ({ nop1 with front := { nop1.front with wakeQ := [6] } }).fetchable 5 = true ∧
    (tear false).ringsQuiet [5] = true ∧ (tear true).stl.mreqs = [] ∧ ((tear true).hood 0).invals = [] ∧
    ({ run1 (kn 4 [] 1) with stl := { mreqs := [{ dst := 9, who := { work := some 1 } }] } }).ringsQuiet [5] = false ∧
    (∃ v, v ∈ ((inv 1).hood 0).invals ∧ v.ctx = 3) := by decide +kernel

/-- A descriptor of a chain, a launch or a PATCH whose parent is the chain 2. -/
def kid (kind : Nat) : Work := { job [(0, kind)] [] 0 with parent := some 2 }
def kids (kind : Nat) : State := { cx with works := [(1, kid kind), (2, chn)], front := { cx.front with nextW := 3 } }

theorem wit_Children : ∀ k ∈ [7, 2, 3], (kids k).begun 1 (fun q => q == k) = some (kid k) ∧ (kid k).parent = some 2 ∧ (kids k).work? 2 = some chn ∧
    dCpl (kid k).desc = 0 ∧ dCpl chn.desc = 0 ∧ 1 < (kids k).front.nextW := by decide +kernel

/-- A chain whose element has completed, and one with a reserved bit; a launch with one, and a PATCH behind a launch. -/
def chnR : Work := { job [(0, 7), (0x3F, 0x80)] [] 0 with elems := [(List.replicate 64 0, [])] }
def ptcB : State :=
  { withPat { ptc 2 with seqNo := 2 } with
    works := [(1, { ptc 2 with seqNo := 2 }), (3, { lau 5 with seqNo := 1 })], rings := [(5, { live := true, ctx := 3, state := 0, started := [1, 3] })] }

theorem wit_ChainEnds : (run1 { chn with doneN := [0] }).begun 1 (fun k => k == 7) = some { chn with doneN := [0] } ∧
    ({ chn with doneN := [0] } : Work).elems.length ≤ ({ chn with doneN := [0] } : Work).doneN.length ∧
    (run1 chnR).begun 1 (fun k => k == 7) = some chnR ∧ descOk chnR.desc = false ∧ dCpl chnR.desc = 0 ∧ chnR.parent = none ∧
    ptcB.begun 1 (fun k => k == 3) = some { ptc 2 with seqNo := 2 } ∧ ptcB.launchBefore { ptc 2 with seqNo := 2 } = true ∧
    (withPat (ptc 2)).launchBefore (ptc 2) = false := by decide +kernel

/-- A fence descriptor with a reserved bit. -/
def fbad (kind : Nat) : Work := job [(0, kind), (0x3F, 0x80)] [] 0

theorem wit_FenceBad : ∀ k ∈ [4, 5], (fen (fbad k)).begun 1 (fun q => q == k) = some (fbad k) ∧ descOk (fbad k).desc = false ∧ dCpl (fbad k).desc = 0 ∧
    ((fen (fbad k)).ring 5).xstop = false := by decide +kernel

theorem wit_FenceStarts : ∀ v ∈ [0, 1], (match (fen (fwt v)).fenceAt 0 3 (fVa (fwt v).desc) 0 with
      | (.at l _, u) =>
        let z := u.startWait 1 (fwt v) l
        l.1 == 0 && !anyPsn (z.fenceRd l) && fcErr (bytesOf (z.fenceRd l)) == 0 && !z.orphan l (bytesOf (z.fenceRd l)) && fcValue (bytesOf (z.fenceRd l)) == 0
      | _ => false) = true := by decide +kernel

/-- Events: of a past generation; of a value below VALUE; with ARM at 1; with a wait on the fence. -/
def sigA (f : List (Nat × Nat)) (v gen : Nat) : State :=
  { (fen (fwt 1)).putBytes 0x50000 (rcd 64 f) with
    works := [], front := { cx.front with sigs := [{ loc := (0, 0x50000), ctx := 3, ring := 5, hgen := gen, value := v }] } }
def sigZ (f : List (Nat × Nat)) : State := { sigA f 1 1 with front := { cx.front with sigs := [] } }
def sigW : State := { sigA [] 1 1 with works := [(1, { fwt 1 with phase := .waiting })], waits := [{ work := 1, ctx := 3, ring := 5, loc := (0, 0x50000), thr := 1 }] }

theorem wit_SignalCases : ((sigA [] 1 0).hood 0).gen ≠ 0 ∧ fcValue (bytesOf ((sigZ [(0, 9)]).fenceRd (0, 0x50000))) = 9 ∧
    fcArm (bytesOf ((sigZ [(8, 1)]).fenceRd (0, 0x50000))) = 1 ∧ fcErr (bytesOf ((sigZ [(8, 1)]).fenceRd (0, 0x50000))) = 0 ∧
    (sigZ [(8, 1)]).ownFence (0, 0x50000) (bytesOf ((sigZ [(8, 1)]).fenceRd (0, 0x50000))) = true ∧ (sigZ [(8, 1)]).waits = [] ∧
    (sigZ [(8, 1)]).orphan (0, 0x50000) (bytesOf ((sigZ [(8, 1)]).fenceRd (0, 0x50000))) = false ∧
    sigW.waits.length = 1 ∧ sigW.work? 1 = some { fwt 1 with phase := .waiting } ∧ sigW.waits.all (fun y => y.loc == (0, 0x50000) && decide (y.thr ≤ 1)) = true ∧
    Unrecorded { fwt 1 with phase := .waiting } := by
  simp only [Unrecorded]; decide +kernel

/-- A held hood; a work that saves or moves tiles; slots without memory behind them. -/
def svw (slots moveT : List (Nat × Nat)) (p : WPhase) : Work := { kn 7 (rcd 32 []) 2 with phase := p, slots := slots, moveT := moveT }
def svS (x : Work) : State := { (run1 x).modHood 0 (fun k => { k with block := { k.block with ranges := [] } }) with front := { cx.front with nextW := 2 } }

theorem wit_Saves : (run1 (svw [] [] .saving)).noneFlying 1 = true ∧ (run1 (svw [] [(0, 0)] .started)).noneFlying 1 = true ∧
    (run1 (svw [] [(0, 0)] .started)).slotBad 0 0 = false ∧ (svS (svw [(0, 0)] [] .saving)).slotBad 0 0 = true ∧
    (svS (svw [(0, 0)] [] .saving)).inReset 0 0 = false ∧ ((svS (svw [(0, 0)] [] .saving)).ring 5).state < 2 ∧ (svS (svw [(0, 0)] [] .saving)).noneFlying 1 = true ∧
    Unrecorded (svw [(0, 0)] [] .saving) ∧ 1 < (svS (svw [(0, 0)] [] .saving)).front.nextW ∧ (svw [] [] .saving).slots = [] ∧
    ((qnt.modHood 0 (fun k => { k with held := true })).accrueHood 0).mayRun 0 = false ∧
    ({ run1 (svw [] [] .saving) with stl := { mreqs := [{ dst := 9, who := { work := some 1 } }] } }).noneFlying 1 = false := by
  simp only [Unrecorded]; decide +kernel
/-! ### Hypotheses of the statements about transfers, copies and attention -/

/-- As `run1`, with no extent to count accesses in. -/
def run2 (x : Work) : State := { run1 x with chans := [] }

/-- LOAD and STORE of 64 bytes at 0x60000 and scratchpad byte 0x1000; a LOAD outside the page table. -/
def ldW (op va : Nat) : Work := kn op (rcd 32 [(0, va), (8, 0x1000), (0xC, 64)]) 1
def eng0 (cls : Nat) : Eng := (tileEng 0 3 0 cls 5).of 1

theorem wit_Load : Whole (run2 (ldW 4 0x60000)) 1 4 (ldW 4 0x60000) ∧ (ldW 4 0x60000).siteIn (run2 (ldW 4 0x60000)) 0 = 0 ∧ fitSpad 0x1000 64 = 64 ∧
    ((run2 (ldW 4 0x60000)).rdVA (eng0 0) 0x60000 64).2.2 = none ∧ (run2 (ldW 4 0x60000)).arrive 1 4 (fun _ => true) = run2 (ldW 4 0x60000) :=
  ⟨whole_of _ _ _ _ (by decide +kernel) (by decide +kernel) rfl (by decide +kernel) (by decide +kernel), by decide +kernel, by decide +kernel,
    by decide +kernel, arrive_taken _ _ _ _ (ldW 4 0x60000) (by decide +kernel) rfl⟩

/-- The table entry of the second GiB is not valid. -/
def ldF : State := (run2 (ldW 4 0x40000000)).putBytes 0x31008 (leBytes 8 0)
/-- The same in a hood of 193 tiles. -/
def ldG : State := ldF.modHood 0 (fun k => { k with block := { k.block with tmap := List.range 193 } })

theorem wit_LoadFault : Whole ldF 1 4 (ldW 4 0x40000000) ∧
    (match (ldF.rdVA (eng0 0) 0x40000000 64).2.2 with | some (.fault ..) => true | _ => false) = true ∧
    (ldF.rdVA (eng0 0) 0x40000000 64).1 = [] ∧
    (ldF.rdVA (eng0 0) 0x40000000 64).2.1.ntile 0 < 193 ∧ Whole ldG 1 4 (ldW 4 0x40000000) ∧
    (match (ldG.rdVA (eng0 0) 0x40000000 64).2.2 with | some (.fault ..) => true | _ => false) = true ∧
    193 ≤ (ldG.rdVA (eng0 0) 0x40000000 64).2.1.ntile 0 ∧ (ldG.rdVA (eng0 0) 0x40000000 64).2.1.faultFull 0 = false :=
  ⟨whole_of _ _ _ _ (by decide +kernel) (by decide +kernel) rfl (by decide +kernel) (by decide +kernel), by decide +kernel, by decide +kernel,
    by decide +kernel, whole_of _ _ _ _ (by decide +kernel) (by decide +kernel) rfl (by decide +kernel) (by decide +kernel), by decide +kernel,
    by decide +kernel, by decide +kernel⟩

def stR : Nat × State × Option Stop := (run2 (ldW 5 0x60000)).wrVA (eng0 0) 0x60000 (((run2 (ldW 5 0x60000)).tile 0).rdN 0x1000 64)

theorem wit_Store : Whole (run2 (ldW 5 0x60000)) 1 5 (ldW 5 0x60000) ∧ stR.1 = 64 ∧ stR.2.2 = none :=
  ⟨whole_of _ _ _ _ (by decide +kernel) (by decide +kernel) rfl (by decide +kernel) (by decide +kernel), by decide +kernel, by decide +kernel⟩

/-- A region of one batt of 64-element KV8 at 0x44000, its record at 0x40000; a KVC of one token. -/
def rgn (x : Work) (ok : Bool) : State :=
  (run2 x).putBytes 0x40000 (rcd 32 [(0, 0x44000), (8, if ok then 1 else 0), (12, 1), (13, 1)])
def kvcW : Work := kn 6 (rcd 32 [(0, 0x40000), (0x10, 0x1000), (0x14, 0x2000), (0x18, 7)]) 1
def rgnG : Region := { base := 0x44000, nb := 1, layers := 1, heads := 1, d := 64, kv4 := false, sigma := 0 }
def kvcU (ok : Bool) : List PB × State × Option Stop := (rgn kvcW ok).rdVA (eng0 1) 0x40000 32
def kvcV : State × Option (Stop × Bool) :=
  kvcWrites (eng0 1) 1 0 (rgnG.addr 0 0 0) (((rgn kvcW true).tile 0).token rgnG kvcW.args 0).1 0 (kvcU true).2.1

theorem wit_Kvc : Whole (rgn kvcW true) 1 6 kvcW ∧ Whole (rgn kvcW false) 1 6 kvcW :=
  ⟨whole_of _ _ _ _ (by decide +kernel) (by decide +kernel) rfl (by decide +kernel) (by decide +kernel),
    whole_of _ _ _ _ (by decide +kernel) (by decide +kernel) rfl (by decide +kernel) (by decide +kernel)⟩

theorem wit_KvcRead : (kvcU true).2.2 = none ∧ anyPsn (kvcU true).1 = false ∧ parseRegion (bytesOf (kvcU true).1) = some rgnG ∧
    kvcTokens kvcW.args = 1 ∧ (kvcU false).2.2 = none ∧ anyPsn (kvcU false).1 = false ∧ parseRegion (bytesOf (kvcU false).1) = none := by
  decide +kernel

theorem wit_KvcWrite : kvcV.2 = none ∧ (kvcV.1.work? 1).any (fun y => y.phase == .started && y.doneT == [] && y.cnt == 1) = true := by
  decide +kernel

/-- Copies of 8 bytes from 0x60000 to 0x61000 on engine 3, in each mode; the index of gather and scatter at 0x62000 is 0. -/
def cpW (mode len : Nat) : Work := { job [(0, 6), (0x10, 0x60000), (0x18, 0x61000), (0x20, len), (0x28, mode), (0x38, 0x62000)] [] 0 with engine := some 3 }
def cpS (mode len : Nat) : State := (run2 (cpW mode len)).putBytes 0x62000 [0, 0, 0, 0]
def cpZ (mode : Nat) : State := (cpS mode 8).draw.2.modWork 1 (fun x => { x with prog := x.prog.insert 1 (cpS mode 8).draw.1 })
def cpE : Eng := (copyEng 0 3 3 5).of 1
def cpI (mode : Nat) : List PB × State × Option Stop :=
  if mode = 1 ∨ mode = 2 then (cpZ mode).rdVA cpE 0x62000 4 else ([], cpZ mode, none)
def cpR (mode : Nat) : List PB × State × Option Stop := if mode = 3 then (List.replicate 8 (0, false), cpZ 3, none) else (cpI mode).2.1.rdVA cpE 0x60000 8
def cpV (mode : Nat) : Nat × State × Option Stop := (cpR mode).2.1.wrVA cpE 0x61000 (cpR mode).1

theorem wit_Copy : ∀ m ∈ [0, 1, 2, 3], (cpS m 8).begun 1 (fun k => k == 6) = some (cpW m 8) ∧ descOk (cpW m 8).desc = true ∧ cMode (cpW m 8).desc = m ∧
    cRows (cpW m 8).desc = 1 ∧ cLen (cpW m 8).desc = 8 ∧ (cpI m).2.2 = none ∧ anyPsn (cpI m).1 = false ∧ leNat (bytesOf (cpI m).1) = 0 ∧
    (cpR m).2.2 = none ∧ (cpV m).2.2 = none ∧ (cpV m).1 = 8 ∧ (cpV m).2.1.works = (cpZ m).works ∧ (cpV m).2.1.waits = (cpS m 8).waits ∧
    (cpS m 0).begun 1 (fun k => k == 6) = some (cpW m 0) ∧ cLen (cpW m 0).desc = 0 ∧ dCpl (cpW m 0).desc = 0 := by decide +kernel

/-- ATTN of one row over that region, whose batt's positions are all beyond the row; bad arguments. -/
def atnW (bad : Bool) : Work := kn 8 (rcd 192 [(0, if bad then 0x300 else 0), (8, 0x3F800000), (0x10, 0x40000), (0x20, 0x1000), (0x24, 0x2000)]) 1
def atnS : State := (rgn (atnW false) true).putBytes 0x44000 (List.replicate 256 0xFF)
def atnU : List PB × State × Option Stop := atnS.rdVA (eng0 1) 0x40000 32
def atnZ : State :=
  (atnU.2.1.modTile 0 (fun q => { q with attn := [] })).modTile 0 (fun q => if q.attn.length == 0 then
    { q with attn := q.attn ++ [((atnS.tile 0).qRows (atnW false).args 64).map (fun _ => rowInit 64)] } else q)
def atnB : Option BattX × State × Option (Stop × Bool) := atnZ.readBatt (eng0 1) rgnG (rgnG.addr 0 0 0) (atMaxPos (atnW false).args)

theorem wit_Attn : Whole atnS 1 8 (atnW false) ∧ attnOk (atnW false).args = true ∧ atRing (atnW false).args = 0 ∧ atSpan (atnW false).args = false ∧
    atnU.2.2 = none ∧ anyPsn atnU.1 = false ∧ parseRegion (bytesOf atnU.1) = some rgnG ∧ atnB.2.2 = none ∧
    (run2 (atnW true)).kernel 1 8 = some (atnW true) ∧ attnOk (atnW true).args = false :=
  ⟨whole_of _ _ _ _ (by decide +kernel) (by decide +kernel) rfl (by decide +kernel) (by decide +kernel), by decide +kernel, by decide +kernel,
    by decide +kernel, by decide +kernel, by decide +kernel, by decide +kernel, by decide +kernel, by decide +kernel, by decide +kernel⟩

/-- A ring record at 0x50000 for link 0, and its engine 0 with a round of one piece. -/
def rot0 : Rot :=
  { hood := 1, ctx := 3, recVa := 0x50000, n := 2, next := 5, prev := 5, links := 1, slot0 := 0x60000, slot1 := 0x68000, slotb := 0x8000, region := 0x40000, rounds := [(0, 1)] }
def rngS (act : Nat) (rots : Table Rot) : State :=
  ({ rgn (kn 9 (rcd 16 [(0, act), (8, 0x50000)]) 1) true with rots := rots }.putBytes 0x50000
    (rcd 64 [(0, 2), (2, 5), (4, 5), (8, 1), (16, 0x60000), (24, 0x68000), (32, 0x8000), (40, 0x40000)])).modHood 0 (fun k => { k with block := { k.block with links := 1 } })
def rngU : List PB × State × Option Stop := (rngS 0 []).rdVA (eng0 1) 0x50000 64

theorem wit_RingUp : Whole (rngS 0 []) 1 9 (kn 9 (rcd 16 [(8, 0x50000)]) 1) ∧ rngU.2.2 = none ∧ anyPsn rngU.1 = false ∧
    (parseRing (bytesOf rngU.1) (rngU.2.1.hood 0).block.links).any (fun k => k.links == 1) = true ∧ ((rngS 0 []).rot 0).hood = 0 ∧
    Whole (rngS 1 [(0, rot0)]) 1 9 (kn 9 (rcd 16 [(0, 1), (8, 0x50000)]) 1) ∧ (rngS 1 [(0, rot0)]).ringEng 0 3 0x50000 = some 0 :=
  ⟨whole_of _ _ _ _ (by decide +kernel) (by decide +kernel) rfl (by decide +kernel) (by decide +kernel), by decide +kernel, by decide +kernel,
    by decide +kernel, by decide +kernel,
    whole_of _ _ _ _ (by decide +kernel) (by decide +kernel) rfl (by decide +kernel) (by decide +kernel), by decide +kernel⟩

/-- Engine 0 with landed pieces, credits and pieces to send; 2^64 is piece 0 of the other member in round 0. -/
def pcR (full : List (Nat × Nat × Nat)) (cred : Nat) (todo : List Nat) : Rot := { rot0 with full := full, cred := cred, todo := todo }
def pcS (full : List (Nat × Nat × Nat)) (cred : Nat) (todo : List Nat) : State := rngS 1 [(0, pcR full cred todo)]
def pcW : Nat × State × Option Stop := (pcS [] 2 []).wrVA (rotEng (pcR [] 2 []) 0) 0x60000 (List.replicate 64 (7, false))
def pcG : Option Region × State := (pcS [] 2 [0]).ringRegion 0
def pcO : List PB × State × Option Stop := pcG.2.rdVA (rotEng (pcR [] 2 [0]) 0) (rgnG.addr 0 0 0 + (rot0.place rgnG 0).1) (rot0.place rgnG 0).2
def pcF : State := pcS [(0, 2 ^ 64, 64)] 2 [2 ^ 64]
def pcL : List PB × State × Option Stop := (pcF.ringRegion 0).2.rdVA (rotEng (pcF.rot 0) 0) 0x60000 64

theorem wit_PieceLanded : ((pcS [] 2 []).rot 0).hood ≠ 0 ∧ ((pcS [] 2 []).rot 0).stopped = false ∧ ((pcS [] 2 []).rot 0).part.isNone = true ∧
    ((pcS [] 2 []).rot 0).full.isEmpty = true ∧ ((pcS [] 2 []).rot 0).stage.isEmpty = true ∧ 64 ≤ ((pcS [] 2 []).rot 0).slotb ∧ pieceOrigin (2 ^ 64) = 1 ∧
    ((pcS [] 2 []).rot 0).n = 2 ∧ ((pcS [] 2 []).rot 0).pos = 0 ∧ pcW.1 = 64 ∧ pcW.2.2.isNone = true ∧
    ((pcS [(1, 2 ^ 64, 64)] 2 []).rot 0).full.any (fun p => p.1 == 1) = true := by decide +kernel

theorem wit_PieceSend : (pcS [] 2 [0]).rotFault 0 = false ∧ ((pcS [] 0 []).rot 0).cred = 0 ∧ ((pcS [] 2 [0]).rot 0).todo.head? = some 0 ∧
    pieceOrigin 0 = ((pcS [] 2 [0]).rot 0).pos ∧ pcG.1 == some rgnG ∧ pcO.2.2.isNone = true ∧
    pieceOrigin (2 ^ 64) ≠ (pcF.rot 0).pos ∧ (pcF.ringRegion 0).1 == some rgnG ∧ (pcF.rot 0).full.any (fun y => y.2.1 == 2 ^ 64) = true ∧
    pcL.2.2.isNone = true ∧ (pcF.rot 0).todo.head? = some (2 ^ 64) ∧ pcF.rotFault 0 = false ∧
    (pcS [] 2 [2 ^ 64]).rotFault 0 = false ∧ ((pcS [] 2 [2 ^ 64]).rot 0).full.isEmpty = true ∧ ((pcS [] 2 [2 ^ 64]).ringRegion 0).1 == some rgnG := by
  decide +kernel

/-- A kernel dispatched under an earlier epoch than the block's. -/
def old (op a0 : Nat) : Work := stale (kn op (rcd 192 [(0, a0)]) 1)

theorem wit_Stale : ∀ p ∈ [(1, 0), (2, 0), (3, 0), (4, 0), (5, 0), (6, 0), (8, 0), (9, 0), (9, 1), (10, 0)] ++ (vecRows 1).map (fun p => (7, p.1)),
    (run1 (old p.1 p.2)).kernel 1 p.1 = some (old p.1 p.2) ∧ (old p.1 p.2).taken = false ∧
    (old p.1 p.2).epoch ≠ (run1 (old p.1 p.2)).reg rHOOD_EPOCH 0 ∧ fld (old p.1 p.2).args 0 0 8 = p.2 := by decide +kernel
/-! ### Hypotheses of the statements about coherence, faults, power and links -/

/-- Line 5 of channel 0, or another, with the coherent fabric given. -/
def ch (c : Coh) : State := { upC with coh := c }
def m64 : CLine := { st := .M, data := List.replicate 64 7, gen := 1 }
def ownC (o : Nat) : Coh := { dir := [(5, { owner := some o })], caches := [(cacheKey o 5, m64)], lru := [5] }
def shrC (l : List Nat) : Coh := { dir := [(5, { sharers := l })], lru := [5] }

/-- The hood may own a plain line of a read-write range. -/
theorem wit_MayOwn : MayOwn (ch {}) 0 5 ∧ (ch {}).refuses 0 5 = none ∧ ((ch {}).refuses 0 0x4001).isSome = true := by
  simp only [MayOwn]; decide

theorem quiet_of (s : State) (line : Nat) (e : Extent) (h : s.coh.hot = []) (he : s.extentOf line = some e) (ht : s.reg rBIR_HOT_THR e.owner / 256 % 2 = 0) :
    Quiet s line :=
  ⟨h, fun e' h' => by rw [he] at h'; obtain rfl := Option.some.inj h'; exact .inr ht⟩

theorem wit_CohRequests : Powered (ch {}) ∧ isLocalLine 5 = true ∧ (ch { txns := [(5, { req := .rdS {} 1 })] }).coh.txns.find 5 = some { req := .rdS {} 1 } ∧
    (ch { waiting := [(5, .evC 1)] }).coh.txns.find 5 = none ∧ (∃ w, w ∈ (ch { waiting := [(5, .evC 1)] }).coh.waiting ∧ w.1 = 5) ∧
    HomeReady (ch {}) 5 (.rdS ((ch {}).reqWho 0 2) 2) ∧ (ch {}).coh.dir.find 5 = none ∧ (ch {}).moveTwin 5 = none ∧
    HomeReady (ch (ownC 1)) 5 (.wbM 2) ∧ ((ch (ownC 1)).coh.dir.find 5).isSome = true ∧ ((ch (ownC 1)).dirOf 5).owner = some 1 ∧ MayOwn (ch (ownC 1)) 0 5 ∧
    (ch (ownC 1)).copyOf 1 5 = some m64 ∧ HomeReady (ch (shrC [2])) 5 (.wbM 2) ∧ ((ch (shrC [2])).dirOf 5).owner = none ∧
    ((ch (shrC [2])).dirOf 5).sharers.filter (fun k => k != 2) = [] ∧ (ch (shrC [2])).copyOf 2 5 = none ∧ MayOwn (ch (shrC [2])) 0 5 ∧
    ((ch { shrC [2] with caches := [(cacheKey 2 5, { m64 with st := .S })] }).copyOf 2 5).isSome = true ∧
    ((ch (shrC [1, 2])).dirOf 5).sharers.filter (fun k => k != 2) = [1] ∧ (ch {}).roLine 0 5 = false ∧ (ch {}).roLine 0 0x4001 = true ∧
    (ch {}).entryFor 5 (.wbM 2) = .now ∧ (ch {}).entryFor 0x4001 (.wbM 2) = .now := by
  simp only [Powered, HomeReady, MayOwn]; decide

theorem wit_CohQuiet : Quiet (ch {}) 5 ∧ Quiet (ch (shrC [2])) 5 ∧ Quiet (ch (shrC [1, 2])) 5 :=
  ⟨quiet_of _ _ { base := 0, len := 1048576 } rfl (by decide) (by decide), quiet_of _ _ { base := 0, len := 1048576 } rfl (by decide) (by decide),
    quiet_of _ _ { base := 0, len := 1048576 } rfl (by decide) (by decide)⟩

theorem wit_CohPlain : PlainLine (ch {}) 0 5 ∧ PlainLine (ch {}) 0 0x4001 :=
  ⟨plain_of _ _ _ { base := 0, len := 1048576 } (by decide) (by decide) (by decide) (by decide) (by decide) (by decide),
    plain_of _ _ _ { base := 1048576, len := 262144 } (by decide) (by decide) (by decide) (by decide) (by decide) (by decide)⟩

/-- Range A moves to channel 1: its lines are written twice. -/
def mvS : State := upC.modHood 0 (fun k => { k with block := { blkA with ranges := [{ rngA with state := 2, target := some { cbase := 0x800000 } }, rngB] } })

theorem wit_CohMove : mvS.refuses 0 5 = none ∧ (mvS.moveTwin 5).isSome = true := by decide

/-- 16 entries of the set of line `l` in use, all of line `v` in another cache. -/
def fullSet (v : Nat) : State := { up with coh := { dir := [(v, { owner := some 1 })], lru := List.replicate 16 v } }

/-- Two lines of one set exist, whatever the assignment of lines to sets is. -/
theorem wit_CohEvict : ∃ l v, (fullSet v).coh.txns.find l = none ∧ (fullSet v).coh.waiting = [] ∧ isLocalLine l = true ∧ MayOwn (fullSet v) 0 l ∧
    (fullSet v).entryFor l (.rdS {} 2) = .evict v ∧ ((fullSet v).dirOf v).owner = some 1 := by
  obtain ⟨a, ha, b, hb, hab, h⟩ := Finset.exists_ne_map_eq_of_card_lt_of_maps_to (s := Finset.range 131073) (t := Finset.range 131072) (f := dirSetOf)
    (by simp) (fun x hx => by
      have : x < 131073 := by simpa using hx
      have hf : isFarLine x = false := by simp [isFarLine]; omega
      simp only [dirSetOf, hf, Finset.coe_range, Set.mem_Iio]
      exact Nat.mod_lt _ (by decide))
  simp only [Finset.mem_range] at ha hb
  have la : isLocalLine a = true := by simp [isLocalLine]; omega
  have lf : ∀ x, x < 131073 → isFarLine x = false := fun x hx => by simp [isFarLine]; omega
  have hh : ∀ x, x < 131073 → homeDie x = 0 := fun x hx => by simp [homeDie, chanOfLine]; omega
  refine ⟨a, b, rfl, rfl, la, ⟨?_, ?_⟩, ?_, ?_⟩
  · have e : (fullSet b).extentOf a = none := rfl
    have hr : ((fullSet b).hood 0).block.ranges = [] := rfl
    have r : (fullSet b).roLine 0 a = false := by simp [State.roLine, hr]
    simp [State.refuses, e, r]
  · rfl
  · simp [fullSet, State.entryFor, State.setInUse, CReq.makesEntry, Table.find, State.dirHome, lf a ha, lf b hb, hh a ha, hh b hb, h]
    exact hab
  · simp [fullSet, State.dirOf, Table.find]

/-- The messages of line 5 in flight, one of each kind, with cache 1 as the holder and requester 2. -/
def d64 : List Byte := List.replicate 64 7
def ms : List CMsg :=
  [.fwdS 5 1 2, .recall 5 1, .inv 5 1, .invAck 5 1, .done 5 1, .wbData 5 1 d64 false, .grant 5 2, .data 5 2 d64 true false,
    .dataX 5 2 d64 false, .atomResult 5 2 9 false, .wrAck 5 2]
def an (b : Txn) : State := ch { ownC 1 with txns := [(5, b)], msgs := ms, caches := [(cacheKey 1 5, m64), (cacheKey 2 5, m64)] }
def anF (m : CMsg) : State := ch { ownC 1 with txns := [(5, {})], msgs := [m] }

theorem wit_CohAnswers : Powered (an {}) ∧ (∀ b, (an b).coh.txns.find 5 = some b) ∧ (an {}).copyOf 1 5 = some m64 ∧ (an {}).copyOf 2 5 = some m64 ∧
    (an {}).chanDown (chanOfLine 5) = false ∧ (an {}).keyless 5 = false ∧ (an {}).coh.waiting = [] ∧ (an {}).makeRoom 1 5 = an {} ∧ (an {}).makeRoom 2 5 = an {} ∧
    (∀ m ∈ ms, m = .fwdS 5 1 2 ∨ m = .fwdX 5 1 2 ∨ m = .fwdRd 5 1 2 ∨ ∀ r, m ≠ .fwdS 5 1 r ∧ m ≠ .fwdX 5 1 r ∧ m ≠ .fwdRd 5 1 r) ∧
    (∀ m ∈ ms, m = .wbData 5 1 d64 false ∨ ∀ r x, m ≠ .wbData 5 1 r x) ∧ (∀ m ∈ ms, m = .data 5 2 d64 true false ∨ ∀ x y z, m ≠ .data 5 2 x y z) ∧
    (∀ m ∈ ms, m = .dataX 5 2 d64 false ∨ ∀ x y, m ≠ .dataX 5 2 x y) ∧ (∀ m ∈ ms, m = .atomResult 5 2 9 false ∨ ∀ x y, m ≠ .atomResult 5 2 x y) := by
  refine ⟨by simp only [Powered]; decide +kernel, fun _ => rfl, by decide, by decide, by decide, by decide, rfl, rfl, rfl, ?_, ?_, ?_, ?_, ?_⟩ <;> simp [ms]

theorem wit_CohAnswersQuiet : Quiet (an {}) 5 := quiet_of _ _ { base := 0, len := 1048576 } rfl (by decide) (by decide)

/-- A holder without a copy, and one forward of each kind. -/
theorem wit_CohNoCopy : ∀ m ∈ [CMsg.fwdS 5 3 2, .fwdX 5 3 2, .fwdRd 5 3 2, .recall 5 3], (anF m).copyOf 3 5 = none ∧ m ∈ (anF m).coh.msgs ∧
    (anF m).coh.msgs.length = 1 := by decide

/-- The transactions of the clauses: `req`, `acks`, `got`, `sup`, `queue`. -/
theorem wit_CohTxns : (({ req := .rdX {} 2, acks := [1, 3] } : Txn).acks.filter (fun k => k != 1) = [3]) ∧ ({ req := .rdX {} 2, acks := [1] } : Txn).got = false ∧
    ({ req := .wbM 1, acks := [1] } : Txn).req = .wbM 1 ∧ ({ req := .rdU {} 2, sup := true } : Txn).acks = [] ∧
    ({ req := .rdS {} 2, sup := true } : Txn).queue = [] ∧ (ch { txns := [(5, {})] }).coh.msgs = [] := by decide +kernel

/-- An atomic of tile 0 or the front end on the word at an address, in context 3, whose page is of memory type `mt`: the front end's translation
cache holds it. -/
def atA (kind ctx va : Nat) : AtomArgs := { kind := kind, num := 0, hood := 0, ctx := ctx, req := 2, va := va, width := 32, opnd := 5, cmp := 0, ret := true }
def atS (mt : Nat) : State :=
  { cx.putBytes 0x31000 (leBytes 8 (0x1F + 64 * mt)) with
    xlt := { cx.xlt with tlbs := [{ loc := 128, ctx := 3, hood := 0, gen := 1, page := 0, size := 2 ^ 30, ent := BitVec.ofNat 64 (0x1F + 64 * mt) }] } }
def atP (mt va : Nat) : Dest × State := (atS mt).pieceAt ((atS mt).atomEng (atA 3 3 va)) va 4 2

theorem wit_Atomics : Powered (atS 0) ∧ atomOk 0 (atA 3 3 0x40) = true ∧ (atS 0).hood 0 = cx.hood 0 ∧ (cx.hood 0).created = true ∧
    (∀ p ∈ [(0, 0x40), (2, 0x40), (0, 0x100000)], (match (atP p.1 p.2).1 with | .dev x _ mt => x == p.2 && mt == p.1 | _ => false) = true) ∧
    (∀ p ∈ [(0, 0x40), (2, 0x40), (0, 0x100000)], ((atP p.1 p.2).2.hood 0).block.placeOf p.2 = .loc p.2) ∧
    (atP 0 0x40).2.roLine 0 1 = false ∧ (atP 2 0x40).2.roLine 0 1 = false ∧ (atP 0 0x100000).2.roLine 0 0x4000 = true := by
  simp only [Powered]; decide +kernel

theorem wit_AtomicsPlain : PlainLine (atP 0 0x40).2 0 1 ∧ PlainLine (atP 2 0x40).2 0 1 ∧ PlainLine (atP 0 0x100000).2 0 0x4000 :=
  ⟨plain_of _ _ _ { base := 0, len := 1048576 } (by decide +kernel) (by decide +kernel) (by decide +kernel) (by decide +kernel) (by decide +kernel) (by decide +kernel),
    plain_of _ _ _ { base := 0, len := 1048576 } (by decide +kernel) (by decide +kernel) (by decide +kernel) (by decide +kernel) (by decide +kernel) (by decide +kernel),
    plain_of _ _ _ { base := 1048576, len := 262144 } (by decide +kernel) (by decide +kernel) (by decide +kernel) (by decide +kernel) (by decide +kernel) (by decide +kernel)⟩

theorem wit_AtomicsRoom : (atP 0 0x40).2.makeRoom (homeDie 1) 1 = (atP 0 0x40).2 ∧ (∀ w a, (atP 0 0x40).2.entryFor 1 (.atom w 0 0x40 false a) = .now) := by
  refine ⟨by decide +kernel, fun w a => ?_⟩
  have h : (atP 0 0x40).2.coh = {} := by decide +kernel
  simp [State.entryFor, h]

/-- A fault of the front end, and an access of tile 0 behind one of its queue that was routed under the draining epoch. -/
def atO : State := { run1 (kn 4 [] 1) with stl := { cx.stl with mreqs := [{ dst := 9, who := { hood := 0, queue := some 5, epoch := 7 }, ha := 0x40 }] } }

theorem wit_AtomicsStop : (match ((atS 0).pieceAt ((atS 0).atomEng (atA 3 4 0x40)) 0x40 4 2).1 with | .stop (.fault ..) => true | _ => false) = true ∧
    (atO.pieceAt (atO.atomEng (atA 0 3 0x40)) 0x40 4 2).1 = .stop .order ∧ (upH.hood 0).created = false := by decide +kernel

theorem wit_Patrols : Powered up ∧ up.patrolled 0 5 = true ∧ up.lineOwners 5 = [] ∧ (up.chan 0).ueTimes.length < 15 ∧ up.patrolled 1 5 = false ∧
    Table.sorted (up.chan 0).counts = true ∧ NoServices up ∧ NoneStaged up ∧ HomesIdle up ∧ up.liveHoods = [] ∧ up.works = [] ∧ (up.site 3).isol = false ∧
    (up.plank 3).isol = false ∧ (up.chan 3).isol = false ∧ (up.stack 3).isol = false ∧ up.nap.spine = false ∧ (up.link 3).st ≠ 2 ∧
    ((up.modSite 3 (fun k => { k with isol := true })).site 3).isol = true ∧
    Powered upC ∧ NoServices upC ∧ NoneStaged upC ∧ upC.liveHoods = [0] ∧ 0 ∈ upC.tmap 0 ∧ upC.rings = [] ∧ (upC.hood 0).failed = false ∧ (upC.hood 0).change.phase = .stable ∧
    (upC.hood 0).teardown = [] ∧ upC.hoodExists 0 = true ∧ (upC.site 0).isol = false := by
  simp only [Powered, NoServices, NoneStaged, HomesIdle, NoService]; decide

/-- Plank 2 as given; what happens there is between steps of its clock. -/
def pk (k : Plank) : State := { up with planks := [(2, k)] }
def fulS (now : Nat) : State := { up with nap := { up.nap with counter := BitVec.ofNat 64 now }, bars := [(4, { times := [(0, 5)], fulling := 1 })] }
def emS (e : Nat) : State := { pk { gated := false, droop := true } with power := { up.power with emerg := e } }

theorem wit_PlankClocks : Powered (pk {}) ∧ ((pk { n := 3, target := 5, stepping := true, gated := false }).plank 2).stepping = true ∧
    (pk {}).works = [] ∧ ((pk { gated := false }).plank 2).droop = false ∧ (emS 0).power.emerg = 0 ∧ ((emS 0).plank 2).droop = true ∧
    ((pk { holdoff := true }).plank 2).holdoff = true ∧
    ((pk { gated := false, target := 5 }).plank 2).lowered < ((pk { gated := false, target := 5 }).pointOf 2).1 ∧
    0 < ((pk { gated := false, target := 5, lowered := 1 }).plank 2).lowered ∧ (∀ i, i ∈ sitesOf 2 → (pk { gated := false }).siteBusy i = false) ∧
    (∃ i, i ∈ sitesOf 0 ∧ (run1 (kn 4 [] 1)).siteBusy i = true) ∧ ((fulS 90000000).bar 4).times = [(0, 5)] ∧
    5 + (fulS 90000000).reg rPWR_FULL_CFG 0 % 256 * 1000 ≤ (fulS 90000000).now ∧
    (fulS 0).now < 5 + (fulS 0).reg rPWR_FULL_CFG 0 % 256 * 1000 := by
  simp only [Powered]; decide

/-- Plank 2 throttled with the sensor of its hottest reading at `v`. -/
def hotS (v : Int) (k : Plank) : State := { pk k with thermal := { up.thermal with temps := [(2, v)] } }

set_option maxRecDepth 20000 in
theorem wit_Temperatures : Powered (hotS 0 {}) ∧ (hotS 0 {}).works = [] ∧ (hotS 0 {}).nap.tripped = false ∧
    ((hotS 0 { gated := false }).plank 2).throt = false ∧ ((hotS 0 {}).plank 2).isol = false ∧ (hotS 800 { throt := true }).hotAt 2 800 = true ∧
    (hotS 799 {}).hotAt 2 800 = false ∧ (hotS 776 { throt := true }).hotAt 2 777 = false ∧ (hotS 777 {}).hotAt 2 777 = true ∧
    ((hotS 700 { throt := true, n := 2, target := 9 }).plank 2).n + 1 < ((hotS 700 { throt := true, n := 2, target := 9 }).pointOf 2).1 - 0 ∧
    ((hotS 700 { throt := true, n := 9, target := 9 }).pointOf 2).1 - 0 ≤ ((hotS 700 { throt := true, n := 9, target := 9 }).plank 2).n + 1 ∧
    (∀ m, m < 155 → m ≠ 2 → (hotS 0 {}).tempOf m < 944) ∧ (∀ m, m < 155 → (hotS 0 {}).tempOf m < 944) ∧
    (∀ i, i < 128 → (hotS 0 {}).hotAt i 777 = false ∧ ((hotS 0 {}).plank i).hot = false) ∧ (∀ j, j < 8 → ((hotS 0 {}).stack j).fast = false) ∧
    (hotS 0 {}).thermal.layers = [] ∧ (∀ j, j < 8 → j ≠ 3 → (({ hotS 0 {} with memStacks := [(3, { fast := true })] }).stack j).fast = false) ∧
    (({ hotS 0 {} with memStacks := [(3, { fast := true })] }).stack 3).fast = true ∧
    840 < (hotS 841 {}).tempOf 2 ∧ (hotS 840 {}).tempOf 2 ≤ 840 ∧ { up.nap with tripped := true }.tripped = true := by
  simp only [Powered]; decide

def stgS : State := { up with power := { up.power with staged := [0], capWait := true } }

theorem wit_Emergencies : Powered up ∧ up.works = [] ∧ up.powerLimit * 11 < 65535 * 10 ∧ up.power.emerg = 0 ∧ 0 * 10 ≤ up.powerLimit * 11 ∧
    (emS 1).power.emerg = 1 ∧ (emS 2).power.emerg = 2 ∧ (emS 3).power.emerg = 3 ∧ ((emS 3).plank 2).droop = true ∧ 3 ∈ up.hat.rails ∧
    0 ∉ up.power.staged ∧ stgS.power.staged = [0] ∧ stgS.power.capWait = true ∧ stgS.reg rPWR_HOOD_STATUS 0 / 4 % 4 ≠ 1 ∧ stgS.modeOf 0 ≠ 2 := by
  simp only [Powered]; decide

/-- A power group of `n` packages 11, 12, … in which this one has index `i`, at counter `now`. -/
def grp (n i now : Nat) (p : Power) : State :=
  (((({ up with power := p, nap := { up.nap with counter := BitVec.ofNat 64 now } }.setReg rPWR_GRP_CFG 0 (64 + (n - 1) + i * 4096)).setReg
    (rPWR_GRP_MEMBER) 0 11).setReg (rPWR_GRP_MEMBER + 4) 0 12).setReg (rPWR_GRP_MEMBER + 8) 0 13)

theorem wit_Group : Powered (grp 3 0 0 {}) ∧ (grp 3 0 0 {}).groupOn = true ∧ (grp 3 0 0 {}).selfIdx = 0 ∧ 1 < (grp 3 0 0 {}).members.length ∧
    (∃ i, i < (grp 3 0 0 {}).members.length ∧ i ≠ 1 ∧ (grp 3 0 0 {}).power.late.find i = none) ∧ up.groupOn = false ∧
    (grp 2 0 0 { late := [(0, 3)], offs := [(0, 5), (1, -5)] }).power.late.find 0 = some 3 ∧ (grp 2 0 0 { offs := [(0, 5), (1, 7)] }).power.offs = [(0, 5), (1, 7)] ∧
    (grp 3 1 0 {}).selfIdx ≠ 0 ∧ ({} : Power).fall.getD 0 < 5 ∧ (5 : Int) ≠ ({} : Power).rise.getD (({} : Power).fall.getD 0) ∧
    (-5 : Int) < ({} : Power).fall.getD 0 ∧ 12 ∈ (grp 3 1 0 {}).members ∧ (grp 3 1 0 {}).power.off ≤ 0 ∧ 99 ∉ (grp 3 1 0 {}).members ∧
    (grp 2 0 0 { confirm := false }).power.confirm = false ∧ (grp 2 0 0 {}).members.length = 2 ∧ (grp 2 0 0 {}).power.confirm = true ∧
    ((grp 2 0 0 {}).power.offs.find 0).getD 0 = ({} : Power).rise.getD (({} : Power).fall.getD 0) ∧
    (grp 3 1 2000000 {}).power.lastShift + 2000000 ≤ (grp 3 1 2000000 {}).now ∧ (grp 3 1 1999999 {}).now < 2000000 ∧
    (grp 3 1 16000000 { left := true, off := -3 }).power.fall.getD (-3) < 0 ∧ 16000000 ≤ (grp 3 1 16000000 { left := true, off := -3 }).now ∧
    (grp 3 1 11000000 { rise := some 5 }).power.riseAt + 11000000 ≤ (grp 3 1 11000000 { rise := some 5 }).now := by
  simp only [Powered]; decide

theorem wit_Windows : (upC.hood 0).effNext = none ∧
    ((upC.modHood 0 (fun k => { k with effNext := some [1, 2, 3, 4, 5, 6] })).hood 0).effNext = some [1, 2, 3, 4, 5, 6] := by decide +kernel

/-- Link 3 UP, in the state given; a flit on it from package 7, with its CRC. -/
def lk (k : Link) : State := { up with links := [(3, k)] }
def sealF (f : Flit) : Flit := { f with crc := flitCrc f }
def fl (fseq : Nat) (msgs : List StlMsg) : Flit :=
  sealF { link := 3, typ := 1, fseq := fseq, ack := 0, nak := false, tc := 4, vc := 0, crtc := 0, crvc := 0, crcnt := 0, dst := 0, src := 7,
          rsv := 0, payload := [], crc := 0, errs := 0, die := 0, msgs := msgs, more := false }
def idl (f : Flit) : Flit := { f with typ := 0, payload := [], msgs := [], more := false }
def cr (tag : Nat) : StlMsg := { len := 8, rsv := false, tag := tag, hood := none, enc := false, keyidx := 0, ctr := 0, gcm := 0, body := .credit 2 }
def sentF : TxFlit := { (default : TxFlit) with fseq := 5 }
/-- The same to package 9, which link 4 leads to. -/
def tfl : Flit := sealF { fl 0 [] with dst := 9 }
def tlk (cred : Table Nat) : State :=
  { up with links := [(3, { st := 2 }), (4, { st := 2, cred := cred })], stl := { up.stl with routes := [(9, 16)] } }
def twf : TxFlit := { tc := tfl.tc, vc := tfl.vc, dst := 9, src := 7, msgs := [], more := false, transit := [] }

theorem crc_sealF (f : Flit) : (sealF f).crc = flitCrc (sealF f) := by simp only [sealF, flitCrc]
theorem crc_idl (f : Flit) : (idl (sealF (idl f))).crc = flitCrc (idl (sealF (idl f))) := by simp only [sealF, idl, flitCrc]

theorem goodFlit_sealF (s : State) (f : Flit) (h : f.errs ≤ 15) (hw : (s.link f.link).cwErr ≤ 15) : GoodFlit s (sealF f) := ⟨h, hw, crc_sealF f⟩

theorem wit_FlitsGood : (∀ n ms, GoodFlit (lk { st := 2 }) (fl n ms)) ∧ GoodFlit (lk { st := 2 }) (idl (sealF (idl (fl 0 [])))) ∧
    GoodFlit (tlk []) tfl ∧ GoodFlit (lk { st := 2 }) (sealF { fl 0 [] with typ := 7 }) ∧ flitBad (sealF { fl 0 [] with typ := 7 }) = true ∧
    (sealF { fl 0 [] with typ := 7 }).crc = flitCrc (sealF { fl 0 [] with typ := 7 }) ∧
    (sealF (idl { fl 0 [] with tc := 7 })).crc = flitCrc (idl (sealF (idl { fl 0 [] with tc := 7 }))) ∧ flitBad (idl (sealF (idl { fl 0 [] with tc := 7 }))) = true ∧
    ∀ f : Flit, { f with crc := flitCrc f + 1 }.crc ≠ flitCrc { f with crc := flitCrc f + 1 } := by
  refine ⟨fun n ms => goodFlit_sealF _ _ (Nat.zero_le _) (Nat.zero_le _), ⟨by decide +kernel, by decide +kernel, crc_idl _⟩,
    goodFlit_sealF _ _ (by decide +kernel) (by decide +kernel), goodFlit_sealF _ _ (by decide +kernel) (by decide +kernel), by decide +kernel,
    crc_sealF _, crc_idl _, by decide +kernel, fun f h => ?_⟩
  simp [flitCrc] at h

theorem wit_Flits : Powered (lk {}) ∧ (lk {}).stl.queue.isEmpty = true ∧ ((lk {}).link 3).st ≠ 2 ∧ ((lk { st := 2 }).link 3).st = 2 ∧
    ((lk { st := 2 }).link 3).cwBit = 0 ∧ 15 < { fl 0 [] with errs := 16 }.errs ∧ ((lk { st := 2 }).link 3).cwErr ≤ 15 ∧
    flitBad (fl 0 []) = false ∧ ((lk { st := 2 }).link 3).retry = [] ∧
    (fl 9 []).fseq ≠ ((lk { st := 2 }).link 3).rxSeq ∧ ((lk { st := 2 }).link 3).drop = false ∧ (fl 0 []).fseq = ((lk { st := 2 }).link 3).rxSeq ∧
    (fl 0 []).src ≠ (lk { st := 2 }).selfId ∧ (fl 0 []).dst = (lk { st := 2 }).selfId ∧ ((lk { st := 2 }).link 3).owe = [] ∧
    msgOk 4 (cr 6) = true ∧ (lk { st := 2 }).mustEnc 0 7 (cr 6) = false ∧ (lk { st := 2 }).stl.watch.find 7 = none ∧
    ({ lk { st := 2 } with rots := [(2, { hood := 1, next := 7 })] }).ringOf 7 2 true = some 2 ∧
    6 ∉ ((lk { st := 2 }).stl.tags.find 7).getD [] ∧ 6 ∈ (({ lk { st := 2 } with stl := { tags := [(7, [6])] } }).stl.tags.find 7).getD [] ∧
    ((lk { st := 2, retry := [sentF] }).link 3).retry = [sentF] ∧ sentF.fseq ≠ (fl 0 []).ack ∧ ((lk { st := 2, retry := [sentF] }).link 3).rep = 0 ∧
    tfl.dst ≠ (tlk []).selfId ∧ (lk { st := 2 }).noRoute 0 9 = true ∧ (tlk []).noRoute 0 9 = false ∧ (tlk []).flitLink (some 3) 0 twf = some 4 ∧
    (tlk []).hasRoom 4 4 ((tlk []).vcOn 4 9 (some 3) 0) 1 = true ∧ (tlk [(8, 128)]).flitLink (some 3) 0 twf = none := by
  simp only [Powered]; decide +kernel

/-- Link 3 selected by the PF; the watched package 9; held requests; an association at index 1 of link die 0. -/
def lsel (st : Nat) : State := ({ upH with links := [(3, { st := st })] }).setReg rSTL_LINK_SEL 0 3
def wt (now : Nat) : State :=
  { up with nap := { up.nap with counter := BitVec.ofNat 64 now }, stl := { up.stl with watch := [(9, { live := true })] } }
def asS (n : Nat) : State := { up with stl := { up.stl with assocs := (List.range n).map (fun i => (i, { live := true, peer := i + 1 })) } }

theorem wit_Links : Ready (lsel 3) ∧ ((lsel 3).fn 0).d3hot = false ∧ (lsel 3).reg rSTL_LINK_SEL 0 = 3 ∧ ((lsel 3).link 3).st = 3 ∧ ((lsel 0).link 3).st = 0 ∧
    Powered (lk {}) ∧ (lk { st := 2 }).stl.watch = [] ∧ ((lk { st := 2 }).link 3).retry = [] ∧ (lk { st := 2 }).rots = [] ∧ (lk { st := 2 }).hoodsOfLink 3 = [] ∧
    NoServices (lk {}) ∧ 0 + 50000 ≤ ({ lk { st := 2 } with nap := { up.nap with counter := 50000 } }).now ∧ (lk { st := 2 }).now < 0 + 50000 ∧
    ((lk { st := 1, isol := true }).link 3).st = 1 ∧ ((lk { st := 1 }).link 3).isol = false ∧ (lk { st := 1 }).stl.queue.isEmpty = true ∧ ((lk { st := 1, isol := true }).link 3).isol = true ∧
    ((lk { st := 3 }).link 3).quiet = false ∧ ((lk { st := 3, quiet := true }).link 3).quiet = true := by
  simp only [Ready, Powered, NoServices, NoService]; decide

theorem wit_Paths : (wt 900000).stl.watch.find 9 = some { live := true } ∧ 0 + 900000 ≤ (wt 900000).now ∧ (wt 900000).liveHoods = [] ∧
    (wt 900000).waits = [] ∧ (∀ h, h < 16 → (wt 900000).hoodDepends h 9 = false) ∧ (wt 900000).coh.waiting = [] ∧ NoServices (wt 900000) ∧ (wt 0).stl.watch = [(9, { live := true })] ∧ (wt 900000).groupOn = false ∧ (wt 0).now < 900000 ∧
    ({ wt 0 with links := [(3, { st := 2 })], stl := { (wt 0).stl with routes := [(9, 8)] } }).dieReaches 0 9 = true ∧ up.stl.watch.find 9 = none ∧
    (wt 0).hat.runs = true ∧ (wt 0).nap.classB = false ∧
    ({ up with stl := { up.stl with holds := [(0, 9)] } }).stl.held = [] ∧ (∀ r, r ∈ up.stl.mreqs → r.die = 0 → r.dst ≠ 9) ∧
    (∃ r, r ∈ ({ up with stl := { up.stl with mreqs := [{ dst := 9 }] } }).stl.mreqs ∧ r.die = 0 ∧ r.dst = 9) ∧
    (at' (asS 2).stl.assocs 1).live = true ∧ (at' (asS 2).stl.assocs 2).live = false ∧ (∀ j, j < 2 → (at' (asS 2).stl.assocs j).live = true) ∧
    (∀ j, j < 64 → (at' (asS 64).stl.assocs j).live = true) := by
  simp only [NoServices, NoService]; decide +kernel

theorem wit_Singes : Powered up ∧ up.liveHoods = [] ∧ up.hat.repair = none ∧ up.stl.watch = [] ∧ up.nap.recPend = [] ∧ up.hat.flash.present = true ∧ up.nap.countKey = true ∧
    up.nap.classA < 2 ∧ 2 ≤ { up.nap with classA := 2 }.classA ∧ up.hat.runs = true ∧ State.reset.hat.runs = false ∧ up.nap.recFail = false ∧
    { up.nap with recFail := true, recPend := [true] }.recPend = [true] := by
  simp only [Powered]; decide

/-! ### Hypotheses of the remaining statements -/

theorem wit_Reset : Powered up ∧ up.pending = [] ∧ State.reset.nap.pgood = false := by simp only [Powered]; decide

theorem wit_Settled : Settled State.reset := by simp only [Settled]; decide

/-- One product 3 × 5 at scales 0. -/
def op1 (m : Nat) : Opnd := { v := .fin false m 0, s := 0, nanS := false, ovf := false, psn := false }

theorem wit_Reduction : 0 ≤ (0 : Int) + 0 ∧ (∀ p, p ∈ [(op1 3, op1 5)] → plainPair p = true ∧ 0 ≤ prodExp p + 0) ∧
    -(2 ^ 111) ≤ (macAll 0 (0, 0) [(op1 3, op1 5)]).1 ∧ (macAll 0 (0, 0) [(op1 3, op1 5)]).1 < 2 ^ 111 ∧
    (0 : Elem).anchor = (1 : Elem).anchor ∧ (0 : Elem).anchor < (mkElem 0 1 5).anchor := by decide +kernel

def gr64 : Group := { els := List.replicate 64 3, scale := 0, off := 0, nan := false, sat := false }

theorem wit_Section (g : Region) (hd : g.d = 64) : (List.replicate g.sec ((0, false) : PB)).length = g.sec ∧ [gr64].length = g.d / 64 ∧
    (∀ x, x ∈ [gr64] → x.els.length = 64 ∧ ∀ c, c ∈ x.els → c < (if g.kv4 then 16 else 256)) := by
  refine ⟨List.length_replicate .., by simp [hd], fun x hx => ?_⟩
  obtain rfl := List.mem_singleton.1 hx
  refine ⟨rfl, fun c hc => ?_⟩
  obtain rfl := List.eq_of_mem_replicate hc
  split <;> decide

/-! ### Ill-formed commands, one for each check of `Instr.wf` -/

def at32 (w : Nat) : AtomArgs := { atA 3 3 0 with width := w }

theorem test_wf_units : ∀ c ∈ [Instr.create 16, .addRange 16 0, .addRange 0 256, .functionLevelReset 16, .vfEnableSet 17, .hoodReset 17,
    .completionTimeout 17 0, .devicePowerStateChange 17 0, .plankResetSaveTimeout 128, .freqStepComplete 128, .droopIntervalEnd 128 true, .descriptorFetch 8192,
    .scratchpadParityError 1664, .barrierArrival 1024 0 0, .barrierArrival 0 1664 0, .fullingHoldEnd 1024, .eraseComplete 8, .counterHalve 8,
    .railRegulationTimeout 15, .pmbAlert 15 true, .pmbusTelemetryPoll [] [15], .thermalEmergency 155, .poolConfigWrite 6 0,
    .imageVerified 5, .ideIntegrityFailure 16, .getMeasurements 256, .pieceSend 16, .tamperTrip 0, .tamperTrip 5], c.wf = false := by decide +kernel

theorem test_wf_links : ∀ c ∈ [Instr.linkLoss ⟨40, true⟩, .linkTrainingComplete 40 8, .dataFlit { fl 0 [] with link := 40 }, .keepalive 4096, .grant 4096 0 ⟨0, 0⟩,
    .mreqHoldRelease 2 0, .mreqHoldRelease 0 4096, .associationRekey 2 0, .associationRekey 0 64, .physicalFault 1 128,
    .physicalFault 5 40], c.wf = false := by decide +kernel

theorem test_wf_lines : ∀ c ∈ [Instr.rdx (2 ^ 34) ⟨0, 0⟩, .rds (2 ^ 34) ⟨0, 0⟩ 0, .rds 0 ⟨0, 9⟩ 0, .rds 0 ⟨0, 0⟩ 73, .evc 0 9, .wru 0 0 0 60 0 [1, 2, 3, 4, 5], .rdu 16 0 0 0, .fwds 0 9,
    .wbdata (2 ^ 58) 0, .atomresult (2 ^ 34) 0, .atomicAdd (at32 16), .atomicAdd (at32 128), .atomicFadd (at32 64),
    .atomicCas { at32 128 with hood := 16 }, .windowRead 16 false 0 0 0, .windowRead 0 false 0 4097 0, .windowRead 0 false 0 0 73], c.wf = false := by
  decide +kernel

theorem test_ill_formed_faults : exec (.create 16) up = .fault .noSuchUnit := rfl

/-! ### Worked examples of the spec -/

/-- Architecture: tile die 3, plank 12, site 7 is site 787 of package-wide plank 60; channel 19 of stack 3 is channel 115. -/
theorem test_site_numbers : plankOf (208 * 3 + 13 * 12 + 7) = 60 ∧ 787 ∈ sitesOf 60 ∧ 115 / 32 = 3 := by decide +kernel

/-- The first example under R51: products 9 and −4 on tile P, −6 and 4 on tile Q, at λ = −83. -/
def exP : Int × EFlags :=
  macAll (-83) (0, 0) [(⟨fE2M1.val 3, 2, false, false, false⟩, ⟨fE2M1.val 5, -1, false, false, false⟩),
    (⟨fE2M1.val 0xC, 2, false, false, false⟩, ⟨fE2M1.val 2, -1, false, false, false⟩)]
def exQ : Int × EFlags :=
  macAll (-83) (0, 0) [(⟨fE2M1.val 7, 1, false, false, false⟩, ⟨fE2M1.val 9, 0, false, false, false⟩),
    (⟨fE2M1.val 1, 1, false, false, false⟩, ⟨fE2M1.val 6, 0, false, false, false⟩)]

theorem test_reduction_exact : lamFor 0 0 2 = -83 ∧ anchorOf (-83) = 0x1AD ∧ exP = (5 * 2 ^ 83, 0) ∧ exQ = (-2 * 2 ^ 83, 0) ∧
    bits (mkElem 0 0x1AD exQ.1).toNat 0 112 = 0xFFFFFFF * 2 ^ 84 ∧
    mergeEl (mkElem 0 0x1AD exP.1) (mkElem 0 0x1AD exQ.1) = mkElem 0 0x1AD (0x18 * 2 ^ 80) ∧
    (fp32El (mkElem 0 0x1AD (3 * 2 ^ 83))).1 = 0x40400000 := by decide +kernel

/-- The second example: two products of 2^−10 at λ = −9 truncate to 0 with STK; at λ = −99 they are 2^90, which a merge moves to 1 × 2^−9. -/
def exS (lam : Int) : Int × EFlags :=
  macAll lam (0, 0) (List.replicate 2 (⟨fBF16.val 0x3D00, 0, false, false, false⟩, ⟨fBF16.val 0x3D00, 0, false, false, false⟩))

theorem test_reduction_truncates : exS (-9) = (0, eStk) ∧ exS (-99) = (2 ^ 90, 0) ∧ anchorOf (-99) = 0x19D ∧
    fp32El (mergeEl (mkElem 0 0x1F7 0) (mkElem 0 0x19D (2 ^ 90))) = (0x3B000000, false) ∧ (fp32El (mkElem eStk 0x1F7 0)).1 = 0 := by decide +kernel

/-- The example of R68: a KV4 group of −1.296875, 0.59375 and 2.1875. -/
def exG : Group := kv4Group ([.fin true 83 (-6), .fin false 19 (-5), .fin false 35 (-4)] ++ List.replicate 61 (.fin true 83 (-6)))

theorem test_kv4_group : exG.off = 0xBB ∧ exG.scale = 0x28 ∧ exG.els.take 3 = [0, 8, 0xE] ∧
    expand4 8 0x28 0xBB 0 = bf16Of (.fin false 5 (-3)) ∧ expand4 0xE 0x28 0xBB 0 = bf16Of (.fin false 17 (-3)) ∧
    expand4 0 0x28 0xBB 0 = bf16Of (.fin true 11 (-3)) := by decide +kernel

/-- The fence record and CTX_EVR_PEND of Host Attachment: context 1,041 is bit 17 of group 32. -/
theorem test_context_bit : 1041 / 32 = 32 ∧ 1041 % 32 = 17 := by decide

/-- The example of Power, Thermal and Group Operation: at 5,000 W each of 128 planks has (5,000 − 880) / 128 = 32.19 W, which gives 2.95 GHz (n = 43). -/
def whole : State := { up with planks := (List.range 128).map (fun p => (p, { gated := false, n := 43, target := 43 })) }

theorem test_fit_point : whole.fitPoint 0 321875 = 43 := by decide +kernel

/-- R401: the latch of the device counter by the second half of TOP_TS_HOST. -/
def tsS : State := { upH with nap := { upH.nap with counter := 5000000750 } }

theorem test_timestamp : (match exec (.topTsHostWrite 1 false 0xE8D4A51000) tsS with
    | .next t => t.reg rTOP_TS_DEV 1 == 0x12A05F4EE && t.reg rTOP_TS_HOST 1 == 0xE8D4A51000 | _ => false) = true := by decide +kernel

/-- R6: with no command waiting, the counter moves. R410: without power nothing does. -/
theorem test_tick : (match step up with | .next t => t.nap.counter == up.nap.counter + 1 | _ => false) = true := by decide +kernel

theorem test_tick_unpowered : step State.reset = .next State.reset := rfl

/-- R8: the least significant byte is at the lowest address. -/
theorem test_le : leBytes 4 0x11223344 = [0x44, 0x33, 0x22, 0x11] ∧ leNat [0x44, 0x33, 0x22, 0x11] = 0x11223344 := by decide

/-- R395: the reset value of STL_TC_WEIGHT in the register map. -/
theorem test_reset_values : State.reset.reg rSTL_TC_WEIGHT 0 = 0x4666 ∧ State.reset.pending = [] := by decide +kernel


end Sys2Proof.Machine
end

section
/-!
PROOFS. The scope of the model: what every command does, what the reset state is, and the accesses to registers of BAR0.
-/
namespace Sys2Proof.Machine

/-- Every command but COLD_START is `run` of its operands' check and of some effect. -/
theorem isRun_of_ne_coldStart : ∀ c : Instr, (∀ f k fs fc st, c ≠ .coldStart f k fs fc st) → IsRun c
  | .coldStart f k fs fc st, h => absurd rfl (h f k fs fc st)
  | .hatterStartTimeout, _ => isRun_hatterStartTimeout
  | .railRegulationTimeout rail, _ => isRun_railRegulationTimeout rail
  | .pgoodNapFall, _ => isRun_pgoodNapFall
  | .perst, _ => isRun_perst
  | .perstDeassert refOk katOk failSites stuck, _ => isRun_perstDeassert refOk katOk failSites stuck
  | .dlDown, _ => isRun_dlDown
  | .functionLevelReset h, _ => isRun_functionLevelReset h
  | .pfFunctionLevelReset, _ => isRun_pfFunctionLevelReset
  | .vfEnableClear, _ => isRun_vfEnableClear
  | .vfEnableSet numVfs, _ => isRun_vfEnableSet numVfs
  | .disablePathComplete h, _ => isRun_disablePathComplete h
  | .busMasterEnableChange fn bme mse fmask ctl, _ => isRun_busMasterEnableChange fn bme mse fmask ctl
  | .referenceCheckFault, _ => isRun_referenceCheckFault
  | .create h, _ => isRun_create h
  | .reshape h, _ => isRun_reshape h
  | .addRange h r, _ => isRun_addRange h r
  | .releaseRange h r, _ => isRun_releaseRange h r
  | .moveRange h r, _ => isRun_moveRange h r
  | .markRo h r, _ => isRun_markRo h r
  | .seal h, _ => isRun_seal h
  | .restart h, _ => isRun_restart h
  | .destroy h, _ => isRun_destroy h
  | .blockCommit h, _ => isRun_blockCommit h
  | .drainComplete h, _ => isRun_drainComplete h
  | .moveCopyComplete h, _ => isRun_moveCopyComplete h
  | .eraseComplete stack, _ => isRun_eraseComplete stack
  | .ask pkg len ro dMs, _ => isRun_ask pkg len ro dMs
  | .grant pkg leaseId loan, _ => isRun_grant pkg leaseId loan
  | .deny pkg, _ => isRun_deny pkg
  | .renew pkg leaseId, _ => isRun_renew pkg leaseId
  | .ack pkg leaseId, _ => isRun_ack pkg leaseId
  | .returnLease pkg leaseId, _ => isRun_returnLease pkg leaseId
  | .leaseRenewTick h r, _ => isRun_leaseRenewTick h r
  | .leaseDeadline h r, _ => isRun_leaseDeadline h r
  | .leaseReclaim leaseId, _ => isRun_leaseReclaim leaseId
  | .leaseAskTimeout h, _ => isRun_leaseAskTimeout h
  | .ctxCreate h c, _ => isRun_ctxCreate h c
  | .ctxDestroy h c, _ => isRun_ctxDestroy h c
  | .ringCreate h r, _ => isRun_ringCreate h r
  | .ringDestroy h r, _ => isRun_ringDestroy h r
  | .setShare h c share, _ => isRun_setShare h c share
  | .teardownRelease h isCtx num, _ => isRun_teardownRelease h isCtx num
  | .register h, _ => isRun_register h
  | .unregister h pid, _ => isRun_unregister h pid
  | .retry h seq, _ => isRun_retry h seq
  | .fail h seq, _ => isRun_fail h seq
  | .migrate h seq, _ => isRun_migrate h seq
  | .faultTimeout h seq, _ => isRun_faultTimeout h seq
  | .faultRecordWrite h, _ => isRun_faultRecordWrite h
  | .invalidationRequest h c, _ => isRun_invalidationRequest h c
  | .invalidationFence h, _ => isRun_invalidationFence h
  | .atsTranslationCompletion h pasid pgs hostPage r w, _ => isRun_atsTranslationCompletion h pasid pgs hostPage r w
  | .priPageRequest h pasid page, _ => isRun_priPageRequest h pasid page
  | .priResponse h pasid page code, _ => isRun_priResponse h pasid page code
  | .atsInvalidateRequest h pasid page pages, _ => isRun_atsInvalidateRequest h pasid page pages
  | .hoodReset fn, _ => isRun_hoodReset fn
  | .plankReset p failSites, _ => isRun_plankReset p failSites
  | .plankResetSaveTimeout p, _ => isRun_plankResetSaveTimeout p
  | .repairSite f spareOk, _ => isRun_repairSite f spareOk
  | .retireChannel c, _ => isRun_retireChannel c
  | .apply classes, _ => isRun_apply classes
  | .freeze peerOk, _ => isRun_freeze peerOk
  | .thaw, _ => isRun_thaw
  | .restore img, _ => isRun_restore img
  | .retrain, _ => isRun_retrain
  | .disable, _ => isRun_disable
  | .enable, _ => isRun_enable
  | .svnCommit, _ => isRun_svnCommit
  | .config, _ => isRun_config
  | .debugOpen, _ => isRun_debugOpen
  | .intFuncRearm fn ide, _ => isRun_intFuncRearm fn ide
  | .topTsHostWrite fn ide v, _ => isRun_topTsHostWrite fn ide v
  | .stlPkgIdWrite v, _ => isRun_stlPkgIdWrite v
  | .capWrite v, _ => isRun_capWrite v
  | .sidebandCapSet watts, _ => isRun_sidebandCapSet watts
  | .modeWrite v, _ => isRun_modeWrite v
  | .groupEnable v, _ => isRun_groupEnable v
  | .hatbandConfigWrite off v, _ => isRun_hatbandConfigWrite off v
  | .holdSet, _ => isRun_holdSet
  | .holdClear, _ => isRun_holdClear
  | .serviceStateWrite v, _ => isRun_serviceStateWrite v
  | .saveAreaWrite isLen v, _ => isRun_saveAreaWrite isLen v
  | .feCtxCountWrite v, _ => isRun_feCtxCountWrite v
  | .feRingCountWrite v, _ => isRun_feRingCountWrite v
  | .poolConfigWrite r v, _ => isRun_poolConfigWrite r v
  | .causeClear fn ide off v, _ => isRun_causeClear fn ide off v
  | .alertSummaryClear v, _ => isRun_alertSummaryClear v
  | .registerWrite fn ide off width v, _ => isRun_registerWrite fn ide off width v
  | .lowerHalfRead fn ide off, _ => isRun_lowerHalfRead fn ide off
  | .lowerHalfWrite fn ide off v, _ => isRun_lowerHalfWrite fn ide off v
  | .invalidRegisterAccess fn ide off width isRead, _ => isRun_invalidRegisterAccess fn ide off width isRead
  | .windowRead h ide off len ecc, _ => isRun_windowRead h ide off len ecc
  | .windowWrite h ide off data, _ => isRun_windowWrite h ide off data
  | .wakePageWrite h ide off width v, _ => isRun_wakePageWrite h ide off width v
  | .atomicopRequest fn bar, _ => isRun_atomicopRequest fn bar
  | .poisonedTlpReceived fn, _ => isRun_poisonedTlpReceived fn
  | .completionTimeout fn w, _ => isRun_completionTimeout fn w
  | .ideIntegrityFailure stream, _ => isRun_ideIntegrityFailure stream
  | .msixModExpiry fn, _ => isRun_msixModExpiry fn
  | .msixUnmask fn, _ => isRun_msixUnmask fn
  | .mctpControlMessage bus code eid, _ => isRun_mctpControlMessage bus code eid
  | .pldmRequest code arg, _ => isRun_pldmRequest code arg
  | .pldmFirmwareUpdate img, _ => isRun_pldmFirmwareUpdate img
  | .imageVerified cls, _ => isRun_imageVerified cls
  | .getVersion, _ => isRun_getVersion
  | .getCapabilities, _ => isRun_getCapabilities
  | .negotiateAlgorithms, _ => isRun_negotiateAlgorithms
  | .getDigests, _ => isRun_getDigests
  | .getCertificate slot off len, _ => isRun_getCertificate slot off len
  | .challenge slot, _ => isRun_challenge slot
  | .getMeasurements idx, _ => isRun_getMeasurements idx
  | .keyExchange sid, _ => isRun_keyExchange sid
  | .finish sid, _ => isRun_finish sid
  | .heartbeat sid, _ => isRun_heartbeat sid
  | .keyUpdate sid, _ => isRun_keyUpdate sid
  | .endSession sid, _ => isRun_endSession sid
  | .chunkSend seq last, _ => isRun_chunkSend seq last
  | .chunkGet seq, _ => isRun_chunkGet seq
  | .vendorDefinedRequest req, _ => isRun_vendorDefinedRequest req
  | .lockInterfaceRequest h, _ => isRun_lockInterfaceRequest h
  | .stopInterfaceRequest h, _ => isRun_stopInterfaceRequest h
  | .nop w, _ => isRun_nop w
  | .patternLaunch w, _ => isRun_patternLaunch w
  | .patch w, _ => isRun_patch w
  | .fenceSignal w, _ => isRun_fenceSignal w
  | .fenceWait w, _ => isRun_fenceWait w
  | .chain w, _ => isRun_chain w
  | .strided w, _ => isRun_strided w
  | .gather w, _ => isRun_gather w
  | .scatter w, _ => isRun_scatter w
  | .fill w, _ => isRun_fill w
  | .copyComplete w, _ => isRun_copyComplete w
  | .mma w, _ => isRun_mma w
  | .wb w, _ => isRun_wb w
  | .merge w, _ => isRun_merge w
  | .load w, _ => isRun_load w
  | .store w, _ => isRun_store w
  | .kvc w, _ => isRun_kvc w
  | .attn w, _ => isRun_attn w
  | .kvringSetUp w, _ => isRun_kvringSetUp w
  | .kvringTearDown w, _ => isRun_kvringTearDown w
  | .bar w, _ => isRun_bar w
  | .vecAdd w, _ => isRun_vecAdd w
  | .vecSub w, _ => isRun_vecSub w
  | .vecMul w, _ => isRun_vecMul w
  | .vecFma w, _ => isRun_vecFma w
  | .vecMin w, _ => isRun_vecMin w
  | .vecMax w, _ => isRun_vecMax w
  | .vecAbs w, _ => isRun_vecAbs w
  | .vecNeg w, _ => isRun_vecNeg w
  | .vecCmp w, _ => isRun_vecCmp w
  | .vecSel w, _ => isRun_vecSel w
  | .vecExp2 w, _ => isRun_vecExp2 w
  | .vecLog2 w, _ => isRun_vecLog2 w
  | .vecRcp w, _ => isRun_vecRcp w
  | .vecRsqrt w, _ => isRun_vecRsqrt w
  | .vecExp w, _ => isRun_vecExp w
  | .vecLn w, _ => isRun_vecLn w
  | .cvtDown w, _ => isRun_cvtDown w
  | .cvtUp w, _ => isRun_cvtUp w
  | .qmx w, _ => isRun_qmx w
  | .stb w, _ => isRun_stb w
  | .rmax w, _ => isRun_rmax w
  | .rsum w, _ => isRun_rsum w
  | .accrd w, _ => isRun_accrd w
  | .kernelComplete w, _ => isRun_kernelComplete w
  | .descriptorFetch r, _ => isRun_descriptorFetch r
  | .doorbellPoll r, _ => isRun_doorbellPoll r
  | .ringSleep r, _ => isRun_ringSleep r
  | .ringRotate r, _ => isRun_ringRotate r
  | .signalApply, _ => isRun_signalApply
  | .waitTimeout w, _ => isRun_waitTimeout w
  | .fencePoll w, _ => isRun_fencePoll w
  | .deadlockScan, _ => isRun_deadlockScan
  | .quantumExpiry w, _ => isRun_quantumExpiry w
  | .saveComplete w, _ => isRun_saveComplete w
  | .scratchpadParityError site, _ => isRun_scratchpadParityError site
  | .plankGateIdle p, _ => isRun_plankGateIdle p
  | .barrierArrival unit site gen, _ => isRun_barrierArrival unit site gen
  | .fullingHoldEnd unit, _ => isRun_fullingHoldEnd unit
  | .issueRampStage p, _ => isRun_issueRampStage p
  | .capStageTimeout h, _ => isRun_capStageTimeout h
  | .powerEstimateTick pkgWatts est, _ => isRun_powerEstimateTick pkgWatts est
  | .freqStepComplete p, _ => isRun_freqStepComplete p
  | .droopTrip p, _ => isRun_droopTrip p
  | .droopStretchEnd p, _ => isRun_droopStretchEnd p
  | .droopHoldoffEnd p, _ => isRun_droopHoldoffEnd p
  | .droopIntervalEnd p overHalf, _ => isRun_droopIntervalEnd p overHalf
  | .electricalEmergency regulator, _ => isRun_electricalEmergency regulator
  | .emergencyReleaseStage, _ => isRun_emergencyReleaseStage
  | .pmbusTelemetryPoll readings faults, _ => isRun_pmbusTelemetryPoll readings faults
  | .pmbAlert rail fault, _ => isRun_pmbAlert rail fault
  | .regulatorTimeout rail, _ => isRun_regulatorTimeout rail
  | .thermalSample readings layers, _ => isRun_thermalSample readings layers
  | .throttleStep p, _ => isRun_throttleStep p
  | .throttleRecoveryStep p, _ => isRun_throttleRecoveryStep p
  | .thermalEmergency sensor, _ => isRun_thermalEmergency sensor
  | .hardwareThermalTrip sensor, _ => isRun_hardwareThermalTrip sensor
  | .groupConfirmTick, _ => isRun_groupConfirmTick
  | .arrive member gid seq lateness, _ => isRun_arrive member gid seq lateness
  | .shift seq off time, _ => isRun_shift seq off time
  | .revert pkg, _ => isRun_revert pkg
  | .groupShiftTimeout, _ => isRun_groupShiftTimeout
  | .groupRestoreTimer, _ => isRun_groupRestoreTimer
  | .groupOffsetRiseTimer, _ => isRun_groupOffsetRiseTimer
  | .hatbandWindowStart h, _ => isRun_hatbandWindowStart h
  | .rds line who ecc, _ => isRun_rds line who ecc
  | .rdx line who, _ => isRun_rdx line who
  | .upg line who, _ => isRun_upg line who
  | .rdu h line req ecc, _ => isRun_rdu h line req ecc
  | .wru h line req off ecc data, _ => isRun_wru h line req off ecc data
  | .wbm line req, _ => isRun_wbm line req
  | .evc line req, _ => isRun_evc line req
  | .atomicAdd a, _ => isRun_atomicAdd a
  | .atomicAnd a, _ => isRun_atomicAnd a
  | .atomicOr a, _ => isRun_atomicOr a
  | .atomicXor a, _ => isRun_atomicXor a
  | .atomicSmin a, _ => isRun_atomicSmin a
  | .atomicSmax a, _ => isRun_atomicSmax a
  | .atomicUmin a, _ => isRun_atomicUmin a
  | .atomicUmax a, _ => isRun_atomicUmax a
  | .atomicSwap a, _ => isRun_atomicSwap a
  | .atomicCas a, _ => isRun_atomicCas a
  | .atomicFadd a, _ => isRun_atomicFadd a
  | .fwds line holder, _ => isRun_fwds line holder
  | .fwdx line holder, _ => isRun_fwdx line holder
  | .fwdrd line holder, _ => isRun_fwdrd line holder
  | .inv line holder, _ => isRun_inv line holder
  | .recall line holder, _ => isRun_recall line holder
  | .invack line holder, _ => isRun_invack line holder
  | .done line src, _ => isRun_done line src
  | .upgradeGrant line req, _ => isRun_upgradeGrant line req
  | .atomresult line req, _ => isRun_atomresult line req
  | .wrack line req, _ => isRun_wrack line req
  | .data line req, _ => isRun_data line req
  | .datax line req, _ => isRun_datax line req
  | .wbdata line src, _ => isRun_wbdata line src
  | .patrol stack lines errs, _ => isRun_patrol stack lines errs
  | .counterHalve stack, _ => isRun_counterHalve stack
  | .dataFlit f, _ => isRun_dataFlit f
  | .idleFlit f, _ => isRun_idleFlit f
  | .linkLoss e, _ => isRun_linkLoss e
  | .keepaliveTick, _ => isRun_keepaliveTick
  | .keepalive pkg, _ => isRun_keepalive pkg
  | .pathLoss pkg, _ => isRun_pathLoss pkg
  | .retrainNotice l, _ => isRun_retrainNotice l
  | .linkTrainingComplete l lanes, _ => isRun_linkTrainingComplete l lanes
  | .linkRetrainRetry l, _ => isRun_linkRetrainRetry l
  | .mreqHoldRelease die dst, _ => isRun_mreqHoldRelease die dst
  | .associationRekey die idx, _ => isRun_associationRekey die idx
  | .pieceSend engine, _ => isRun_pieceSend engine
  | .pieceLanded engine spot data psn, _ => isRun_pieceLanded engine spot data psn
  | .tamperTrip cause, _ => isRun_tamperTrip cause
  | .hatterWatchdogTimeout, _ => isRun_hatterWatchdogTimeout
  | .singeCountRetry accepted, _ => isRun_singeCountRetry accepted
  | .trngHealthFailure, _ => isRun_trngHealthFailure
  | .physicalFault kind index, _ => isRun_physicalFault kind index
  | .devicePowerStateChange fn d3hot, _ => isRun_devicePowerStateChange fn d3hot
  | .interruptDisableChange v, _ => isRun_interruptDisableChange v
  | .resizableBarWrite log2, _ => isRun_resizableBarWrite log2
  | .pcieLinkError code, _ => isRun_pcieLinkError code
  | .dynamicAddressAssignment addr, _ => isRun_dynamicAddressAssignment addr
  | .rstdaa, _ => isRun_rstdaa

/-- Settles O58: COLD_START apart, every command is `run`, whose three answers are the statement's. -/
theorem everyCommandCompletes : Obligations.EveryCommandCompletes := by
  unfold Obligations.EveryCommandCompletes
  intro c s
  by_cases hc : ∀ f k fs fc st, c ≠ .coldStart f k fs fc st
  · obtain ⟨eff, he⟩ := isRun_of_ne_coldStart c hc s
    rw [he]
    refine ⟨fun hwf => ?_, fun hwf => ?_, fun hwf hp _ => run_dark hwf hp⟩
    · cases hp : s.nap.pgood with
      | true => exact ⟨_, run_next hwf hp, finish_pending ..⟩
      | false => exact ⟨_, run_dark hwf hp, rfl⟩
    · rw [hwf]; exact run_fault
  · push Not at hc
    obtain ⟨f, k, fs, fc, st, rfl⟩ := hc
    refine ⟨fun _ => ⟨_, exec_coldStart .., ?_⟩, fun hwf => Bool.noConfusion (show true = false from hwf), fun _ _ h => absurd rfl (h f k fs fc st)⟩
    split
    · rfl
    · exact finish_pending ..

end Sys2Proof.Machine
end

section
namespace Sys2Proof.Machine

/-! ### What `finish` leaves, as the statements name it -/

/-- The end of a command changes only what `OnlyPort` lets differ, and gives the queue back. -/
theorem finish_eq (s t : State) :
    finish s t = { t with
      pending := s.pending, fns := (finish s t).fns, nap := { t.nap with alertN := (finish s t).nap.alertN },
      outs := { t.outs with host := (finish s t).outs.host } } := by
  obtain ⟨fns, alertN, l, h, -⟩ := onlyOutputs_settle t
  unfold finish
  rw [h]

theorem onlyPort_finish {s t : State} (h : OnlyPort s t) : OnlyPort s (finish s t) := by
  unfold OnlyPort at h ⊢
  rw [finish_eq, h]

theorem onlyRegisters_finish {l : List (Nat × Nat)} {s t : State} (h : OnlyRegisters l s t) : OnlyRegisters l s (finish s t) := by
  obtain ⟨hst, hreg⟩ := h
  refine ⟨?_, fun off i hl ho hi => ?_⟩
  · rw [finish_eq, hst]
  · rw [finish_reg, hreg off i hl ho hi]

/-- What an effect sends first, the command sends first. -/
theorem answers_finish {s t : State} {o : HostOut} (h : Answers s t o) : Answers s (finish s t) o := by
  obtain ⟨l, hl⟩ := h
  obtain ⟨m, hm, -⟩ := finish_outs_host s t
  exact ⟨l ++ m, by rw [hm, hl, List.append_assoc, List.cons_append]⟩

/-! ### Register copies -/

theorem regKey_inj {off i j c : Nat} (hi : i < 8192) (hc : c < 8192) (h : regKey j c = regKey off i) : (j, c) = (off, i) := by
  unfold regKey at h
  exact Prod.ext (by omega : j = off) (by omega : c = i)

/-- What writes only the copies named is a write of registers alone. -/
theorem OnlyRegs.onlyRegisters {l : List (Nat × Nat)} {s t : State} (hl : ∀ p ∈ l, p.2 < 8192)
    (h : OnlyRegs (l.map (fun p => regKey p.1 p.2)) s t) : OnlyRegisters l s t := by
  obtain ⟨hst, hreg⟩ := h
  refine ⟨by rw [hst], fun off i hn _ hi => hreg off i fun hm => ?_⟩
  obtain ⟨p, hp, hk⟩ := List.mem_map.1 hm
  exact hn (regKey_inj hi (hl p hp) hk ▸ hp)

theorem onlyRegisters_toHost {l : List (Nat × Nat)} {s t : State} (o : HostOut) (h : OnlyRegisters l s t) :
    OnlyRegisters l s (t.toHost o) := by
  obtain ⟨hst, hreg⟩ := h
  exact ⟨by rw [hst]; rfl, hreg⟩

/-- A 32-bit saturating count fits its register. -/
theorem satAdd_lt (v n : Nat) : satAdd 32 v n < 2 ^ 64 := by
  unfold satAdd
  omega

@[simp] theorem errCount_reg_self (s : State) (fn : Nat) : (s.errCount fn).reg rHOST_ERR_COUNT fn = satAdd 32 (s.reg rHOST_ERR_COUNT fn) 1 :=
  (State.setReg_reg_self ..).trans (Nat.mod_eq_of_lt (satAdd_lt ..))

theorem onlyRegisters_errCount (s : State) {fn : Nat} (hfn : fn < 17) : OnlyRegisters [(rHOST_ERR_COUNT, fn)] s (s.errCount fn) :=
  OnlyRegs.onlyRegisters (by simp; omega) (onlyRegs_errCount s fn)

/-- Settles O55: both cases are the two arms of `step`; on an empty queue `finish` settles outputs alone. -/
theorem stepTakesFrontCommand : Obligations.StepTakesFrontCommand := by
  unfold Obligations.StepTakesFrontCommand
  refine ⟨fun s c => rfl, fun s hq => ⟨fun hp => ?_, fun hp => ?_⟩⟩
  · have hstep : step s = .next (finish s { s with nap := { s.nap with counter := s.nap.counter + 1 } }) := by
      unfold Powered at hp
      simp [step, hq, tick, hp]
    exact ⟨_, hstep, finish_nap_counter .., onlyPort_finish rfl⟩
  · simp [step, hq, tick, hp]

/-! ### The reset state -/

/-- Every register copy reads at reset as the map says (R395). -/
theorem reset_reg (off i : Nat) : State.reset.reg off i = (regDefault (regKey off i)).toNat := rfl

/-- Interrupts are off in every function at reset, so INTA does not stand. -/
theorem reset_intaNow (fn : Nat) : State.reset.intaNow fn = false := by
  cases fn with
  | zero =>
    have hctl : State.reset.reg rINT_FUNC_CTL 0 = 0 := by decide
    simp [State.intaNow, hctl, bits]
  | succ n => rfl

theorem settled_reset : Settled State.reset :=
  ⟨by decide, fun fn _ => ⟨(reset_intaNow fn).symm, fun _ => ⟨rfl, rfl, rfl⟩⟩⟩

/-- Settles O56: every table of the reset state is empty, so units read as their defaults and registers as the map says. -/
theorem resetStateIsUnpowered : Obligations.ResetStateIsUnpowered := by
  unfold Obligations.ResetStateIsUnpowered
  refine ⟨rfl, rfl, rfl, rfl, rfl, rfl, rfl, rfl, rfl, fun off i _ => reset_reg off i, by decide, by decide, by decide, ?_⟩
  exact ⟨fun i => rfl, fun h => rfl, fun l => rfl, fun r => rfl, settled_reset⟩

end Sys2Proof.Machine
end

section
namespace Sys2Proof.Machine

/-! ### Accesses to BAR0 that complete -/

section
variable {s : State} {fn : Nat} {ide : Bool} {Q : State → Prop}

theorem completes_run {c : Instr} {eff : State → State} (hc : exec c s = run c.wf eff s) (hwf : c.wf = true) (hp : Powered s)
    (hQ : Q (finish s (eff s))) : Completes c s Q := ⟨_, hc.trans (run_next hwf hp), hQ⟩

theorem onBar_ok (hr : s.reach fn ide = .ok) (eff : State → State) : s.onBar fn ide eff = eff s := by simp [State.onBar, hr]

theorem completes_onBar {c : Instr} {eff : State → State} (hc : exec c s = run (fnOk fn) (fun s => s.onBar fn ide eff) s) (hwf : c.wf = fnOk fn)
    (hp : Powered s) (hfn : fn < 17) (hr : s.reach fn ide = .ok) (hQ : Q (finish s (eff s))) : Completes c s Q :=
  completes_run (hc.trans (by rw [hwf])) (hwf.trans (decide_eq_true hfn)) hp (by rwa [onBar_ok hr])

theorem completes_registerWrite {off w : Nat} {v : BitVec 64} (hp : Powered s) (hfn : fn < 17) (hr : s.reach fn ide = .ok)
    (hQ : Q (finish s (s.writeBar0 fn off w v.toNat))) : Completes (.registerWrite fn ide off w v) s Q :=
  completes_onBar rfl rfl hp hfn hr hQ

theorem completes_lowerHalfRead {off : Nat} (hp : Powered s) (hfn : fn < 17) (hr : s.reach fn ide = .ok)
    (hQ : Q (finish s (s.readBar0 fn off 4))) : Completes (.lowerHalfRead fn ide off) s Q :=
  completes_onBar rfl rfl hp hfn hr hQ

theorem completes_lowerHalfWrite {off : Nat} {v : BitVec 32} (hp : Powered s) (hfn : fn < 17) (hr : s.reach fn ide = .ok)
    (hQ : Q (finish s (s.writeBar0 fn off 4 v.toNat))) : Completes (.lowerHalfWrite fn ide off v) s Q :=
  completes_onBar rfl rfl hp hfn hr hQ

theorem completes_invalidRegisterAccess {off w : Nat} {isRead : Bool} (hp : Powered s) (hfn : fn < 17) (hr : s.reach fn ide = .ok)
    (hbad : badAccess fn off w = true) (hQ : Q (finish s (if isRead then s.readBar0 fn off w else s.writeBar0 fn off w 0))) :
    Completes (.invalidRegisterAccess fn ide off w isRead) s Q :=
  completes_onBar rfl rfl hp hfn hr (by simpa [hbad] using hQ)

/-! ### One rule per kind of access to BAR0 (R11, R12) -/

variable {off w v : Nat}

/-- The accesses of R12 are those the model calls bad. -/
theorem badAccess_of (h : w < 4 ∨ off % w ≠ 0 ∨ (w = 8 ∧ wideAt fn off = false)) : badAccess fn off w = true := by
  rcases h with h | h | ⟨rfl, h⟩
  · have h4 : w ≠ 4 := by omega
    have h8 : w ≠ 8 := by omega
    simp [badAccess, h4, h8]
  · by_cases h4 : w = 4
    · subst h4; simp [badAccess, h]
    · by_cases h8 : w = 8
      · subst h8; simp [badAccess, h]
      · simp [badAccess, h4, h8]
  · simp [badAccess, h]

theorem readBar0_bad (ho : off < bar0Size fn) (hb : badAccess fn off w = true) :
    s.readBar0 fn off w = (s.errCount fn).toHost (.read fn off (BitVec.allOnes 64)) := by
  simp [State.readBar0, hb, Nat.not_le.2 ho]

theorem writeBar0_bad (ho : off < bar0Size fn) (hb : badAccess fn off w = true) : s.writeBar0 fn off w v = s.errCount fn := by
  simp [State.writeBar0, hb, Nat.not_le.2 ho]

/-- An aligned 32-bit access is valid. -/
theorem badAccess_four (h : off % 4 = 0) : badAccess fn off 4 = false := by simp [badAccess, h]

/-- A 32-bit write of a register that is no half of a wider one is the write of that register. -/
theorem writeBar0_narrow (ho : off < bar0Size fn) (h4 : off % 4 = 0) (hs : s.presents off = true) (hw : wideAt fn off = false)
    (hu : wideAt fn (off - 4) = false) : s.writeBar0 fn off 4 v = s.writeFull fn off (v % 2 ^ 32) := by
  simp [State.writeBar0, badAccess_four h4, Nat.not_le.2 ho, hs, hw, hu]

end

/-- Settles O3: every access that R12 names is `badAccess`, and each of its branches counts one error. -/
theorem wrongWidthAccessHasNoEffect : Obligations.WrongWidthAccessHasNoEffect := by
  unfold Obligations.WrongWidthAccessHasNoEffect
  intro s fn off width ide isRead v hp hfn hr ho _ hbad
  have hb := badAccess_of hbad
  have hreg := onlyRegisters_errCount s hfn
  refine ⟨completes_invalidRegisterAccess hp hfn hr hb ?_, completes_registerWrite hp hfn hr ?_⟩
  · cases isRead with
    | true =>
      rw [if_pos rfl, readBar0_bad ho hb]
      exact ⟨by simp, onlyRegisters_finish (onlyRegisters_toHost _ hreg), fun _ => answers_finish ⟨[], rfl⟩⟩
    | false =>
      rw [if_neg (by decide), writeBar0_bad ho hb]
      exact ⟨by simp, onlyRegisters_finish hreg, fun h => absurd h (by decide)⟩
  · rw [writeBar0_bad ho hb]
    exact ⟨by simp, onlyRegisters_finish hreg⟩

/-! ### Writes that replace and clear bits (R9) -/

section
variable {s : State} {fn off i v : Nat} {r : RegInfo}

/-- The bits of a register that a function may replace or clear (R9). -/
def RegInfo.mask (r : RegInfo) (fn : Nat) : Nat := if fn = 0 then r.rwP ||| r.w1P else r.rwV ||| r.w1V

/-- A write that starts no action stores into the copy that the function reaches. -/
theorem writeFull_store (hrt : isRoute fn off = false) (hinfo : regInfo off = some r) (hin : r.inFn fn = true)
    (hcmd : regCmds.find? (fun e => e.1 == r.off) = none) (hspec : regWrites.find? (fun e => e.1 == r.off) = none)
    (hi : s.copyIdx fn r.scope = some i) (hm : r.mask fn ≠ 0) : s.writeFull fn off v = s.store fn i off r v := by
  unfold RegInfo.mask at hm
  simp [State.writeFull, hrt, hinfo, hin, hcmd, hspec, hi, hm]

theorem onlyRegs_store (s : State) (fn i off : Nat) (r : RegInfo) (v : Nat) : OnlyRegs [regKey off i] s (s.store fn i off r v) :=
  onlyRegs_setReg ..

/-- RW bits are replaced, W1C bits written as one are cleared, and the others stay (R9). -/
theorem store_reg_self : BitVec.ofNat 64 ((s.store fn i off r v).reg off i) =
    ((BitVec.ofNat 64 (s.reg off i) &&& ~~~BitVec.ofNat 64 (if fn = 0 then r.rwP else r.rwV)) |||
      (BitVec.ofNat 64 v &&& BitVec.ofNat 64 (if fn = 0 then r.rwP else r.rwV))) &&&
      ~~~(BitVec.ofNat 64 v &&& BitVec.ofNat 64 (if fn = 0 then r.w1P else r.w1V)) := by
  rw [State.store, State.setReg_reg_self, Nat.mod_eq_of_lt (BitVec.isLt _), BitVec.ofNat_toNat, BitVec.setWidth_eq]

end

/-- Settles O4: such a write comes down to `State.store` of one copy. -/
theorem registerTakesWritableBits : Obligations.RegisterTakesWritableBits := by
  unfold Obligations.RegisterTakesWritableBits
  intro s fn off i ide v r hp hfn hr hs ho h4 hrt hinfo hnarrow hup hin hcmd hspec hi hlt hm
  have hw : wideAt fn off = false := by simp [wideAt, hrt, hinfo, hnarrow]
  refine completes_registerWrite hp hfn hr ?_
  rw [writeBar0_narrow ho h4 hs hw hup, writeFull_store hrt hinfo hin hcmd hspec hi hm]
  refine ⟨?_, onlyRegisters_finish (OnlyRegs.onlyRegisters (by simpa using hlt) (onlyRegs_store ..))⟩
  rw [finish_reg, store_reg_self]

end Sys2Proof.Machine
end

section
namespace Sys2Proof.Table

variable {α : Type}

/-! ### Writing back what a table holds -/

theorem mem_of_find {m : Table α} {k : Nat} {v : α} (h : find m k = some v) : (k, v) ∈ m := by
  induction m with
  | nil => cases h
  | cons e r ih =>
    obtain ⟨k', v'⟩ := e
    by_cases hk : k = k'
    · subst hk; simp only [find, if_true, Option.some.injEq] at h; simp [h]
    · simp only [find, hk, if_false] at h; exact List.mem_cons_of_mem _ (ih h)

theorem erase_of_find_none {m : Table α} {k : Nat} (h : find m k = none) : erase m k = m := by
  induction m with
  | nil => rfl
  | cons e r ih =>
    obtain ⟨k', v'⟩ := e
    by_cases hk : k = k'
    · simp [find, hk] at h
    · simp only [find, hk, if_false] at h; simp [erase, hk, ih h]

theorem insert_of_find {m : Table α} {k : Nat} {v : α} (hs : sorted m = true) (h : find m k = some v) :
    insert m k v = m := by
  induction m with
  | nil => cases h
  | cons e r ih =>
    obtain ⟨k', v'⟩ := e
    obtain ⟨hr, habove⟩ := sorted_cons hs
    by_cases hk : k = k'
    · subst hk; simp only [find, if_true, Option.some.injEq] at h; simp [insert, h]
    · simp only [find, hk, if_false] at h
      have hlt := habove _ (mem_of_find h)
      simp [insert, hk, Nat.lt_asymm hlt, ih hr h]

/-- In a table in canonical form, writing back what a key reads as changes nothing. -/
theorem put_get [DecidableEq α] {d : Nat → α} {m : Table α} (hw : wf d m = true) (k : Nat) :
    put d m k (get d m k) = m := by
  simp only [wf, Bool.and_eq_true, all_ne_iff] at hw
  obtain ⟨hs, hd⟩ := hw
  unfold put get
  cases hf : find m k with
  | none => simp [erase_of_find_none hf]
  | some v => simp [hd _ (mem_of_find hf), insert_of_find hs hf]

end Sys2Proof.Table
end

section
namespace Sys2Proof.Machine

/-- The halves of a register that a function holds (R11). -/
def State.half (s : State) (fn off : Nat) : Half := at' s.halves (2 ^ 26 * fn + off)

/-! ### What `finish` leaves of what a BAR looks at -/

theorem settle_fn_ari (s : State) (j : Nat) : ((settle s).fn j).ari = (s.fn j).ari := by
  unfold settle forN
  have base : ((settleAlert s).fn j).ari = (s.fn j).ari := rfl
  rw [← base]
  generalize settleAlert s = u
  generalize List.range 17 = l
  induction l generalizing u with
  | nil => rfl
  | cons i l ih =>
    obtain ⟨m, h, b, x, z, a, e⟩ := settleFn_fn_conf u i j
    rw [List.foldl_cons, ih, e]

@[simp] theorem finish_fn_ari (s t : State) (j : Nat) : ((finish s t).fn j).ari = (t.fn j).ari := settle_fn_ari t j

@[simp] theorem finish_ready (s t : State) : (finish s t).ready = t.ready := by simp [State.ready]

@[simp] theorem finish_hoodExists (s t : State) (h : Nat) : (finish s t).hoodExists h = t.hoodExists h := by simp [State.hoodExists]

@[simp] theorem finish_ideStream (s t : State) (h : Nat) : (finish s t).ideStream h = t.ideStream h := by simp [State.ideStream]

/-- Settling the outputs does not change who reaches a BAR. -/
@[simp] theorem finish_reach (s t : State) (fn : Nat) (ide : Bool) : (finish s t).reach fn ide = t.reach fn ide := by
  simp [State.reach, State.portUp, State.ariOk]

/-- A READY package presents every block (R379). -/
theorem presents_of_ready {s : State} (h : s.ready = true) (off : Nat) : s.presents off = true := by
  simp only [State.ready, Bool.and_eq_true] at h
  obtain ⟨⟨⟨hstart, -⟩, -⟩, -⟩ := h
  simp [State.presents, hstart]

/-- Reading a register changes nothing but the count of free values. -/
theorem readFull_snd (s : State) (fn off : Nat) : ∃ f, (s.readFull fn off).2 = { s with free := f } := by
  unfold State.readFull State.draw
  dsimp only
  repeat' split
  all_goals exact ⟨_, rfl⟩

/-! ### A 64-bit register in two halves -/

/-- A function reaches a 64-bit register of its BAR0 in a READY package. -/
structure WideOpen (s : State) (fn : Nat) (ide : Bool) (off : Nat) : Prop where
  powered : Powered s
  fn_lt : fn < 17
  reach : s.reach fn ide = .ok
  ready : s.ready = true
  inBar : off + 8 ≤ bar0Size fn
  aligned : off % 8 = 0
  wide : wideAt fn off = true
  upper : wideAt fn (off + 4) = false

section
variable {s : State} {fn off : Nat} {ide : Bool}

theorem WideOpen.lower (h : WideOpen s fn ide off) : off < bar0Size fn ∧ badAccess fn off 4 = false := by
  obtain ⟨_, _, _, _, hb, ha, _, _⟩ := h
  exact ⟨by omega, badAccess_four (by omega)⟩

theorem WideOpen.upperHalf (h : WideOpen s fn ide off) : off + 4 < bar0Size fn ∧ badAccess fn (off + 4) 4 = false := by
  obtain ⟨_, _, _, _, hb, ha, _, _⟩ := h
  exact ⟨by omega, badAccess_four (by omega)⟩

theorem readBar0_lower (h : WideOpen s fn ide off) : ∃ f, s.readBar0 fn off 4 =
    ({ s with
      free := f
      halves := upd s.halves (2 ^ 26 * fn + off) (fun k => { k with rd := some (BitVec.ofNat 32 ((s.readFull fn off).1 / 2 ^ 32)) }) }).toHost (.read fn off (BitVec.ofNat 64 ((s.readFull fn off).1 % 2 ^ 32))) := by
  obtain ⟨hb, hgood⟩ := h.lower
  obtain ⟨f, hf⟩ := readFull_snd s fn off
  exact ⟨f, by simp [State.readBar0, hgood, Nat.not_le.2 hb, presents_of_ready h.ready, h.wide, hf]⟩

theorem readBar0_upper_latched (h : WideOpen s fn ide off) {x : BitVec 32} (hx : (s.half fn off).rd = some x) : s.readBar0 fn (off + 4) 4 =
    ({ s with halves := upd s.halves (2 ^ 26 * fn + off) (fun k => { k with rd := none }) }).toHost (.read fn (off + 4) (x.setWidth 64)) := by
  obtain ⟨hb, hgood⟩ := h.upperHalf
  unfold State.half at hx
  simp [-Nat.reducePow, State.readBar0, hgood, Nat.not_le.2 hb, presents_of_ready h.ready, h.upper, h.wide, ← Nat.add_assoc, hx]

theorem readBar0_upper_unlatched (h : WideOpen s fn ide off) (hx : (s.half fn off).rd = none) : ∃ f, s.readBar0 fn (off + 4) 4 =
    ({ s with free := f }).toHost (.read fn (off + 4) (BitVec.ofNat 64 ((s.readFull fn off).1 / 2 ^ 32))) := by
  obtain ⟨hb, hgood⟩ := h.upperHalf
  obtain ⟨f, hf⟩ := readFull_snd s fn off
  unfold State.half at hx
  exact ⟨f, by simp [-Nat.reducePow, State.readBar0, hgood, Nat.not_le.2 hb, presents_of_ready h.ready, h.upper, h.wide, ← Nat.add_assoc, hx, hf]⟩

theorem writeBar0_lower (h : WideOpen s fn ide off) (x : BitVec 32) : s.writeBar0 fn off 4 x.toNat =
    { s with halves := upd s.halves (2 ^ 26 * fn + off) (fun k => { k with wr := some x }) } := by
  obtain ⟨hb, hgood⟩ := h.lower
  simp [State.writeBar0, hgood, Nat.not_le.2 hb, presents_of_ready h.ready, h.wide]

/-- The lower half that goes with an upper one: what waits, or what the register holds (R11). -/
def State.lowFor (s : State) (fn off : Nat) : Nat := ((s.half fn off).wr.map BitVec.toNat).getD (s.heldLow fn off)

theorem writeBar0_upper (h : WideOpen s fn ide off) (x : BitVec 32) : s.writeBar0 fn (off + 4) 4 (x.setWidth 64).toNat =
    ({ s with halves := upd s.halves (2 ^ 26 * fn + off) (fun k => { k with wr := none }) }).writeFull fn off
      (s.lowFor fn off + x.toNat * 2 ^ 32) := by
  obtain ⟨hb, hgood⟩ := h.upperHalf
  have hx : (x.setWidth 64).toNat % 2 ^ 32 = x.toNat := by simp; omega
  unfold State.lowFor State.half
  cases hwr : (at' s.halves (2 ^ 26 * fn + off)).wr <;>
    simp [-Nat.reducePow, -BitVec.toNat_setWidth, State.writeBar0, hgood, Nat.not_le.2 hb, presents_of_ready h.ready, h.upper, h.wide,
      ← Nat.add_assoc, hx, hwr]

end

/-- Taking out a lower half that does not wait changes nothing. -/
theorem upd_wr_none {m : Table Half} {k : Nat} (hw : Table.wf (fun _ => default) m = true) (h : (at' m k).wr = none) :
    upd m k (fun e => { e with wr := none }) = m := by
  have hsame : ({ at' m k with wr := none } : Half) = at' m k := by rw [← h]
  exact (congrArg (Table.put _ m k) hsame).trans (Table.put_get hw k)

/-! ### The lower half of a register under a write of the upper half -/

/-- No bit of a register is both replaced and cleared by writing one. -/
theorem regTable_disjoint : ∀ r ∈ regTable, r.rwP &&& r.w1P = 0 ∧ r.rwV &&& r.w1V = 0 := by decide +kernel

theorem regInfo_disjoint {off : Nat} {r : RegInfo} (h : regInfo off = some r) (fn : Nat) :
    BitVec.ofNat 64 (if fn = 0 then r.rwP else r.rwV) &&& BitVec.ofNat 64 (if fn = 0 then r.w1P else r.w1V) = 0 := by
  obtain ⟨hp, hv⟩ := regTable_disjoint r (List.mem_of_find?_eq_some h)
  split <;> simp [← BitVec.ofNat_and, hp, hv]

/-- Bits written as they read, but for those written as zero where a one would clear them, keep their value. -/
theorem storedBits_low {o x rw w1 : BitVec 64} (hd : rw &&& w1 = 0) (hx : x.setWidth 32 = (o &&& ~~~w1).setWidth 32) :
    (((o &&& ~~~rw) ||| (x &&& rw)) &&& ~~~(x &&& w1)).setWidth 32 = o.setWidth 32 := by
  ext k hk
  have hdk := congrArg (fun b => b.getLsbD k) hd
  have hxk := congrArg (fun b => b.getLsbD k) hx
  have hk64 : k < 64 := by omega
  simp only [BitVec.getLsbD_and, BitVec.getLsbD_setWidth, BitVec.getLsbD_not, hk, hk64, BitVec.getLsbD_zero, BitVec.ofNat_eq_ofNat] at hdk hxk
  simp only [BitVec.getElem_setWidth, BitVec.getLsbD_and, BitVec.getLsbD_or, BitVec.getLsbD_not, hk64]
  revert hdk hxk
  cases o.getLsbD k <;> cases rw.getLsbD k <;> cases w1.getLsbD k <;> cases x.getLsbD k <;> decide

section
variable {s : State} {fn off i : Nat} {ide : Bool} {r : RegInfo}

/-- A register written whole with the lower half that `heldLow` keeps has the lower half that it had (R11). -/
theorem store_heldLow (hrt : isRoute fn off = false) (hinfo : regInfo off = some r) (hi : s.copyIdx fn r.scope = some i) (x : Nat) :
    (s.store fn i off r (s.heldLow fn off + x * 2 ^ 32)).reg off i % 2 ^ 32 = s.reg off i % 2 ^ 32 := by
  have hlow : (BitVec.ofNat 64 (s.heldLow fn off + x * 2 ^ 32)).setWidth 32 =
      (BitVec.ofNat 64 (s.reg off i) &&& ~~~BitVec.ofNat 64 (if fn = 0 then r.w1P else r.w1V)).setWidth 32 := by
    apply BitVec.eq_of_toNat_eq
    simp only [State.heldLow, hrt, hinfo, hi, BitVec.toNat_setWidth, BitVec.toNat_ofNat, Bool.false_eq_true, if_false]
    omega
  have h := congrArg BitVec.toNat ((congrArg (BitVec.setWidth 32) store_reg_self).trans (storedBits_low (regInfo_disjoint hinfo fn) hlow))
  simp only [BitVec.toNat_setWidth, BitVec.toNat_ofNat] at h
  omega

end

/-! ### TOP_TS_HOST (R401) -/

theorem writeFull_topTsHost (s : State) (fn v : Nat) : s.writeFull fn rTOP_TS_HOST v = s.tsWrite fn v := by
  have hinfo : regInfo rTOP_TS_HOST =
      some { off := rTOP_TS_HOST, wide := true, scope := .fn, rwP := 0xFFFFFFFFFFFFFFFF, rwV := 0xFFFFFFFFFFFFFFFF } := by decide
  have hrt : isRoute fn rTOP_TS_HOST = false := by simp [isRoute, rROUTES, rTOP_TS_HOST]
  have hcmd : regCmds.find? (fun e => e.1 == rTOP_TS_HOST) = none := by decide
  have hspec : regWrites.find? (fun e => e.1 == rTOP_TS_HOST) = some (rTOP_TS_HOST, fun s fn _ _ v => s.tsWrite fn v) := rfl
  simp [State.writeFull, hrt, hinfo, hcmd, hspec, RegInfo.inFn, State.copyIdx]

section
variable {s : State} {fn off i v : Nat} {ide : Bool} {r : RegInfo}

theorem tsWrite_host (hfn : fn < 17) (hv : v < 2 ^ 64) : (s.tsWrite fn v).reg rTOP_TS_HOST fn = v := by
  rw [State.tsWrite, State.setReg_reg_of_ne _ _ (regKey_ne (by decide) (by omega) (by omega)), State.setReg_reg_self, Nat.mod_eq_of_lt hv]

theorem tsWrite_dev : (s.tsWrite fn v).reg rTOP_TS_DEV fn = s.now := by
  rw [State.tsWrite, State.setReg_reg_self]
  exact Nat.mod_eq_of_lt (BitVec.isLt _)

theorem onlyRegisters_tsWrite (hfn : fn < 17) : OnlyRegisters [(rTOP_TS_HOST, fn), (rTOP_TS_DEV, fn)] s (s.tsWrite fn v) :=
  OnlyRegs.onlyRegisters (by simp; omega) ((onlyRegs_setReg ..).trans (onlyRegs_setReg ..))

theorem completes_topTsHostWrite {v : BitVec 64} {Q : State → Prop} (hp : Powered s) (hfn : fn < 17) (hr : s.reach fn ide = .ok)
    (hs : s.presents rTOP_TS_HOST = true) (hQ : Q (finish s (s.tsWrite fn v.toNat))) : Completes (.topTsHostWrite fn ide v) s Q := by
  refine completes_onBar (eff := fun s => if s.presents rTOP_TS_HOST then s.writeFull fn rTOP_TS_HOST v.toNat else s) rfl rfl hp hfn hr ?_
  rwa [if_pos hs, writeFull_topTsHost]

/-- TOP_TS_HOST written whole is stored, with the counter latched beside it. -/
theorem topTsHostWrite_latches {v : BitVec 64} (hp : Powered s) (hfn : fn < 17) (hr : s.reach fn ide = .ok) (hs : s.presents rTOP_TS_HOST = true) :
    Completes (.topTsHostWrite fn ide v) s (fun t =>
      t.reg rTOP_TS_HOST fn = v.toNat ∧ t.reg rTOP_TS_DEV fn = s.nap.counter.toNat ∧ OnlyRegisters [(rTOP_TS_HOST, fn), (rTOP_TS_DEV, fn)] s t) := by
  refine completes_topTsHostWrite hp hfn hr hs ⟨?_, ?_, onlyRegisters_finish (onlyRegisters_tsWrite hfn)⟩
  · rw [finish_reg, tsWrite_host hfn v.isLt]
  · rw [finish_reg, tsWrite_dev]; rfl

/-! ### The accesses of R11 -/

theorem WideOpen.finish (h : WideOpen s fn ide off) {t : State} (hp : t.nap = s.nap) (hr : t.reach fn ide = s.reach fn ide) (hrd : t.ready = s.ready) :
    WideOpen (finish s t) fn ide off :=
  { h with
    powered := by have := h.powered; simpa [Powered, hp] using this
    reach := by rw [finish_reach, hr, h.reach]
    ready := by rw [finish_ready, hrd, h.ready] }

/-- A read of the lower half returns it and latches the upper half. -/
theorem lowerHalfRead_latches (h : WideOpen s fn ide off) : Completes (.lowerHalfRead fn ide off) s (fun t =>
    Answers s t (.read fn off (BitVec.ofNat 64 ((s.readFull fn off).1 % 2 ^ 32))) ∧
    (t.half fn off).rd = some (BitVec.ofNat 32 ((s.readFull fn off).1 / 2 ^ 32)) ∧ t.regs = s.regs ∧ WideOpen t fn ide off) := by
  obtain ⟨f, hread⟩ := readBar0_lower h
  refine completes_lowerHalfRead h.powered h.fn_lt h.reach ?_
  rw [hread]
  exact ⟨answers_finish ⟨[], rfl⟩, by simp [State.half], by simp, h.finish rfl rfl rfl⟩

/-- A read of the upper half returns what is latched, once. -/
theorem upperHalfRead_latched (h : WideOpen s fn ide off) {x : BitVec 32} (hx : (s.half fn off).rd = some x) :
    Completes (.lowerHalfRead fn ide (off + 4)) s (fun t =>
      Answers s t (.read fn (off + 4) (x.setWidth 64)) ∧ (t.half fn off).rd = none ∧ t.regs = s.regs) := by
  refine completes_lowerHalfRead h.powered h.fn_lt h.reach ?_
  rw [readBar0_upper_latched h hx]
  exact ⟨answers_finish ⟨[], rfl⟩, by simp [State.half], by simp⟩

/-- A read of the upper half with nothing latched reads the register. -/
theorem upperHalfRead_unlatched (h : WideOpen s fn ide off) (hx : (s.half fn off).rd = none) :
    Completes (.lowerHalfRead fn ide (off + 4)) s (fun t =>
      Answers s t (.read fn (off + 4) (BitVec.ofNat 64 ((s.readFull fn off).1 / 2 ^ 32))) ∧ t.halves = s.halves ∧ t.regs = s.regs) := by
  obtain ⟨f, hread⟩ := readBar0_upper_unlatched h hx
  refine completes_lowerHalfRead h.powered h.fn_lt h.reach ?_
  rw [hread]
  exact ⟨answers_finish ⟨[], rfl⟩, by simp, by simp⟩

/-- A write of the lower half waits. -/
theorem lowerHalfWrite_waits (h : WideOpen s fn ide off) (lo : BitVec 32) : Completes (.lowerHalfWrite fn ide off lo) s (fun t =>
    (t.half fn off).wr = some lo ∧ t.regs = s.regs ∧ WideOpen t fn ide off) := by
  refine completes_lowerHalfWrite h.powered h.fn_lt h.reach ?_
  rw [writeBar0_lower h]
  exact ⟨by simp [State.half], by simp, h.finish rfl rfl rfl⟩

/-- The upper half of TOP_TS_HOST stores it with the lower half that waits, and latches the counter. -/
theorem upperHalfWrite_topTsHost (h : WideOpen s fn ide rTOP_TS_HOST) {lo : BitVec 32} (x : BitVec 32) (hlo : (s.half fn rTOP_TS_HOST).wr = some lo) :
    Completes (.registerWrite fn ide (rTOP_TS_HOST + 4) 4 (x.setWidth 64)) s (fun t =>
      t.reg rTOP_TS_HOST fn = lo.toNat + x.toNat * 2 ^ 32 ∧ t.reg rTOP_TS_DEV fn = s.now) := by
  refine completes_registerWrite h.powered h.fn_lt h.reach ?_
  have hlow : s.lowFor fn rTOP_TS_HOST = lo.toNat := by simp [State.lowFor, hlo]
  rw [writeBar0_upper h, writeFull_topTsHost, hlow]
  refine ⟨?_, ?_⟩
  · rw [finish_reg, tsWrite_host h.fn_lt (by omega)]
  · rw [finish_reg, tsWrite_dev]; rfl

/-- A write of a register in which the function may write no bit has no effect. -/
theorem writeFull_readOnly {v : Nat} (hrt : isRoute fn off = false) (hinfo : regInfo off = some r) (hcmd : regCmds.find? (fun e => e.1 == r.off) = none)
    (hspec : regWrites.find? (fun e => e.1 == r.off) = none) (hm : r.mask fn = 0) : s.writeFull fn off v = s := by
  have halert : r.off ≠ rTOP_ALERT_SUMMARY := fun he => by rw [he] at hspec; exact absurd hspec (by decide)
  unfold RegInfo.mask at hm
  simp [State.writeFull, hrt, hinfo, hcmd, hm, halert]

/-- The upper half written alone keeps the lower half that the register holds, where the table of halves is in canonical form. -/
theorem upperHalfWrite_keepsLower (h : WideOpen s fn ide off) (x : BitVec 32) (hcanon : Table.wf (fun _ => default) s.halves = true)
    (hrt : isRoute fn off = false) (hinfo : regInfo off = some r) (hin : r.inFn fn = true) (hwr : (s.half fn off).wr = none)
    (hi : s.copyIdx fn r.scope = some i) (hlt : i < 8192) (hcmd : regCmds.find? (fun e => e.1 == r.off) = none)
    (hspec : regWrites.find? (fun e => e.1 == r.off) = none) :
    Completes (.registerWrite fn ide (off + 4) 4 (x.setWidth 64)) s (fun t =>
      t.reg off i % 2 ^ 32 = s.reg off i % 2 ^ 32 ∧ OnlyRegisters [(off, i)] s t) := by
  refine completes_registerWrite h.powered h.fn_lt h.reach ?_
  have hsame : { s with halves := upd s.halves (2 ^ 26 * fn + off) (fun k => { k with wr := none }) } = s := by rw [upd_wr_none hcanon hwr]
  have hlow : s.lowFor fn off = s.heldLow fn off := by simp [State.lowFor, hwr]
  rw [writeBar0_upper h, hsame, hlow]
  by_cases hm : r.mask fn = 0
  · rw [writeFull_readOnly hrt hinfo hcmd hspec hm]
    exact ⟨by rw [finish_reg], onlyRegisters_finish (OnlyRegs.onlyRegisters (by simpa using hlt) (OnlyRegs.refl ..))⟩
  · rw [writeFull_store hrt hinfo hin hcmd hspec hi hm]
    exact ⟨by rw [finish_reg, store_heldLow hrt hinfo hi], onlyRegisters_finish (OnlyRegs.onlyRegisters (by simpa using hlt) (onlyRegs_store ..))⟩

end

/-! ### A table of halves that is not in canonical form -/

theorem regInfo_blkAddr : regInfo rHOOD_BLK_ADDR =
    some { off := rHOOD_BLK_ADDR, wide := true, scope := .pkg, vf := false, rwP := 0xFFFFFFFFFFFFFFC0 } := by decide

/-- A READY package whose table of halves lists the halves of HOOD_BLK_ADDR of the PF though neither is held: the entry reads as an
unlisted one does, and `upd` lists no such entry. -/
def idleHalfListed : State :=
  { State.reset with nap := { State.reset.nap with pgood := true }, halves := [(rHOOD_BLK_ADDR, {})] }.setReg rTOP_START_STATE 0 4

theorem idleHalfListed_wideOpen : WideOpen idleHalfListed 0 false rHOOD_BLK_ADDR where
  powered := rfl
  fn_lt := by decide
  reach := by decide
  ready := by decide
  inBar := by decide
  aligned := by decide
  wide := by decide
  upper := by decide

/-- The upper half of HOOD_BLK_ADDR, written alone, takes that entry out of the table. -/
theorem idleHalfListed_upperWrite (hi : BitVec 32) :
    Completes (.registerWrite 0 false (rHOOD_BLK_ADDR + 4) 4 (hi.setWidth 64)) idleHalfListed (fun t => t.halves = []) := by
  obtain ⟨hp, hfn, hr, _, _, _, _, _⟩ := idleHalfListed_wideOpen
  refine completes_registerWrite hp hfn hr ?_
  rw [finish_halves, writeBar0_upper idleHalfListed_wideOpen,
    writeFull_store (by decide) regInfo_blkAddr rfl (by decide) (by decide) rfl (by decide)]
  rfl

/-- Refutes O5: a register write is said to leave every field but registers and outputs as it was, in every state. In `idleHalfListed` the table of
halves is not in canonical form, and the write of an upper half alone puts it in that form. This is the one clause that fails, and it holds of
every state whose table of halves is in canonical form (`upperHalfWrite_keepsLower`). The others hold of every state:
`lowerHalfRead_latches`, `upperHalfRead_latched`, `lowerHalfWrite_waits`, `upperHalfWrite_topTsHost`, `upperHalfRead_unlatched` and
`topTsHostWrite_latches`. -/
theorem not_registerHalvesAndTimestamp : ¬ Obligations.RegisterHalvesAndTimestamp := by
  unfold Obligations.RegisterHalvesAndTimestamp
  intro ⟨hhalves, _⟩
  obtain ⟨hp, hfn, hr, hready, hbar, halign, -, hupper⟩ := idleHalfListed_wideOpen
  obtain ⟨-, -, -, -, halone⟩ :=
    hhalves idleHalfListed 0 rHOOD_BLK_ADDR false 0 0 _ hp hfn hr hready hbar halign (by decide) regInfo_blkAddr rfl rfl hupper
  obtain ⟨t, ht, -, honly, -⟩ := halone 0 (by decide) rfl (by decide) (by decide) (by decide)
  obtain ⟨u, hu, hempty⟩ := idleHalfListed_upperWrite 0
  have htu : t = u := by injection ht.symm.trans hu
  have hkept : t.halves = [(rHOOD_BLK_ADDR, {})] := by rw [honly]; rfl
  rw [htu, hempty] at hkept
  cases hkept

end Sys2Proof.Machine
end

section
/-!
PROOFS. The WA112 element and its window: products truncated at an anchor (R40, R43) and merges (R44).
-/
namespace Sys2Proof.Machine

/-! ### The fields of an element (R36) -/

theorem mkElem_toNat (fl : EFlags) (a : Nat) (w : Int) :
    (mkElem fl a w).toNat = fl.toNat * 2 ^ 122 + a % 1024 * 2 ^ 112 + (w % 2 ^ (112 : Nat)).toNat := by
  have hfl : fl.toNat < 2 ^ 6 := fl.isLt
  unfold mkElem
  rw [BitVec.toNat_ofNat, Nat.mod_eq_of_lt]
  omega

@[simp] theorem mkElem_flags (fl : EFlags) (a : Nat) (w : Int) : (mkElem fl a w).flags = fl := by
  apply BitVec.eq_of_toNat_eq
  have hfl : fl.toNat < 2 ^ 6 := fl.isLt
  rw [Elem.flags, mkElem_toNat, bits, Nat.shiftRight_eq_div_pow, BitVec.toNat_ofNat]
  omega

theorem mkElem_anchor (fl : EFlags) (a : Nat) (w : Int) : (mkElem fl a w).anchor = a % 1024 := by
  rw [Elem.anchor, mkElem_toNat, bits, Nat.shiftRight_eq_div_pow]
  omega

/-- The window field is the window modulo 2^112. -/
theorem mkElem_window (fl : EFlags) (a : Nat) (w : Int) : bits (mkElem fl a w).toNat 0 112 = (w % 2 ^ (112 : Nat)).toNat := by
  rw [mkElem_toNat, bits, Nat.shiftRight_zero]
  omega

theorem Elem.anchor_lt (x : Elem) : x.anchor < 1024 := Nat.mod_lt _ (by decide)

/-- An anchor that an element carries goes unchanged into another. -/
@[simp] theorem mkElem_anchor_of_elem (fl : EFlags) (x : Elem) (w : Int) : (mkElem fl x.anchor w).anchor = x.anchor := by
  rw [mkElem_anchor, Nat.mod_eq_of_lt x.anchor_lt]

/-- The signed window and its field agree modulo 2^112. -/
theorem Elem.win_emod (x : Elem) : x.win % 2 ^ (112 : Nat) = (bits x.toNat 0 112 : Nat) := by
  have hlt : bits x.toNat 0 112 < 2 ^ 112 := Nat.mod_lt _ (by decide)
  unfold Elem.win toSigned
  split <;> omega

@[simp] theorem mkElem_win_emod (fl : EFlags) (a : Nat) (w : Int) : (mkElem fl a w).win % 2 ^ (112 : Nat) = w % 2 ^ (112 : Nat) := by
  rw [Elem.win_emod, mkElem_window]
  omega

theorem mkElem_win {w : Int} (fl : EFlags) (a : Nat) (hlo : -(2 ^ 111) ≤ w) (hhi : w < 2 ^ 111) : (mkElem fl a w).win = w := by
  unfold Elem.win toSigned
  rw [mkElem_window]
  split <;> omega

theorem mkElem_lam {lam : Int} (fl : EFlags) (w : Int) (hlo : -512 ≤ lam) (hhi : lam < 512) :
    (mkElem fl (anchorOf lam) w).lam = lam := by
  rw [Elem.lam, mkElem_anchor, anchorOf]
  omega

/-- Windows that agree modulo 2^112 make the same element. -/
theorem mkElem_congr {w v : Int} (fl : EFlags) (a : Nat) (h : w % 2 ^ (112 : Nat) = v % 2 ^ (112 : Nat)) : mkElem fl a w = mkElem fl a v := by
  rw [mkElem, h, mkElem]

/-! ### A product under an anchor (R40) -/

/-- The whole units of 2^λ that a product adds to a window. -/
def wholeUnits (lam : Int) (p : Opnd × Opnd) : Int :=
  if lam ≤ prodExp p then prodInt p * 2 ^ (prodExp p - lam).toNat else prodInt p / 2 ^ (lam - prodExp p).toNat

/-- What truncation takes from a product, in units of 2^(−k). -/
def lostUnits (lam k : Int) (p : Opnd × Opnd) : Int :=
  if lam ≤ prodExp p then 0 else prodInt p % 2 ^ (lam - prodExp p).toNat * 2 ^ (prodExp p + k).toNat

/-- A product of plain operands adds its whole units, and sets STK exactly when it is truncated. -/
theorem macStep_plain {lam : Int} {p : Opnd × Opnd} (w : Int) (fl : EFlags) (h : plainPair p = true) :
    macStep lam (w, fl) p.1 p.2 = (w + wholeUnits lam p, fl ||| eflagIf (truncatedAt lam p) eStk) := by
  obtain ⟨⟨av, as, an, ao, ap⟩, ⟨bv, bs, bn, bo, bp⟩⟩ := p
  simp only [plainPair, Bool.and_eq_true, Bool.not_eq_true'] at h
  obtain ⟨⟨⟨⟨⟨⟨rfl, rfl⟩, rfl⟩, rfl⟩, rfl⟩, rfl⟩, hv⟩ := h
  cases av <;> cases bv <;> simp only [Bool.false_eq_true] at hv
  next s m e t n g =>
  by_cases hz : m * n = 0
  · rcases Nat.mul_eq_zero.1 hz with rfl | rfl <;>
      simp [macStep, isNan, eflagIf, wholeUnits, truncatedAt, prodInt]
  · have hz' : ¬(m = 0 ∨ n = 0) := by rwa [← Nat.mul_eq_zero]
    by_cases hle : lam ≤ e + g + as + bs
    · have hlt : ¬ e + g + as + bs < lam := by omega
      simp [macStep, isNan, eflagIf, wholeUnits, truncatedAt, prodInt, prodExp, hz', hle, hlt]
    · have hlt : e + g + as + bs < lam := by omega
      have hneg : -(e + g + as + bs - lam) = lam - (e + g + as + bs) := by omega
      simp [macStep, isNan, eflagIf, wholeUnits, truncatedAt, prodInt, prodExp, hz', hle, hlt, hneg]

/-- A list of plain products adds the whole units of each, and sets STK exactly when one of them is truncated. -/
theorem macAll_plain {lam : Int} {l : List (Opnd × Opnd)} (w : Int) (fl : EFlags) (h : ∀ p ∈ l, plainPair p = true) :
    macAll lam (w, fl) l = (w + (l.map (wholeUnits lam)).sum, fl ||| eflagIf (l.any (truncatedAt lam)) eStk) := by
  induction l generalizing w fl with
  | nil => simp [macAll, eflagIf]
  | cons p l ih =>
    obtain ⟨hp, hl⟩ := List.forall_mem_cons.1 h
    have hstep : macAll lam (w, fl) (p :: l) = macAll lam (macStep lam (w, fl) p.1 p.2) l := rfl
    have hstk : ∀ a b : Bool, fl ||| eflagIf a eStk ||| eflagIf b eStk = fl ||| eflagIf (a || b) eStk := by
      rintro (_ | _) (_ | _) <;> simp [eflagIf, BitVec.or_assoc]
    rw [hstep, macStep_plain w fl hp, ih _ _ hl, hstk, List.map_cons, List.sum_cons, List.any_cons, Int.add_assoc]

/-- In units of 2^(−k), a product is its whole units of 2^λ and what truncation takes from it. -/
theorem prodInt_eq_whole_add_lost {lam k : Int} {p : Opnd × Opnd} (hlam : 0 ≤ lam + k) (hp : 0 ≤ prodExp p + k) :
    prodInt p * 2 ^ (prodExp p + k).toNat = wholeUnits lam p * 2 ^ (lam + k).toNat + lostUnits lam k p := by
  unfold wholeUnits lostUnits
  split
  · rw [show (prodExp p + k).toNat = (prodExp p - lam).toNat + (lam + k).toNat by omega, pow_add, ← mul_assoc, add_zero]
  · rw [show (lam + k).toNat = (lam - prodExp p).toNat + (prodExp p + k).toNat by omega, pow_add, ← mul_assoc, ← add_mul,
      mul_comm (prodInt p / _), Int.mul_ediv_add_emod]

/-- A truncated product loses something, and less than one unit of 2^λ. -/
theorem lostUnits_of_truncated {lam k : Int} {p : Opnd × Opnd} (hp : 0 ≤ prodExp p + k) (h : truncatedAt lam p = true) :
    0 ≤ lostUnits lam k p ∧ lostUnits lam k p < 2 ^ (lam + k).toNat := by
  simp only [truncatedAt, Bool.and_eq_true, decide_eq_true_eq] at h
  have hd : (0 : Int) < 2 ^ (lam - prodExp p).toNat := by positivity
  have hu : (0 : Int) < 2 ^ (prodExp p + k).toNat := by positivity
  rw [lostUnits, if_neg (by omega)]
  refine ⟨mul_nonneg (Int.emod_nonneg _ hd.ne') hu.le, ?_⟩
  rw [show (lam + k).toNat = (lam - prodExp p).toNat + (prodExp p + k).toNat by omega, pow_add]
  exact mul_lt_mul_of_pos_right (Int.emod_lt_of_pos _ hd) hu

/-- A product that is not truncated loses nothing. -/
theorem lostUnits_of_not_truncated {lam : Int} (k : Int) {p : Opnd × Opnd} (h : truncatedAt lam p = false) : lostUnits lam k p = 0 := by
  unfold lostUnits
  split
  · rfl
  · next hlam =>
    have hlt : prodExp p < lam := by omega
    simp only [truncatedAt, hlt, decide_true, Bool.true_and, bne_eq_false_iff_eq] at h
    rw [h, zero_mul]

/-! ### The error of a reduction (R43) -/

section
variable {lam k : Int} {l : List (Opnd × Opnd)}

/-- The exact sum is the window's worth and what truncation has taken in all. -/
theorem exactSum_eq_whole_add_lost (hlam : 0 ≤ lam + k) (hl : ∀ p ∈ l, 0 ≤ prodExp p + k) :
    exactSum k l = (l.map (wholeUnits lam)).sum * 2 ^ (lam + k).toNat + (l.map (lostUnits lam k)).sum := by
  have hsum : exactSum k l = (l.map (fun p => prodInt p * 2 ^ (prodExp p + k).toNat)).sum := by
    rw [List.sum_eq_foldl, List.foldl_map]; rfl
  rw [hsum]
  clear hsum
  induction l with
  | nil => simp
  | cons p l ih =>
    obtain ⟨hp, hl⟩ := List.forall_mem_cons.1 hl
    rw [List.map_cons, List.map_cons, List.map_cons, List.sum_cons, List.sum_cons, List.sum_cons, ih hl, prodInt_eq_whole_add_lost hlam hp]
    ring

/-- `n` truncated products lose less than `n` units of 2^λ. -/
theorem lost_sum_bounds (hl : ∀ p ∈ l, 0 ≤ prodExp p + k) :
    0 ≤ (l.map (lostUnits lam k)).sum ∧
    ((l.filter (truncatedAt lam)).length = 0 → (l.map (lostUnits lam k)).sum = 0) ∧
    ((l.filter (truncatedAt lam)).length ≠ 0 →
      (l.map (lostUnits lam k)).sum < ((l.filter (truncatedAt lam)).length : Int) * 2 ^ (lam + k).toNat) := by
  induction l with
  | nil => simp
  | cons p l ih =>
    obtain ⟨hp, hl⟩ := List.forall_mem_cons.1 hl
    obtain ⟨hnonneg, hzero, hlt⟩ := ih hl
    rw [List.map_cons, List.sum_cons]
    cases ht : truncatedAt lam p with
    | false =>
      rw [List.filter_cons_of_neg (by simp [ht]), lostUnits_of_not_truncated k ht, zero_add]
      exact ⟨hnonneg, hzero, hlt⟩
    | true =>
      obtain ⟨hp0, hpu⟩ := lostUnits_of_truncated hp ht
      rw [List.filter_cons_of_pos ht, List.length_cons]
      refine ⟨by omega, fun h => absurd h (Nat.succ_ne_zero _), fun _ => ?_⟩
      rw [Nat.cast_succ, add_mul, one_mul]
      by_cases h0 : (l.filter (truncatedAt lam)).length = 0
      · rw [hzero h0, h0]; simpa using hpu
      · have := hlt h0; omega

end

/-! ### Merges (R44) -/

theorem mergeEl_of_eq {x y : Elem} (h : x.anchor = y.anchor) : mergeEl x y = mkElem (x.flags ||| y.flags) x.anchor (x.win + y.win) := by
  simp [mergeEl, h]

/-- With different anchors the smaller one's window is shifted down to the larger. -/
theorem mergeEl_of_lt {x y : Elem} (h : x.anchor < y.anchor) : mergeEl x y =
    mkElem (x.flags ||| y.flags ||| eflagIf (x.win % 2 ^ (y.anchor - x.anchor) != 0) eStk) y.anchor (y.win + x.win / 2 ^ (y.anchor - x.anchor)) := by
  simp [mergeEl, h, h.ne]

theorem mergeEl_comm (x y : Elem) : mergeEl x y = mergeEl y x := by
  have hgt : ∀ x y : Elem, x.anchor < y.anchor → mergeEl y x = mergeEl x y := fun x y h => by
    rw [mergeEl_of_lt h]
    simp [mergeEl, h.ne', h.not_gt, BitVec.or_comm y.flags]
  rcases Nat.lt_trichotomy x.anchor y.anchor with h | h | h
  · exact (hgt x y h).symm
  · rw [mergeEl_of_eq h, mergeEl_of_eq h.symm, h, BitVec.or_comm, Int.add_comm]
  · exact hgt y x h

/-- Merges at one anchor associate: windows add modulo 2^112. -/
theorem mergeEl_assoc {x y z : Elem} (hxy : x.anchor = y.anchor) (hyz : y.anchor = z.anchor) :
    mergeEl (mergeEl x y) z = mergeEl x (mergeEl y z) := by
  have hl : (mergeEl x y).anchor = z.anchor := by rw [mergeEl_of_eq hxy, mkElem_anchor_of_elem, hxy, hyz]
  have hr : x.anchor = (mergeEl y z).anchor := by rw [mergeEl_of_eq hyz, mkElem_anchor_of_elem, hxy]
  rw [mergeEl_of_eq hl, mergeEl_of_eq hr, mergeEl_of_eq hxy, mergeEl_of_eq hyz]
  simp only [mkElem_flags, mkElem_anchor_of_elem, BitVec.or_assoc]
  apply mkElem_congr
  rw [Int.add_emod, mkElem_win_emod, ← Int.add_emod, Int.add_emod x.win, mkElem_win_emod, ← Int.add_emod, Int.add_assoc]

theorem mergeEl_window_of_eq {x y : Elem} (h : x.anchor = y.anchor) :
    bits (mergeEl x y).toNat 0 112 = (bits x.toNat 0 112 + bits y.toNat 0 112) % 2 ^ 112 := by
  rw [mergeEl_of_eq h, mkElem_window, Int.add_emod, Elem.win_emod, Elem.win_emod]
  omega

/-- Settles O59: a window and what truncation took make up the exact sum, term by term; merges come down to `mergeEl_of_eq` and `mergeEl_of_lt`. -/
theorem reductionErrorBound : Obligations.ReductionErrorBound := by
  unfold Obligations.ReductionErrorBound
  refine ⟨fun lam k l hlam hl => ?_, fun x y z hxy => ?_, fun x y hlt => ?_⟩
  · have hplain := fun p hp => (hl p hp).1
    have hexp := fun p hp => (hl p hp).2
    obtain ⟨hnonneg, hzero, hless⟩ := lost_sum_bounds (lam := lam) hexp
    rw [macAll_plain 0 0 hplain, exactSum_eq_whole_add_lost hlam hexp, zero_add]
    have hany : l.any (truncatedAt lam) = decide ((l.filter (truncatedAt lam)).length ≠ 0) := by
      rw [Bool.eq_iff_iff]; simp
    rw [hany]
    generalize (l.filter (truncatedAt lam)).length = n at *
    dsimp only
    refine ⟨by omega, fun hn => ?_, fun hfl => ?_, fun hn => ?_, fun hn => ?_, fun hlo hhi hllo hlhi => ?_⟩
    · have := hless (by omega)
      rw [add_mul]
      omega
    · by_cases hn : n = 0
      · exact ⟨by omega, by rw [hzero hn, add_zero]⟩
      · simp [eflagIf, hn, eStk] at hfl
    · simp [eflagIf, show n = 0 by omega]
    · simp [eflagIf, show n ≠ 0 by omega]
    · exact ⟨mkElem_win _ _ hlo hhi, mkElem_lam _ _ hllo hlhi, mkElem_flags ..⟩
  · refine ⟨?_, ?_, mergeEl_window_of_eq hxy, mergeEl_comm x y, mergeEl_assoc hxy⟩
    · rw [mergeEl_of_eq hxy, mkElem_flags]
    · rw [mergeEl_of_eq hxy, mkElem_anchor_of_elem]
  · refine ⟨?_, mergeEl_comm x y, ?_, ?_⟩
    · rw [mergeEl_of_lt hlt, mkElem_anchor_of_elem]
    · rw [mergeEl_of_lt hlt, mkElem_window]
    · rw [mergeEl_of_lt hlt, mkElem_flags]
      simp [eflagIf]

end Sys2Proof.Machine
end

section
/-!
PROOFS. How a KERNEL runs on the tiles of its span (R251), and how one completes INVALID (R249).
-/
namespace Sys2Proof.Machine

/-! ### What a kernel's own tiles may change -/

/-- Nothing differs but tiles, works, waits and registers. -/
def OnlyRun (s t : State) : Prop := t = { s with tiles := t.tiles, works := t.works, waits := t.waits, regs := t.regs }

theorem OnlyRun.refl (s : State) : OnlyRun s s := rfl

theorem OnlyRun.trans {s t u : State} (h : OnlyRun s t) (k : OnlyRun t u) : OnlyRun s u := by
  unfold OnlyRun at h k ⊢
  rw [k, h]

theorem OnlyRun.siteOf {s t : State} (h : OnlyRun s t) (g lt : Nat) : t.siteOf g lt = s.siteOf g lt := by rw [h]; rfl

theorem OnlyRun.siteDown {s t : State} (h : OnlyRun s t) (i : Nat) : t.siteDown i = s.siteDown i := by rw [h]; rfl

theorem onlyRun_modTile (s : State) (i : Nat) (f : Tile → Tile) : OnlyRun s (s.modTile i f) := rfl

theorem OnlyRegs.onlyRun {ks : List Nat} {s t : State} (h : OnlyRegs ks s t) : OnlyRun s t := by rw [h.1]; rfl

/-! ### Works -/

@[simp] theorem State.modWork_work_self (s : State) (w : Nat) (f : Work → Work) : (s.modWork w f).work? w = (s.work? w).map f := by
  unfold State.modWork State.work?
  split
  · next x hx => simp [hx]
  · next hx => simp [hx]

theorem State.modWork_work_of_ne (s : State) {w j : Nat} (f : Work → Work) (h : j ≠ w) : (s.modWork w f).work? j = s.work? j := by
  unfold State.modWork State.work?
  split
  · exact Table.find_insert_of_ne _ _ h
  · rfl

/-- A change of a work is a change of the table of works alone. -/
theorem State.modWork_eq (s : State) (w : Nat) (f : Work → Work) : s.modWork w f = { s with works := (s.modWork w f).works } := by
  unfold State.modWork
  split <;> rfl

theorem onlyRun_modWork (s : State) (w : Nat) (f : Work → Work) : OnlyRun s (s.modWork w f) := by rw [State.modWork_eq]; rfl

theorem modWork_tiles (s : State) (w : Nat) (f : Work → Work) : (s.modWork w f).tiles = s.tiles := by rw [State.modWork_eq]

theorem modWork_regs (s : State) (w : Nat) (f : Work → Work) : (s.modWork w f).regs = s.regs := by rw [State.modWork_eq]

/-- A work but for what a kernel reports of itself (R48, R52, R250) and how far its tiles have come. -/
def Work.unnoted (x : Work) : Work := { x with clamped := false, psnw := false, aflags := 0, vstat := 0, stkcnt := 0, prog := [] }

/-- What does not hang on the notes of a work is the same for works that are the same but for notes. -/
theorem unnoted_congr {α : Type} (f : Work → α) (hf : ∀ z, f z.unnoted = f z) {x y : Work} (h : y.unnoted = x.unnoted) : f y = f x := by
  rw [← hf y, h, hf x]

/-- Nothing differs but registers and what works report of themselves. -/
structure Noted (s t : State) : Prop where
  run : OnlyRun s t
  tiles : t.tiles = s.tiles
  works : ∀ i, (t.work? i).map Work.unnoted = (s.work? i).map Work.unnoted

theorem Noted.refl (s : State) : Noted s s := ⟨.refl s, rfl, fun _ => rfl⟩

theorem Noted.trans {s t u : State} (h : Noted s t) (k : Noted t u) : Noted s u :=
  ⟨h.run.trans k.run, k.tiles.trans h.tiles, fun i => (k.works i).trans (h.works i)⟩

theorem Noted.tile {s t : State} (h : Noted s t) (i : Nat) : t.tile i = s.tile i := by simp only [State.tile, h.tiles]

/-- A work that one state lists, the other lists with other notes. -/
theorem Noted.work {s t : State} (h : Noted s t) {w : Nat} {x : Work} (hx : s.work? w = some x) :
    ∃ y, t.work? w = some y ∧ y.unnoted = x.unnoted := by
  have hw := h.works w
  rw [hx, Option.map_some] at hw
  exact Option.map_eq_some_iff.1 hw

theorem noted_modWork (s : State) (w : Nat) {f : Work → Work} (hf : ∀ x, (f x).unnoted = x.unnoted) : Noted s (s.modWork w f) := by
  refine ⟨onlyRun_modWork .., modWork_tiles .., fun i => ?_⟩
  by_cases hi : i = w
  · subst hi
    rw [State.modWork_work_self, Option.map_map]
    exact congrArg (fun g => Option.map g _) (funext hf)
  · rw [State.modWork_work_of_ne s f hi]

theorem noted_ctxClamp (s : State) (c row : Nat) : Noted s (s.ctxClamp c row) := ⟨(onlyRegs_ctxClamp ..).onlyRun, rfl, fun _ => rfl⟩

theorem noted_report (s : State) (w : Nat) (fl : EFlags) (stk : Nat) (vs : VFlags) (psn : Bool) : Noted s (s.report w fl stk vs psn) :=
  noted_modWork s w (fun _ => rfl)

theorem noted_clampOnce (s : State) (w : Nat) (cut : Bool) : Noted s (s.clampOnce w cut) := by
  unfold State.clampOnce
  split
  · exact .refl s
  · split
    · exact (noted_ctxClamp ..).trans (noted_modWork _ w (fun _ => rfl))
    · exact .refl s

/-- Whether a tile is switched out or leaves does not hang on notes. -/
theorem tileOut_noted {s t : State} (h : ∀ i, (t.work? i).map Work.unnoted = (s.work? i).map Work.unnoted) {w k : Nat} {x y : Work}
    (hxy : y.unnoted = x.unnoted) : t.tileOut w y k = s.tileOut w x k := by
  have hlo : y.lo = x.lo := unnoted_congr Work.lo (fun _ => rfl) hxy
  have hpar : y.parent = x.parent := unnoted_congr Work.parent (fun _ => rfl) hxy
  have hp := h (x.parent.getD w)
  unfold State.tileOut State.holderOf
  rw [hlo, hpar]
  cases hs : s.work? (x.parent.getD w) with
  | none =>
    rw [hs, Option.map_none, Option.map_eq_none_iff] at hp
    rw [hp]
  | some p =>
    rw [hs, Option.map_some] at hp
    obtain ⟨q, hq, hqp⟩ := Option.map_eq_some_iff.1 hp
    have h1 : q.lo = p.lo := unnoted_congr Work.lo (fun _ => rfl) hqp
    have h2 : q.outT = p.outT := unnoted_congr Work.outT (fun _ => rfl) hqp
    have h3 : q.moveT = p.moveT := unnoted_congr Work.moveT (fun _ => rfl) hqp
    simp only [hq, h1, h2, h3]

/-! ### One turn, and the turns of a whole span -/

/-- Tile `k`, at site `i`, has had its turn: it is `g` of what it was, no other tile has changed, and kernel `w` counts it done. -/
structure Turn (w k i : Nat) (g : Tile → Tile) (s t : State) : Prop where
  run : OnlyRun s t
  tile : t.tile i = g (s.tile i)
  others : ∀ j, j ≠ i → t.tile j = s.tile j
  work : ∀ x, s.work? w = some x → ∃ y, t.work? w = some y ∧ y.phase = x.phase ∧ y.cnt = x.cnt ∧ y.doneT = x.doneT ++ [k]

/-- A turn ends with `tileDone`, whatever has been noted before. -/
theorem turn_tileDone {w k i : Nat} {g : Tile → Tile} {s t : State} (hrun : OnlyRun s t) (htile : t.tile i = g (s.tile i))
    (hothers : ∀ j, j ≠ i → t.tile j = s.tile j) (hworks : (t.work? w).map Work.unnoted = (s.work? w).map Work.unnoted) :
    Turn w k i g s (t.tileDone w k) := by
  have htiles : (t.tileDone w k).tiles = t.tiles := modWork_tiles ..
  refine ⟨hrun.trans (onlyRun_modWork ..), ?_, fun j hj => ?_, fun x hx => ?_⟩
  · rw [State.tile, htiles]; exact htile
  · rw [State.tile, htiles]; exact hothers j hj
  · rw [hx, Option.map_some] at hworks
    obtain ⟨y, hy, hyx⟩ := Option.map_eq_some_iff.1 hworks
    refine ⟨_, by rw [State.tileDone, State.modWork_work_self, hy, Option.map_some], ?_⟩
    have hphase : y.phase = x.phase := unnoted_congr Work.phase (fun _ => rfl) hyx
    have hcnt : y.cnt = x.cnt := unnoted_congr Work.cnt (fun _ => rfl) hyx
    have hdone : y.doneT = x.doneT := unnoted_congr Work.doneT (fun _ => rfl) hyx
    exact ⟨hphase, hcnt, congrArg (· ++ [k]) hdone⟩

/-- The usual turn: notes, the change of the tile, notes, and the tile counts as done. -/
theorem turn_modTile {w k i : Nat} {g : Tile → Tile} {s t u : State} (hst : Noted s t) (htu : Noted (t.modTile i g) u) :
    Turn w k i g s (u.tileDone w k) := by
  refine turn_tileDone ((hst.run.trans (onlyRun_modTile ..)).trans htu.run) ?_ (fun j hj => ?_) ?_
  · rw [htu.tile, State.modTile_tile_self, hst.tile]
  · rw [htu.tile, State.modTile_tile_of_ne _ _ hj, hst.tile]
  · rw [htu.works, State.modTile_work, hst.works]

/-- The tiles of a list have had their turns, each at its site. -/
structure Turns (w : Nat) (site : Nat → Nat) (g : Nat → Tile → Tile) (l : List Nat) (s t : State) : Prop where
  run : OnlyRun s t
  tile : ∀ k ∈ l, t.tile (site k) = g k (s.tile (site k))
  others : ∀ j, (∀ k ∈ l, j ≠ site k) → t.tile j = s.tile j
  work : ∀ x, s.work? w = some x → ∃ y, t.work? w = some y ∧ y.phase = x.phase ∧ y.cnt = x.cnt ∧ y.doneT = x.doneT ++ l

section
variable {w : Nat} {site : Nat → Nat} {g : Nat → Tile → Tile}

theorem Turns.nil (s : State) : Turns w site g [] s s :=
  ⟨.refl s, by simp, fun _ _ => rfl, fun x hx => ⟨x, hx, rfl, rfl, by simp⟩⟩

theorem Turns.cons {k : Nat} {l : List Nat} {s t u : State} (h : Turn w k (site k) (g k) s t) (hl : Turns w site g l t u)
    (hk : ∀ j ∈ l, site j ≠ site k) : Turns w site g (k :: l) s u := by
  refine ⟨h.run.trans hl.run, fun j hj => ?_, fun j hj => ?_, fun x hx => ?_⟩
  · rcases List.mem_cons.1 hj with rfl | hj
    · rw [hl.others _ (fun i hi => (hk i hi).symm), h.tile]
    · rw [hl.tile j hj, h.others _ (hk j hj)]
  · rw [hl.others j (fun i hi => hj i (List.mem_cons_of_mem _ hi)), h.others j (hj k (List.mem_cons_self ..))]
  · obtain ⟨y, hy, hyp, hyc, hyd⟩ := h.work x hx
    obtain ⟨v, hv, hvp, hvc, hvd⟩ := hl.work y hy
    exact ⟨v, hv, hvp.trans hyp, hvc.trans hyc, by rw [hvd, hyd, List.append_assoc]; rfl⟩

/-- A loop gives each tile of its list a turn, where the sites are distinct. -/
theorem foldl_turns {F : State → Nat → State} (hF : ∀ u k, Turn w k (site k) (g k) u (F u k)) {l : List Nat} (hsite : (l.map site).Nodup) (s : State) :
    Turns w site g l s (l.foldl F s) := by
  induction l generalizing s with
  | nil => exact .nil s
  | cons k l ih =>
    rw [List.map_cons, List.nodup_cons] at hsite
    obtain ⟨hk, hl⟩ := hsite
    exact .cons (hF s k) (ih hl _) fun j hj hjk => hk (hjk ▸ List.mem_map_of_mem hj)

end

/-! ### A kernel of which nothing has run yet -/

section
variable {s z u : State} {w op : Nat} {x : Work}

/-- What a started kernel is. -/
theorem kernel_spec (h : z.kernel w op = some x) : z.work? w = some x ∧ x.phase = .started ∧ x.kind = 1 := by
  unfold State.kernel State.begun at h
  obtain ⟨h, -⟩ := Option.filter_eq_some_iff.1 h
  obtain ⟨hw, hb⟩ := Option.filter_eq_some_iff.1 h
  simp only [Bool.and_eq_true, beq_iff_eq] at hb
  obtain ⟨⟨⟨⟨⟨⟨hkind, hphase⟩, -⟩, -⟩, -⟩, -⟩, -⟩ := hb
  exact ⟨hw, hphase, hkind⟩

/-- All tiles of a kernel of which nothing has run are left to run. -/
theorem tilesLeft_whole (hz : Whole z w op x) (hu : ∀ i, (u.work? i).map Work.unnoted = (z.work? i).map Work.unnoted) {y : Work}
    (hy : y.unnoted = x.unnoted) : u.tilesLeft w y = List.range x.cnt := by
  obtain ⟨-, -, hdone, hfree, -⟩ := hz
  have hcnt : y.cnt = x.cnt := unnoted_congr Work.cnt (fun _ => rfl) hy
  have hydone : y.doneT = [] := (unnoted_congr Work.doneT (fun _ => rfl) hy).trans hdone
  rw [State.tilesLeft, hcnt, List.filter_eq_self]
  intro k hk
  obtain ⟨hout, -⟩ := hfree k (List.mem_range.1 hk)
  simp [hydone, tileOut_noted hu hy, hout]

/-- The sites of a whole kernel are distinct. -/
theorem sites_nodup (hz : Whole z w op x) : ((List.range x.cnt).map (x.siteIn z)).Nodup := by
  obtain ⟨-, -, -, -, hinj⟩ := hz
  exact List.Nodup.map_on (fun j hj k hk => hinj j k (List.mem_range.1 hj) (List.mem_range.1 hk)) List.nodup_range

/-- From a state that differs by notes and tiles from that in which the kernel was whole, its loop takes every tile of the span, and rejects none. -/
theorem foldTiles_whole {f : State → Nat → Nat → State} (hz : Whole z w op x) (hrun : OnlyRun z u)
    (hu : ∀ i, (u.work? i).map Work.unnoted = (z.work? i).map Work.unnoted) (hf : ∀ v k i, OnlyRun v (f v k i)) :
    u.foldTiles w f = (List.range x.cnt).foldl (fun v k => f v k (x.siteIn z k)) u := by
  obtain ⟨hk, -, -, hfree, -⟩ := id hz
  have hw := hu w
  rw [(kernel_spec hk).1, Option.map_some] at hw
  obtain ⟨y, hy, hyx⟩ := Option.map_eq_some_iff.1 hw
  have hlo : y.lo = x.lo := unnoted_congr Work.lo (fun _ => rfl) hyx
  have hhood : y.hood = x.hood := unnoted_congr Work.hood (fun _ => rfl) hyx
  rw [State.foldTiles, hy]
  dsimp only
  rw [tilesLeft_whole hz hu hyx, hlo, hhood]
  have hdown : ∀ k ∈ List.range x.cnt, z.siteDown (x.siteIn z k) = false := fun k hk => (hfree k (List.mem_range.1 hk)).2
  generalize List.range x.cnt = l at hdown
  clear hu hw hy
  induction l generalizing u with
  | nil => rfl
  | cons k l ih =>
    obtain ⟨hkdown, hldown⟩ := List.forall_mem_cons.1 hdown
    have hsite : u.siteOf x.hood (x.lo + k) = x.siteIn z k := hrun.siteOf ..
    rw [List.foldl_cons, List.foldl_cons, hsite, hrun.siteDown, hkdown, if_neg (by decide), ih (hrun.trans (hf ..)) hldown]

/-- A kernel whose tiles have all had their turn has run, and awaits its completion. -/
theorem kernelEnd_finished {y : Work} (hy : u.work? w = some y) (hp : y.phase = .started) (hd : y.doneT.length = y.cnt) :
    (u.kernelEnd w).tiles = u.tiles ∧ OnlyRun u (u.kernelEnd w) ∧
      (u.kernelEnd w).work? w = some { y with ran := true, phase := .finished } := by
  have hw : (u.unholdWork w).work? w = some y := hy
  simp only [State.kernelEnd, hy, hp, hd, beq_self_eq_true, Bool.and_self, if_true]
  refine ⟨(modWork_tiles ..).trans rfl, OnlyRun.trans (t := u.unholdWork w) rfl (onlyRun_modWork ..), ?_⟩
  rw [State.modWork_work_self, hw, Option.map_some]

theorem kernelEnd_regs (u : State) (w : Nat) : (u.kernelEnd w).regs = u.regs := by
  unfold State.kernelEnd
  split
  · rfl
  · split
    · exact modWork_regs ..
    · rfl

/-- A kernel that runs on its whole span: every tile has had its turn, and the kernel awaits its completion. `u` is what goes before the turns. -/
theorem runTiles_span {f : State → Nat → Nat → State} {g : Nat → Tile → Tile} (hz : Whole z w op x) (hrun : OnlyRun z u)
    (hu : ∀ i, (u.work? i).map Work.unnoted = (z.work? i).map Work.unnoted) (hf : ∀ v k i, Turn w k i (g k) v (f v k i))
    (hout : ∀ i, (∀ k, k < x.cnt → i ≠ x.siteIn z k) → u.tile i = z.tile i) :
    RanOnSpan z w x (finish s (u.runTiles w f)) ∧
      ∀ k, k < x.cnt → (finish s (u.runTiles w f)).tile (x.siteIn z k) = g k (u.tile (x.siteIn z k)) := by
  have hturns : Turns w (x.siteIn z) g (List.range x.cnt) u (u.foldTiles w f) := by
    rw [foldTiles_whole hz hrun hu fun v k i => (hf v k i).run]
    exact foldl_turns (fun v k => hf v k _) (sites_nodup hz) u
  obtain ⟨hk, -, hdone, -, -⟩ := hz
  obtain ⟨hw, hphase, -⟩ := kernel_spec hk
  have huw := hu w
  rw [hw, Option.map_some] at huw
  obtain ⟨y, hy, hyx⟩ := Option.map_eq_some_iff.1 huw
  obtain ⟨v, hv, hvp, hvc, hvd⟩ := hturns.work y hy
  have hyp : y.phase = .started := (unnoted_congr Work.phase (fun _ => rfl) hyx).trans hphase
  have hyc : y.cnt = x.cnt := unnoted_congr Work.cnt (fun _ => rfl) hyx
  have hyd : y.doneT = [] := (unnoted_congr Work.doneT (fun _ => rfl) hyx).trans hdone
  rw [hyd, List.nil_append] at hvd
  obtain ⟨htiles, hend, hwend⟩ := kernelEnd_finished hv (hvp.trans hyp) (by rw [hvd, List.length_range, hvc, hyc])
  have htile : ∀ i, (u.runTiles w f).tile i = (u.foldTiles w f).tile i := fun i => congrArg (at' · i) htiles
  have hall : OnlyRun z (u.runTiles w f) := (hrun.trans hturns.run).trans hend
  refine ⟨⟨⟨_, (finish_work ..).trans hwend, rfl, rfl, hvd⟩, fun i hi => ?_, ?_, ?_, ?_⟩, fun k hk => ?_⟩
  · rw [finish_tile, htile, hturns.others i (fun k hk => hi k (List.mem_range.1 hk)), hout i hi]
  · rw [finish_mem, hall]
  · rw [finish_hostMem, hall]
  · rw [finish_farMem, hall]
  · rw [finish_tile, htile, hturns.tile k (List.mem_range.2 hk)]

/-- The same where only notes go before the turns. -/
theorem runTiles_noted {f : State → Nat → Nat → State} {g : Nat → Tile → Tile} (hz : Whole z w op x) (hu : Noted z u)
    (hf : ∀ v k i, Turn w k i (g k) v (f v k i)) :
    RanOnSpan z w x (finish s (u.runTiles w f)) ∧
      ∀ k, k < x.cnt → (finish s (u.runTiles w f)).tile (x.siteIn z k) = g k (z.tile (x.siteIn z k)) := by
  obtain ⟨hspan, htile⟩ := runTiles_span (s := s) hz hu.run hu.works hf (fun i _ => hu.tile i)
  exact ⟨hspan, fun k hk => by rw [htile k hk, hu.tile]⟩

/-- The arrival of a dispatch leaves the queue. -/
theorem arrive_pending (s : State) (w op : Nat) (mine : List Byte → Bool) : (s.arrive w op mine).pending = s.pending := by
  unfold State.arrive
  dsimp only
  have hmod : ∀ (t : State) (f : Work → Work), (t.modWork w f).pending = t.pending := fun t f => by rw [State.modWork_eq]
  repeat' split
  any_goals rfl
  all_goals exact hmod ..

end

/-! ### A kernel that ends at once -/

section
variable {s z u : State} {w op : Nat} {x : Work}

/-- Nothing differs but works, copy engines, save slots, and what contexts and hoods are charged with. -/
def OnlyReleased (s t : State) : Prop :=
  t = { s with works := t.works, ctxs := t.ctxs, hoods := t.hoods, front := t.front, saves := t.saves }

theorem OnlyReleased.trans {s t u : State} (h : OnlyReleased s t) (k : OnlyReleased t u) : OnlyReleased s u := by
  unfold OnlyReleased at h k ⊢
  rw [k, h]

theorem onlyReleased_modWork (s : State) (w : Nat) (f : Work → Work) : OnlyReleased s (s.modWork w f) := by rw [State.modWork_eq]; rfl

theorem onlyReleased_front (s : State) (f : Front) : OnlyReleased s { s with front := f } := rfl

theorem onlyReleased_accrue (s : State) (w : Nat) : OnlyReleased s (s.accrue w) := by
  unfold State.accrue
  split
  · rfl
  · dsimp only
    generalize hd : (_ : Nat) * _ = d
    split
    · exact onlyReleased_modWork ..
    · exact (onlyReleased_modWork ..).trans rfl

theorem onlyReleased_releaseWork (s : State) (w : Nat) : OnlyReleased s (s.releaseWork w) := by
  unfold State.releaseWork
  dsimp only
  split
  · exact onlyReleased_accrue ..
  · split
    · exact ((onlyReleased_accrue s w).trans (onlyReleased_front ..)).trans (onlyReleased_modWork ..)
    · exact (onlyReleased_accrue s w).trans (onlyReleased_modWork ..)

theorem onlyReleased_freeSlots (s : State) (h : Nat) (ks : List Nat) : OnlyReleased s (s.freeSlots h ks) := by
  unfold State.freeSlots
  generalize hu : s.modHood h _ = u
  have hsu : OnlyReleased s u := by rw [← hu]; rfl
  clear hu
  induction ks generalizing u with
  | nil => exact hsu
  | cons k ks ih => exact ih _ (hsu.trans rfl)

/-- A top-level kernel that names no completion record ends: it leaves the works and its ring's started ones, and tiles, memory and registers stay. -/
theorem endTop_ended (hw : u.work? w = some x) (hkind : x.kind = 1) (hx : Unrecorded x) :
    Ended u w x (u.completeWork w) ∧ (u.completeWork w).regs = u.regs ∧ (u.completeWork w).mem = u.mem ∧
      (u.completeWork w).hostMem = u.hostMem ∧ (u.completeWork w).tiles = u.tiles := by
  obtain ⟨hpar, hcpl⟩ := hx
  have hkind2 : ¬ x.kind = 2 := by omega
  simp only [State.completeWork, hw, hpar, State.endTop, State.writeRecord, hcpl, hkind2, if_true, if_false]
  generalize hv : State.modRing u x.ring _ = v
  generalize x.slots.map (fun e => e.2) ++ x.outT.map (fun e => e.2) ++ x.moveT.map (fun e => e.2) = ks
  have hring : (v.ring x.ring).started = (u.ring x.ring).started.filter (fun i => i != w) := by
    rw [← hv, State.modRing_ring_self]
  have hrel : OnlyReleased v (((v.releaseWork w).freeSlots x.hood ks).dropWork w) :=
    ((onlyReleased_releaseWork ..).trans (onlyReleased_freeSlots ..)).trans rfl
  refine ⟨⟨Table.find_erase_self .., ?_⟩, ?_⟩
  · rw [hrel]; exact hring
  · rw [hrel, ← hv]; exact ⟨rfl, rfl, rfl, rfl⟩

/-- Records that are not in order end a kernel INVALID: `EndedInvalid`. -/
theorem endInvalid_ended (hk : z.kernel w op = some x) (hx : Unrecorded x) (hp : z.pending = s.pending) :
    EndedInvalid z w x (finish s (z.endInvalid w)) := by
  obtain ⟨hw, -, hkind⟩ := kernel_spec hk
  have hset : (z.setInvalid w).work? w = some { x with status := 1, ran := true, phase := .finished } := by
    simp only [State.setInvalid, hw]
    rw [State.modWork_work_self]
    exact congrArg _ hw
  have hsame : z.setInvalid w = { z with works := (z.setInvalid w).works, regs := (z.countReg rCTX_INVALID x.ctx 1).regs } := by
    simp only [State.setInvalid, hw]
    rw [State.modWork_eq]
    rfl
  obtain ⟨⟨hgone, hring⟩, hregs, hmem, hhost, htiles⟩ := endTop_ended (u := z.setInvalid w) hset hkind hx
  refine ⟨(z.setInvalid w).completeWork w, ⟨⟨hgone, ?_⟩, ?_, ?_, ?_, ?_⟩, ?_⟩
  · rw [hring, hsame]; rfl
  · rw [State.reg, hregs, hsame]
    exact (State.setReg_reg_self ..).trans (Nat.mod_eq_of_lt (satAdd_lt ..))
  · rw [hmem, hsame]
  · rw [hhost, hsame]
  · rw [htiles, hsame]
  · simp only [State.endInvalid, State.complete, hset, finish, hp]

/-- A command whose effect ends a kernel INVALID. -/
theorem completes_endInvalid {c : Instr} {eff : State → State} (hc : exec c s = run c.wf eff s) (hwf : c.wf = true) (hp : Powered s)
    (hk : z.kernel w op = some x) (hx : Unrecorded x) (hq : z.pending = s.pending) (heff : eff s = z.endInvalid w) :
    Completes c s (EndedInvalid z w x) :=
  completes_run hc hwf hp (heff ▸ endInvalid_ended hk hx hq)

/-- The kernel has run on its span, and tile `k` of it has become `g k` of what it was. -/
def RanAs (z : State) (w : Nat) (x : Work) (g : Nat → Tile → Tile) (t : State) : Prop :=
  RanOnSpan z w x t ∧ ∀ k, k < x.cnt → t.tile (x.siteIn z k) = g k (z.tile (x.siteIn z k))

/-- A command whose effect gives the tiles of a whole kernel their turns. -/
theorem completes_runTiles {c : Instr} {eff : State → State} {f : State → Nat → Nat → State} {g : Nat → Tile → Tile}
    (hc : exec c s = run c.wf eff s) (hwf : c.wf = true) (hp : Powered s) (hz : Whole z w op x) (hu : Noted z u)
    (hf : ∀ v k i, Turn w k i (g k) v (f v k i)) (heff : eff s = u.runTiles w f) : Completes c s (RanAs z w x g) :=
  completes_run hc hwf hp (heff ▸ runTiles_noted hz hu hf)

theorem Completes.imp {c : Instr} {P Q : State → Prop} (h : Completes c s P) (hPQ : ∀ t, P t → Q t) : Completes c s Q := by
  obtain ⟨t, ht, hP⟩ := h
  exact ⟨t, ht, hPQ t hP⟩

end

end Sys2Proof.Machine
end

section
/-!
PROOFS. Writes to a tile: its scratchpad (R55) and its accumulators (R36), byte by byte and element by element.
-/
namespace Sys2Proof.Machine

/-! ### Loops that write a table -/

/-- A loop of writes under distinct keys leaves under each key what was written there, and everything else as it was. -/
theorem foldl_writes {σ ι β : Type} {F : σ → ι → σ} {read : σ → Nat → β} {key : ι → Nat} {val : ι → β}
    (hF : ∀ m p j, read (F m p) j = if j = key p then val p else read m j) {l : List ι} (hkeys : (l.map key).Nodup) (m : σ) :
    (∀ p ∈ l, read (l.foldl F m) (key p) = val p) ∧ ∀ j, (∀ p ∈ l, j ≠ key p) → read (l.foldl F m) j = read m j := by
  induction l generalizing m with
  | nil => simp
  | cons p l ih =>
    rw [List.map_cons, List.nodup_cons] at hkeys
    obtain ⟨hp, hl⟩ := hkeys
    obtain ⟨hwritten, hother⟩ := ih hl (F m p)
    refine ⟨fun q hq => ?_, fun j hj => ?_⟩
    · rcases List.mem_cons.1 hq with rfl | hq
      · have hlast : ∀ r ∈ l, key q ≠ key r := fun r hr hkey => hp (List.mem_map.2 ⟨r, hr, hkey.symm⟩)
        rw [List.foldl_cons, hother _ hlast, hF, if_pos rfl]
      · exact hwritten q hq
    · rw [List.foldl_cons, hother j fun q hq => hj q (List.mem_cons_of_mem _ hq), hF, if_neg (hj p (List.mem_cons_self ..))]

/-! ### The scratchpad -/

/-- The scratchpad after bytes have been written from `a` on. -/
def wrSpad (m : Table Byte) (a : Nat) (d : List PB) : Table Byte :=
  ((List.range d.length).zip d).foldl (fun m p => if p.2.1 = 0 then m.erase (a + p.1) else m.insert (a + p.1) p.2.1) m

/-- A write changes the scratchpad, its poison and its validity, and nothing else of the tile. -/
theorem Tile.wr_eq (t : Tile) (a : Nat) (d : List PB) :
    ∃ psn ok, t.wr a d = { t with spad := wrSpad t.spad a (d.take (0x100000 - a)), poison := psn, valid := ok } := by
  have key : ∀ (f : Tile → Nat → Table Bool × Table Bool) (l : List Nat) (u : Tile), ∃ psn ok,
      l.foldl (fun u i => { u with poison := (f u i).1, valid := (f u i).2 }) u = { u with poison := psn, valid := ok } := by
    intro f l
    induction l with
    | nil => exact fun u => ⟨_, _, rfl⟩
    | cons i l ih =>
      intro u
      obtain ⟨psn, ok, h⟩ := ih { u with poison := (f u i).1, valid := (f u i).2 }
      exact ⟨psn, ok, h⟩
  exact key (fun u i => (_, _)) _ { t with spad := wrSpad t.spad a (d.take (0x100000 - a)) }

@[simp] theorem Tile.wr_acc (t : Tile) (a : Nat) (d : List PB) : (t.wr a d).acc = t.acc := by obtain ⟨_, _, h⟩ := t.wr_eq a d; rw [h]
@[simp] theorem Tile.wr_tags (t : Tile) (a : Nat) (d : List PB) : (t.wr a d).tags = t.tags := by obtain ⟨_, _, h⟩ := t.wr_eq a d; rw [h]
@[simp] theorem Tile.wr_vregs (t : Tile) (a : Nat) (d : List PB) : (t.wr a d).vregs = t.vregs := by obtain ⟨_, _, h⟩ := t.wr_eq a d; rw [h]
@[simp] theorem Tile.wr_vstat (t : Tile) (a : Nat) (d : List PB) : (t.wr a d).vstat = t.vstat := by obtain ⟨_, _, h⟩ := t.wr_eq a d; rw [h]

/-- Writing one byte: zero takes its entry out. -/
theorem find_write_byte (m : Table Byte) (k j : Nat) (b : Byte) :
    ((if b = 0 then m.erase k else m.insert k b).find j).getD 0 = if j = k then b else (m.find j).getD 0 := by
  by_cases hb : b = 0
  · rw [if_pos hb]
    by_cases hj : j = k
    · subst hj; simp [hb]
    · rw [Table.find_erase_of_ne m hj, if_neg hj]
  · rw [if_neg hb]
    by_cases hj : j = k
    · subst hj; simp
    · rw [Table.find_insert_of_ne m b hj, if_neg hj]

theorem wrSpad_find (m : Table Byte) (a : Nat) (d : List PB) :
    (∀ i p, d[i]? = some p → ((wrSpad m a d).find (a + i)).getD 0 = p.1) ∧
    ∀ j, j < a ∨ a + d.length ≤ j → ((wrSpad m a d).find j).getD 0 = (m.find j).getD 0 := by
  have hkeys : (((List.range d.length).zip d).map (fun p => a + p.1)).Nodup := by
    have hmap : ((List.range d.length).zip d).map (fun p => a + p.1) = (List.range d.length).map (a + ·) := by
      rw [← List.map_fst_zip (l₁ := List.range d.length) (l₂ := d) (by simp), List.map_map, List.map_fst_zip (by simp)]
      rfl
    rw [hmap]
    exact List.nodup_range.map fun _ _ h => Nat.add_left_cancel h
  obtain ⟨hwritten, hother⟩ := foldl_writes (read := fun m j => (Table.find m j).getD 0)
    (fun m (p : Nat × PB) j => find_write_byte m (a + p.1) j p.2.1) hkeys m
  refine ⟨fun i p hp => hwritten (i, p) ?_, fun j hj => hother j fun p hp => ?_⟩
  · obtain ⟨hi, -⟩ := List.getElem?_eq_some_iff.1 hp
    exact List.mem_of_getElem? (i := i) (by simp [List.getElem?_zip_eq_some, List.getElem?_range hi, hp])
  · have := List.mem_range.1 (List.of_mem_zip hp).1
    omega

/-- A byte written within the scratchpad reads as written. -/
theorem Tile.wr_rd {t : Tile} {a i : Nat} {d : List PB} {p : PB} (hp : d[i]? = some p) (hfit : a + i < 0x100000) : (t.wr a d).rd (a + i) = p.1 := by
  obtain ⟨_, _, h⟩ := t.wr_eq a d
  have hcut : (d.take (0x100000 - a))[i]? = some p := by rw [List.getElem?_take_of_lt (by omega), hp]
  simp only [Tile.rd, h, if_pos hfit, (wrSpad_find t.spad a _).1 i p hcut]

/-- A byte outside what is written reads as before. -/
theorem Tile.wr_rd_of_not {t : Tile} {a b : Nat} {d : List PB} (h : b < a ∨ a + d.length ≤ b) : (t.wr a d).rd b = t.rd b := by
  obtain ⟨_, _, hwr⟩ := t.wr_eq a d
  have hlen : b < a ∨ a + (d.take (0x100000 - a)).length ≤ b := by
    rw [List.length_take]; omega
  simp only [Tile.rd, hwr, (wrSpad_find t.spad a _).2 b hlen]

/-! ### Words as bytes (R8) -/

theorem leBytes_length (n v : Nat) : (leBytes n v).length = n := by
  induction n generalizing v with
  | zero => rfl
  | succ n ih => rw [leBytes, List.length_cons, ih]

theorem leNat_leBytes (n v : Nat) : leNat (leBytes n v) = v % 256 ^ n := by
  induction n generalizing v with
  | zero => simp [leBytes, leNat, Nat.mod_one]
  | succ n ih => rw [leBytes, leNat, ih, BitVec.toNat_ofNat, pow_succ' 256 n, Nat.mod_mul]

/-- The place of a byte in a list of pieces of one length. -/
theorem getElem?_flatMap_pieces {α β : Type} {f : α → List β} {n : Nat} (hf : ∀ x, (f x).length = n) {l : List α} {i j : Nat} {x : α}
    (hx : l[i]? = some x) (hj : j < n) : (l.flatMap f)[n * i + j]? = (f x)[j]? := by
  induction l generalizing i with
  | nil => simp at hx
  | cons y l ih =>
    rw [List.flatMap_cons]
    cases i with
    | zero =>
      rw [List.getElem?_cons_zero, Option.some.injEq] at hx
      rw [hx, Nat.mul_zero, Nat.zero_add, List.getElem?_append_left (by rw [hf]; exact hj)]
    | succ i =>
      rw [List.getElem?_cons_succ] at hx
      rw [List.getElem?_append_right (by rw [hf, Nat.mul_succ]; omega), hf, ← ih hx, Nat.mul_succ]
      congr 1; omega

theorem length_flatMap_pieces {α β : Type} {f : α → List β} {n : Nat} (hf : ∀ x, (f x).length = n) (l : List α) :
    (l.flatMap f).length = n * l.length := by
  simp [List.length_flatMap, hf, Nat.mul_comm]

/-- Pieces of one length, written one after the other, read back byte by byte. -/
theorem Tile.wr_pieces_rd {α : Type} {f : α → List PB} {n : Nat} (hf : ∀ x, (f x).length = n) {t : Tile} {a i j : Nat} {l : List α} {x : α} {p : PB}
    (hx : l[i]? = some x) (hp : (f x)[j]? = some p) (hfit : a + n * l.length ≤ 0x100000) : (t.wr a (l.flatMap f)).rd (a + n * i + j) = p.1 := by
  obtain ⟨hi, -⟩ := List.getElem?_eq_some_iff.1 hx
  obtain ⟨hj, -⟩ := List.getElem?_eq_some_iff.1 hp
  rw [hf] at hj
  have hmul : n * i + n ≤ n * l.length := by rw [← Nat.mul_succ]; exact Nat.mul_le_mul_left n hi
  rw [Nat.add_assoc]
  exact Tile.wr_rd (by rw [getElem?_flatMap_pieces hf hx hj, hp]) (by omega)

/-- Words written one after the other read back as words. -/
theorem Tile.wr_words {α : Type} {v : α → Nat} {psn : α → Bool} {t : Tile} {a i : Nat} {l : List α} {x : α} (hx : l[i]? = some x)
    (hfit : a + 4 * l.length ≤ 0x100000) :
    leNat (bytesOf ((t.wr a (l.flatMap (fun p => (leBytes 4 (v p)).map (fun b => (b, psn p))))).rdN (a + 4 * i) 4)) = v x % 2 ^ 32 := by
  generalize hu : t.wr a _ = u
  have hbytes : bytesOf (u.rdN (a + 4 * i) 4) = leBytes 4 (v x) := by
    refine List.ext_getElem (by simp [bytesOf, Tile.rdN, leBytes_length]) fun j hj hj' => ?_
    have hpiece : ((leBytes 4 (v x)).map (fun b => (b, psn x)))[j]? = some ((leBytes 4 (v x))[j], psn x) := by
      rw [List.getElem?_map, List.getElem?_eq_getElem hj', Option.map_some]
    have hrd := Tile.wr_pieces_rd (f := fun p => (leBytes 4 (v p)).map (fun b => (b, psn p))) (t := t)
      (by simp [leBytes_length]) hx hpiece hfit
    rw [hu] at hrd
    simp [bytesOf, Tile.rdN, hrd]
  rw [hbytes, leNat_leBytes]; rfl

/-! ### The accumulators -/

theorem Tile.setEl_el (t : Tile) (k j : Nat) (v : Elem) : (t.setEl k v).el j = if j = k then v else t.el j := by
  by_cases hj : j = k
  · subst hj
    rw [if_pos rfl]
    exact Table.get_put_self (fun _ => (0 : Elem)) t.acc j v
  · rw [if_neg hj]
    exact Table.get_put_of_ne (fun _ => (0 : Elem)) t.acc v hj

/-- A loop over the elements of a bank changes accumulators alone. -/
theorem foldl_setEl_eq (key : Nat → Nat) (val : Nat → Elem) (l : List Nat) (t : Tile) :
    l.foldl (fun u k => u.setEl (key k) (val k)) t = { t with acc := (l.foldl (fun u k => u.setEl (key k) (val k)) t).acc } := by
  induction l generalizing t with
  | nil => rfl
  | cons k l ih => rw [List.foldl_cons, ih]; rfl

/-- A loop over the elements of a bank writes each of them, and no element of the other bank. -/
theorem foldl_setEl_bank (bank : Nat) (val : Nat → Elem) (t : Tile) :
    (∀ n, n < 2048 → ((List.range 2048).foldl (fun u k => u.setEl (2048 * bank + k) (val k)) t).el (2048 * bank + n) = val n) ∧
    ∀ j, j < 2048 * bank ∨ 2048 * bank + 2048 ≤ j →
      ((List.range 2048).foldl (fun u k => u.setEl (2048 * bank + k) (val k)) t).el j = t.el j := by
  have hkeys : ((List.range 2048).map (2048 * bank + ·)).Nodup := List.nodup_range.map fun _ _ h => Nat.add_left_cancel h
  obtain ⟨hwritten, hother⟩ := foldl_writes (read := Tile.el) (val := val) (fun u k j => Tile.setEl_el u (2048 * bank + k) j (val k)) hkeys t
  refine ⟨fun n hn => hwritten n (List.mem_range.2 hn), fun j hj => hother j fun k hk => ?_⟩
  have := List.mem_range.1 hk
  omega

end Sys2Proof.Machine
end

section
/-!
PROOFS. The matrix kernels MMA, WB and MERGE (R36 to R48, R251, R252).
-/
namespace Sys2Proof.Machine

theorem fld_lt (bs : List Byte) (off lsb n : Nat) : fld bs off lsb n < 2 ^ n := Nat.mod_lt _ (Nat.two_pow_pos n)

theorem anchorOf_lam (e : Elem) : anchorOf e.lam = e.anchor := by
  unfold anchorOf Elem.lam
  omega

/-! ### MMA on one tile (R37 to R42) -/

/-- Element (i, j) of a bank after a matrix operation. -/
def Tile.mmaEl (t : Tile) (bank : Nat) (init : Bool) (a b : Side) (i j : Nat) : Elem :=
  let old := t.el (elKey bank i j)
  let lam := if init then lamFor a.f b.f (t.sideMax a i + t.sideMax b j) else old.lam
  let r := macAll lam (if init then (0, 0) else (old.win, old.flags)) (t.products a b i j)
  mkElem r.2 (anchorOf lam) r.1

theorem elKey_div_mod (bank e : Nat) : elKey bank (e / 64) (e % 64) = 2048 * bank + e := by
  unfold elKey
  omega

theorem Tile.mma_eq (t : Tile) (bank : Nat) (init : Bool) (a b : Side) : t.mma bank init a b =
    (List.range 2048).foldl (fun u e => u.setEl (2048 * bank + e) (t.mmaEl bank init a b (e / 64) (e % 64))) t := by
  unfold Tile.mma
  congr 1
  funext u e
  rw [← elKey_div_mod bank e]
  rfl

/-- A matrix operation changes accumulators alone. -/
theorem Tile.mma_acc (t : Tile) (bank : Nat) (init : Bool) (a b : Side) : ∃ m, t.mma bank init a b = { t with acc := m } :=
  ⟨_, (t.mma_eq bank init a b).trans (foldl_setEl_eq ..)⟩

theorem Tile.mma_el (t : Tile) (bank : Nat) (init : Bool) (a b : Side) {i j : Nat} (hi : i < 32) (hj : j < 64) :
    (t.mma bank init a b).el (elKey bank i j) = t.mmaEl bank init a b i j := by
  have hkey : elKey bank i j = 2048 * bank + (64 * i + j) := by unfold elKey; omega
  rw [Tile.mma_eq, hkey, (foldl_setEl_bank bank _ t).1 _ (by omega), show (64 * i + j) / 64 = i by omega, show (64 * i + j) % 64 = j by omega]

theorem Tile.mma_el_other (t : Tile) {bank : Nat} (hbank : bank < 2) (init : Bool) (a b : Side) {i j : Nat} (hi : i < 32) (hj : j < 64) :
    (t.mma bank init a b).el (elKey (1 - bank) i j) = t.el (elKey (1 - bank) i j) := by
  rw [Tile.mma_eq, (foldl_setEl_bank bank _ t).2]
  unfold elKey
  omega

/-- With START, the bank that an MMA kernel has computed takes its tag and mode. -/
def mmaMark (a : List Byte) (v : Tile) : Tile :=
  if fldB a 0 29 then { v with
    tags := v.tags.put (fun _ => 0) (fld a 0 28 1) (BitVec.ofNat 32 (fld a 0x18 0 32))
    modes := v.modes.put (fun _ => false) (fld a 0 28 1) (fldB a 0 30) } else v

@[simp] theorem mmaMark_el (a : List Byte) (v : Tile) (n : Nat) : (mmaMark a v).el n = v.el n := by
  unfold mmaMark
  split <;> rfl

theorem mmaMark_frame (a : List Byte) (v : Tile) : (mmaMark a v).spad = v.spad ∧ (mmaMark a v).poison = v.poison ∧
    (mmaMark a v).vregs = v.vregs ∧ (mmaMark a v).vstat = v.vstat := by
  unfold mmaMark
  split <;> exact ⟨rfl, rfl, rfl, rfl⟩

theorem mmaMark_start {a : List Byte} (h : fldB a 0 29 = true) (v : Tile) :
    (mmaMark a v).modes.find (fld a 0 28 1) = (if fldB a 0 30 then some true else none) ∧
    (mmaMark a v).tags.find (fld a 0 28 1) =
      (if BitVec.ofNat 32 (fld a 0x18 0 32) = 0 then none else some (BitVec.ofNat 32 (fld a 0x18 0 32))) := by
  simp only [mmaMark, h, if_true, Table.put]
  constructor
  · cases fldB a 0 30 <;> simp
  · by_cases htag : BitVec.ofNat 32 (fld a 0x18 0 32) = 0
    · rw [if_pos htag, if_pos htag, Table.find_erase_self]
    · rw [if_neg htag, if_neg htag, Table.find_insert_self]

theorem mmaMark_continue {a : List Byte} (h : fldB a 0 29 = false) (v : Tile) : mmaMark a v = v := by
  simp only [mmaMark, h, Bool.false_eq_true, if_false]

/-- What the MMA kernel of a record makes of tile `k` of its span. -/
def mmaTile (a : List Byte) (k : Nat) (u : Tile) : Tile :=
  mmaMark a (u.mma (fld a 0 28 1) (fldB a 0 29) (mmaSides a k).1 (mmaSides a k).2)

/-- An MMA kernel leaves scratchpad, vector registers and status. -/
theorem mmaTile_frame (a : List Byte) (k : Nat) (u : Tile) :
    (mmaTile a k u).spad = u.spad ∧ (mmaTile a k u).poison = u.poison ∧ (mmaTile a k u).vregs = u.vregs ∧ (mmaTile a k u).vstat = u.vstat := by
  obtain ⟨m, h⟩ := u.mma_acc (fld a 0 28 1) (fldB a 0 29) (mmaSides a k).1 (mmaSides a k).2
  rw [mmaTile, h]
  exact mmaMark_frame a _

/-- Without START it leaves tags and modes too. -/
theorem mmaTile_continue {a : List Byte} (h : fldB a 0 29 = false) (k : Nat) (u : Tile) :
    (mmaTile a k u).tags = u.tags ∧ (mmaTile a k u).modes = u.modes := by
  obtain ⟨m, hm⟩ := u.mma_acc (fld a 0 28 1) (fldB a 0 29) (mmaSides a k).1 (mmaSides a k).2
  rw [mmaTile, mmaMark_continue h, hm]
  exact ⟨rfl, rfl⟩

section
variable {s z : State} {w op : Nat} {x : Work}

/-! ### The MMA kernel (R252) -/

/-- The turn of tile `k` under an MMA kernel: a slice that is cut is noted. -/
def mmaTurn (w : Nat) (x : Work) (s : State) (k i : Nat) : State :=
  ((if mmaCut x.args k then (s.ctxClamp x.ctx 1).modWork w (fun y => { y with clamped := true }) else s).modTile i (mmaTile x.args k)).tileDone w k

theorem turn_mmaTurn (w : Nat) (x : Work) (s : State) (k i : Nat) : Turn w k i (mmaTile x.args k) s (mmaTurn w x s k i) := by
  refine turn_modTile ?_ (.refl _)
  split
  · exact (noted_ctxClamp ..).trans (noted_modWork _ w fun _ => rfl)
  · exact .refl s

/-- Every bank that a continued MMA uses carries its tag (R45). -/
def tagsMatch (z : State) (w : Nat) (x : Work) : Bool :=
  fldB x.args 0 29 || (z.tilesLeft w x).all (fun k =>
    ((z.tile (x.siteIn z k)).tags.find (fld x.args 0 28 1)).getD 0 == BitVec.ofNat 32 (fld x.args 0x18 0 32))

/-- The two ends of an MMA kernel: its turns, or INVALID. -/
theorem mmaEff_eq (hz : z = s.arrive w 1 (fun _ => true)) (hk : z.kernel w 1 = some x) : mmaEff w s =
    if x.recordsOk && mmaOk x.args && tagsMatch z w x then z.runTiles w (mmaTurn w x) else z.endInvalid w := by
  subst hz
  have hbad : (!x.recordsOk || !mmaOk x.args || !tagsMatch (s.arrive w 1 (fun _ => true)) w x) =
      !(x.recordsOk && mmaOk x.args && tagsMatch (s.arrive w 1 (fun _ => true)) w x) := by simp
  simp only [mmaEff, hk]
  refine (if_congr (Bool.eq_iff_iff.1 hbad) rfl rfl).trans ?_
  cases x.recordsOk && mmaOk x.args && tagsMatch (s.arrive w 1 (fun _ => true)) w x <;> rfl

theorem tagsMatch_whole (hz : Whole z w op x) (h : fldB x.args 0 29 = true ∨ ∀ k, k < x.cnt →
    ((z.tile (x.siteIn z k)).tags.find (fld x.args 0 28 1)).getD 0 = BitVec.ofNat 32 (fld x.args 0x18 0 32)) : tagsMatch z w x = true := by
  rw [tagsMatch, Bool.or_eq_true, tilesLeft_whole hz (fun _ => rfl) rfl, List.all_eq_true]
  exact h.imp_right fun h k hk => beq_iff_eq.2 (h k (List.mem_range.1 hk))

theorem tagsMatch_of_mismatch {k : Nat} (hstart : fldB x.args 0 29 = false) (hk : k ∈ z.tilesLeft w x)
    (h : ((z.tile (x.siteIn z k)).tags.find (fld x.args 0 28 1)).getD 0 ≠ BitVec.ofNat 32 (fld x.args 0x18 0 32)) : tagsMatch z w x = false := by
  rw [tagsMatch, hstart, Bool.false_or, List.all_eq_false]
  exact ⟨k, hk, by simpa using h⟩

/-- What MMA leaves in the elements, tag and mode of a tile of its span, and what it leaves unchanged. -/
theorem mmaTile_results (a : List Byte) (k : Nat) (old : Tile) {i j : Nat} (hi : i < 32) (hj : j < 64) :
    let new := mmaTile a k old
    let bank := fld a 0 28 1
    let p := (mmaSides a k).1
    let q := (mmaSides a k).2
    let lam := lamFor p.f q.f (old.sideMax p i + old.sideMax q j)
    let r0 := macAll lam (0, 0) (old.products p q i j)
    let e := old.el (elKey bank i j)
    let r1 := macAll e.lam (e.win, e.flags) (old.products p q i j)
    (fldB a 0 29 = true → new.el (elKey bank i j) = mkElem r0.2 (anchorOf lam) r0.1 ∧
      new.modes.find bank = (if fldB a 0 30 then some true else none) ∧
      new.tags.find bank = (if BitVec.ofNat 32 (fld a 0x18 0 32) = 0 then none else some (BitVec.ofNat 32 (fld a 0x18 0 32)))) ∧
    (fldB a 0 29 = false → new.el (elKey bank i j) = mkElem r1.2 e.anchor r1.1 ∧ new.tags = old.tags ∧ new.modes = old.modes) ∧
    new.el (elKey (1 - bank) i j) = old.el (elKey (1 - bank) i j) ∧
    new.spad = old.spad ∧ new.poison = old.poison ∧ new.vregs = old.vregs ∧ new.vstat = old.vstat := by
  intro new bank p q lam r0 e r1
  have hel : ∀ n, new.el n = (old.mma bank (fldB a 0 29) p q).el n := mmaMark_el a _
  refine ⟨fun hs => ⟨?_, mmaMark_start hs _⟩, fun hs => ⟨?_, mmaTile_continue hs k old⟩, ?_, mmaTile_frame a k old⟩
  · rw [hel, Tile.mma_el _ _ _ _ _ hi hj, hs]; rfl
  · rw [hel, Tile.mma_el _ _ _ _ _ hi hj, hs, ← anchorOf_lam]; rfl
  · rw [hel, Tile.mma_el_other _ (fld_lt ..) _ _ _ hi hj]

/-! ### WB on one tile (R46 to R48) -/

/-- The bytes that WB writes for an element. -/
def wbBytes (a : List Byte) (e : Elem) : List PB :=
  if fldB a 0 3 then clean (leBytes 16 e.toNat)
  else (leBytes (wbSize a) (convEl (wbFmt (fld a 0 1 2)) (fld a 0 4 2) (fldB a 0 6) (toSigned 7 (fld a 0 7 7)) e).1).map (fun b =>
    (b, (convEl (wbFmt (fld a 0 1 2)) (fld a 0 4 2) (fldB a 0 6) (toSigned 7 (fld a 0 7 7)) e).2))

theorem wbBytes_length (a : List Byte) (e : Elem) : (wbBytes a e).length = wbSize a := by
  unfold wbBytes
  split
  · next h => simp [clean, leBytes_length, wbSize, h]
  · rw [List.length_map, leBytes_length]

/-- Each byte of an element, raw or converted. -/
theorem wbBytes_getElem? {a : List Byte} {m : Nat} (hm : m < wbSize a) (e : Elem) : ∃ psn, (wbBytes a e)[m]? = some (
    if fldB a 0 3 then (leBytes 16 e.toNat).getD m 0
    else (leBytes (wbSize a) (convEl (wbFmt (fld a 0 1 2)) (fld a 0 4 2) (fldB a 0 6) (toSigned 7 (fld a 0 7 7)) e).1).getD m 0, psn) := by
  unfold wbBytes
  split
  · next h =>
    have hlt : m < (leBytes 16 e.toNat).length := by rw [leBytes_length]; simpa [wbSize, h] using hm
    exact ⟨false, by rw [clean, List.getElem?_map, List.getElem?_eq_getElem hlt, List.getD_eq_getElem _ _ hlt]; rfl⟩
  · have hlt : m < (leBytes (wbSize a) (convEl (wbFmt (fld a 0 1 2)) (fld a 0 4 2) (fldB a 0 6) (toSigned 7 (fld a 0 7 7)) e).1).length := by
      rwa [leBytes_length]
    exact ⟨_, by rw [List.getElem?_map, List.getElem?_eq_getElem hlt, List.getD_eq_getElem _ _ hlt]; rfl⟩

/-- What WB writes fits in the scratchpad. -/
theorem wb_fits (a : List Byte) : a32 a 4 + wbSize a * wbCount a ≤ 0x100000 := by
  have haddr : a32 a 4 < 0x100000 := lt_of_le_of_lt (Nat.div_mul_le_self _ _) (fld_lt a 4 0 20)
  have hcount : wbSize a * wbCount a ≤ fitSpad (a32 a 4) (2048 * wbSize a) := Nat.mul_div_le _ _
  unfold fitSpad at hcount
  omega

/-- The elements that WB writes, byte by byte. -/
def Tile.wbData (t : Tile) (a : List Byte) : List PB :=
  (List.range (wbCount a)).flatMap (fun k => wbBytes a (t.el (2048 * fld a 0 0 1 + k)))

theorem Tile.wb_eq (t : Tile) (a : List Byte) : t.wb a = match a32none a 8 with
    | some f => (t.wr (a32 a 4) (t.wbData a)).wr f
        (clean ((List.range (min (wbCount a) (fitSpad f 2048))).map (fun k => (t.el (2048 * fld a 0 0 1 + k)).flags.setWidth 8)))
    | none => t.wr (a32 a 4) (t.wbData a) := by
  unfold Tile.wb
  rfl

/-- WB changes the scratchpad alone. -/
theorem Tile.wb_frame (t : Tile) (a : List Byte) :
    (t.wb a).acc = t.acc ∧ (t.wb a).vregs = t.vregs ∧ (t.wb a).vstat = t.vstat ∧ (t.wb a).tags = t.tags := by
  rw [Tile.wb_eq]
  split <;> simp

theorem Tile.wb_rd {t : Tile} {a : List Byte} (hf : a32none a 8 = none) {n m : Nat} (hn : n < wbCount a) (hm : m < wbSize a) :
    (t.wb a).rd (a32 a 4 + wbSize a * n + m) =
      if fldB a 0 3 then (leBytes 16 (t.el (2048 * fld a 0 0 1 + n)).toNat).getD m 0
      else (leBytes (wbSize a) (convEl (wbFmt (fld a 0 1 2)) (fld a 0 4 2) (fldB a 0 6) (toSigned 7 (fld a 0 7 7))
        (t.el (2048 * fld a 0 0 1 + n))).1).getD m 0 := by
  obtain ⟨psn, hbyte⟩ := wbBytes_getElem? hm (t.el (2048 * fld a 0 0 1 + n))
  simp only [Tile.wb_eq, hf, Tile.wbData]
  exact Tile.wr_pieces_rd (f := fun k => wbBytes a (t.el (2048 * fld a 0 0 1 + k))) (fun k => wbBytes_length a _) (List.getElem?_range hn) hbyte
    (by rw [List.length_range]; exact wb_fits a)

theorem Tile.wb_rd_of_not {t : Tile} {a : List Byte} (hf : a32none a 8 = none) {b : Nat}
    (hb : b < a32 a 4 ∨ a32 a 4 + wbSize a * wbCount a ≤ b) : (t.wb a).rd b = t.rd b := by
  simp only [Tile.wb_eq, hf]
  refine Tile.wr_rd_of_not ?_
  rwa [Tile.wbData, length_flatMap_pieces (fun k => wbBytes_length a _), List.length_range]

theorem Tile.wb_flags {t : Tile} {a : List Byte} {f n : Nat} (hf : a32none a 8 = some f) (hn : n < min (wbCount a) (fitSpad f 2048)) :
    (t.wb a).rd (f + n) = (t.el (2048 * fld a 0 0 1 + n)).flags.setWidth 8 := by
  have hfit : f + n < 0x100000 := by
    have : n < fitSpad f 2048 := lt_of_lt_of_le hn (Nat.min_le_right _ _)
    unfold fitSpad at this
    omega
  simp only [Tile.wb_eq, hf]
  rw [Tile.wr_rd (p := ((t.el (2048 * fld a 0 0 1 + n)).flags.setWidth 8, false)) ?_ hfit]
  rw [clean, List.map_map, List.getElem?_map, List.getElem?_range hn]
  rfl

/-! ### The WB kernel -/

/-- The turn of tile `k` under a WB kernel, with what it reports (R48). -/
def wbTurn (w : Nat) (x : Work) (s : State) (k i : Nat) : State :=
  let r := reportFlags ((List.range (wbCount x.args)).map (fun n => ((s.tile i).el (2048 * fld x.args 0 0 1 + n)).flags))
  ((s.modTile i (fun u => u.wb x.args)).report w r.1 r.2 0 (!fldB x.args 0 3 && r.1 &&& ePsn != 0)).tileDone w k

theorem turn_wbTurn (w : Nat) (x : Work) (s : State) (k i : Nat) : Turn w k i (fun u => u.wb x.args) s (wbTurn w x s k i) :=
  turn_modTile (.refl s) (noted_report ..)

/-- The two ends of a WB kernel: its turns after a clamp is noted, or INVALID. -/
theorem wbEff_eq (hz : z = s.arrive w 2 (fun _ => true)) (hk : z.kernel w 2 = some x) :
    ∃ cut, wbEff w s = if x.recordsOk then (z.clampOnce w cut).runTiles w (wbTurn w x) else z.endInvalid w := by
  subst hz
  simp only [wbEff, hk]
  cases x.recordsOk
  · exact ⟨false, rfl⟩
  · exact ⟨_, rfl⟩

/-! ### MERGE on one tile (R44) -/

theorem Tile.merge_acc (t p : Tile) (bank : Nat) : ∃ m, t.merge p bank = { t with acc := m } := ⟨_, foldl_setEl_eq ..⟩

theorem Tile.merge_el (t p : Tile) (bank : Nat) {n : Nat} (hn : n < 2048) :
    (t.merge p bank).el (2048 * bank + n) = mergeEl (t.el (2048 * bank + n)) (p.el (2048 * bank + n)) :=
  (foldl_setEl_bank bank _ t).1 n hn

theorem Tile.merge_el_other (t p : Tile) {bank n : Nat} (hbank : bank < 2) (hn : n < 2048) :
    (t.merge p bank).el (2048 * (1 - bank) + n) = t.el (2048 * (1 - bank) + n) :=
  (foldl_setEl_bank bank _ t).2 _ (by omega)

/-! ### The pairs of a MERGE kernel (R45, R251) -/

/-- Nothing differs but tiles. -/
def OnlyTiles (s t : State) : Prop := t = { s with tiles := t.tiles }

theorem OnlyTiles.trans {s t u : State} (h : OnlyTiles s t) (k : OnlyTiles t u) : OnlyTiles s u := by
  unfold OnlyTiles at h k ⊢
  rw [k, h]

theorem onlyTiles_modTile (s : State) (i : Nat) (f : Tile → Tile) : OnlyTiles s (s.modTile i f) := rfl

/-- A loop in which each turn gives one tile its new contents, at distinct sites, may take for each turn what was there before the loop. -/
theorem foldl_tiles {F : State → Nat → State} {site : Nat → Nat} {v : Nat → Tile} {l : List Nat} (hsite : (l.map site).Nodup) {s : State}
    (hF : ∀ u k, k ∈ l → OnlyTiles s u → u.tile (site k) = s.tile (site k) → (∀ j, (∀ i ∈ l, j ≠ site i) → u.tile j = s.tile j) →
      OnlyTiles u (F u k) ∧ ∀ j, (F u k).tile j = if j = site k then v k else u.tile j) :
    OnlyTiles s (l.foldl F s) ∧ (∀ k ∈ l, (l.foldl F s).tile (site k) = v k) ∧
      ∀ j, (∀ k ∈ l, j ≠ site k) → (l.foldl F s).tile j = s.tile j := by
  induction l generalizing s with
  | nil => exact ⟨rfl, by simp, fun _ _ => rfl⟩
  | cons k l ih =>
    rw [List.map_cons, List.nodup_cons] at hsite
    obtain ⟨hk, hl⟩ := hsite
    have hne : ∀ i ∈ l, site i ≠ site k := fun i hi h => hk (h ▸ List.mem_map_of_mem hi)
    obtain ⟨honly, htile⟩ := hF s k (List.mem_cons_self ..) rfl rfl fun _ _ => rfl
    have hother : ∀ j, j ≠ site k → (F s k).tile j = s.tile j := fun j hj => by rw [htile, if_neg hj]
    obtain ⟨ihonly, ihtile, ihother⟩ := ih hl (s := F s k) fun u i hi hu hui huj =>
      hF u i (List.mem_cons_of_mem _ hi) (honly.trans hu) (hui.trans (hother _ (hne i hi))) fun j hj =>
        (huj j fun i hi => hj i (List.mem_cons_of_mem _ hi)).trans (hother j (hj k (List.mem_cons_self ..)))
    refine ⟨honly.trans ihonly, fun i hi => ?_, fun j hj => ?_⟩
    · rcases List.mem_cons.1 hi with rfl | hi
      · exact (ihother _ fun j hj => (hne j hj).symm).trans ((htile _).trans (if_pos rfl))
      · exact ihtile i hi
    · exact (ihother j fun i hi => hj i (List.mem_cons_of_mem _ hi)).trans (hother j (hj k (List.mem_cons_self ..)))

/-- The distance and the bank of a MERGE record. -/
def mergeDist (x : Work) : Nat := fld x.args 2 0 11
def mergeBank (x : Work) : Nat := fld x.args 0 0 1

/-- The tiles of a span that send their bank to the tile at the distance below them. -/
def mergeSenders (x : Work) : List Nat := (List.range x.cnt).filter (fun t => t % (2 * mergeDist x) == mergeDist x)

/-- Both tiles of a pair take commands. -/
def mergeLive (x : Work) (s : State) (t : Nat) : Bool := !s.siteDown (x.siteIn s t) && !s.siteDown (x.siteIn s (t - mergeDist x))

/-- May sender `t` be merged into its partner? -/
def mergePair (x : Work) (s : State) (t : Nat) : Bool :=
  (s.tile (x.siteIn s (t - mergeDist x))).mergeOk (s.tile (x.siteIn s t)) (mergeBank x)

/-- Sender `t` has its bank merged into its partner, if the pair may be merged. -/
def mergeTurn (x : Work) (s : State) (t : Nat) : State :=
  if mergeLive x s t && mergePair x s t then
    s.modTile (x.siteIn s (t - mergeDist x)) (fun u => u.merge (s.tile (x.siteIn s t)) (mergeBank x)) else s

/-- The state after the pairs of a MERGE kernel have been merged. -/
def mergePairs (x : Work) (z : State) : State := (mergeSenders x).foldl (mergeTurn x) z

/-- The two ends of a MERGE kernel: the pairs and then the turns of its tiles, INVALID in the end where a pair does not match; or INVALID at once. -/
theorem mergeEff_eq (hz : z = s.arrive w 3 (fun _ => true)) (hk : z.kernel w 3 = some x) : mergeEff w s =
    if !x.recordsOk || mergeDist x = 0 then z.endInvalid w
    else
      let t := (mergePairs x z).runTiles w (fun s k _ => s.tileDone w k)
      if (mergeSenders x).any (fun t => mergeLive x z t && !mergePair x z t) then
        (t.countReg rCTX_INVALID x.ctx 1).modWork w (fun y => { y with status := 1 }) else t := by
  subst hz
  simp only [mergeEff, hk]
  rfl

theorem mem_mergeSenders {t : Nat} : t ∈ mergeSenders x ↔ t < x.cnt ∧ t % (2 * mergeDist x) = mergeDist x := by
  simp [mergeSenders]

theorem dist_le_of_mem {t : Nat} (h : t ∈ mergeSenders x) : mergeDist x ≤ t := by
  obtain ⟨-, hmod⟩ := mem_mergeSenders.1 h
  have := Nat.mod_le t (2 * mergeDist x)
  omega

/-- A tile that receives is a sender's partner: the tiles of a pair leave 0 and DIST modulo twice DIST. -/
theorem receiver_mod {t : Nat} (h : t ∈ mergeSenders x) : (t - mergeDist x) % (2 * mergeDist x) = 0 := by
  obtain ⟨-, hmod⟩ := mem_mergeSenders.1 h
  have hdiv := Nat.div_add_mod t (2 * mergeDist x)
  rw [hmod] at hdiv
  rw [show t - mergeDist x = 2 * mergeDist x * (t / (2 * mergeDist x)) by omega, Nat.mul_mod_right]

theorem add_dist_mem {k : Nat} (hd : mergeDist x ≠ 0) (hk : k % (2 * mergeDist x) = 0) (hlt : k + mergeDist x < x.cnt) :
    k + mergeDist x ∈ mergeSenders x := by
  refine mem_mergeSenders.2 ⟨hlt, ?_⟩
  rw [Nat.add_mod, hk, Nat.zero_add, Nat.mod_mod, Nat.mod_eq_of_lt (by omega)]

/-- What a receiver holds after the pairs have been merged: unchanged where the pair does not match. -/
def mergedTile (x : Work) (z : State) (t : Nat) : Tile :=
  if mergePair x z t then (z.tile (x.siteIn z (t - mergeDist x))).merge (z.tile (x.siteIn z t)) (mergeBank x)
  else z.tile (x.siteIn z (t - mergeDist x))

section
variable (hz : Whole z w op x)
include hz

theorem mergeLive_whole {t : Nat} (ht : t ∈ mergeSenders x) : mergeLive x z t = true := by
  obtain ⟨-, -, -, hfree, -⟩ := hz
  obtain ⟨hlt, -⟩ := mem_mergeSenders.1 ht
  simp [mergeLive, (hfree t hlt).2, (hfree (t - mergeDist x) (by omega)).2]

theorem receivers_nodup : ((mergeSenders x).map (fun t => x.siteIn z (t - mergeDist x))).Nodup := by
  obtain ⟨-, -, -, -, hinj⟩ := hz
  refine List.Nodup.map_on (fun j hj k hk hjk => ?_) (List.nodup_range.filter _)
  obtain ⟨hjlt, -⟩ := mem_mergeSenders.1 hj
  obtain ⟨hklt, -⟩ := mem_mergeSenders.1 hk
  have := hinj _ _ (by omega) (by omega) hjk
  have := dist_le_of_mem hj
  have := dist_le_of_mem hk
  omega

/-- No sender is a receiver. -/
theorem sender_ne_receiver (hd : mergeDist x ≠ 0) {t r : Nat} (ht : t ∈ mergeSenders x) (hr : r ∈ mergeSenders x) :
    x.siteIn z t ≠ x.siteIn z (r - mergeDist x) := by
  obtain ⟨-, -, -, -, hinj⟩ := hz
  obtain ⟨hlt, hmod⟩ := mem_mergeSenders.1 ht
  obtain ⟨hrlt, -⟩ := mem_mergeSenders.1 hr
  intro h
  have htr := hinj _ _ hlt (by omega) h
  have := receiver_mod hr
  rw [← htr, hmod] at this
  exact hd this

/-- After the pairs, each receiver holds what its pair makes of it, and every other tile is as it was. -/
theorem mergePairs_whole (hd : mergeDist x ≠ 0) : OnlyTiles z (mergePairs x z) ∧
    (∀ t ∈ mergeSenders x, (mergePairs x z).tile (x.siteIn z (t - mergeDist x)) = mergedTile x z t) ∧
    ∀ j, (∀ t ∈ mergeSenders x, j ≠ x.siteIn z (t - mergeDist x)) → (mergePairs x z).tile j = z.tile j := by
  refine foldl_tiles (receivers_nodup hz) fun u t ht hu hrecv hother => ?_
  have hsite : ∀ k, x.siteIn u k = x.siteIn z k := fun k => by rw [hu]; rfl
  have hdown : ∀ i, u.siteDown i = z.siteDown i := fun i => by rw [hu]; rfl
  have hsend : u.tile (x.siteIn z t) = z.tile (x.siteIn z t) := hother _ fun r hr => sender_ne_receiver hz hd ht hr
  have hlive : mergeLive x u t = true := by
    have := mergeLive_whole hz ht
    unfold mergeLive at this ⊢
    rwa [hsite, hsite, hdown, hdown]
  have hpair : mergePair x u t = mergePair x z t := by
    unfold mergePair
    rw [hsite, hsite, hrecv, hsend]
  unfold mergeTurn mergedTile
  rw [hlive, Bool.true_and, hpair, hsite, hsite, hsend]
  cases mergePair x z t with
  | true =>
    rw [if_pos rfl, if_pos rfl]
    refine ⟨onlyTiles_modTile .., fun j => ?_⟩
    rw [State.modTile_tile]
    split
    · next h => rw [h, hrecv]
    · rfl
  | false =>
    rw [if_neg (by decide), if_neg (by decide)]
    refine ⟨rfl, fun j => ?_⟩
    split
    · next h => rw [h, hrecv]
    · rfl

end

theorem mergePair_add (x : Work) (z : State) (k : Nat) : mergePair x z (k + mergeDist x) =
    (z.tile (x.siteIn z k)).mergeOk (z.tile (x.siteIn z (k + mergeDist x))) (mergeBank x) := by
  rw [mergePair, Nat.add_sub_cancel]

/-- The tiles of a MERGE kernel only count as done. -/
theorem turn_merge (w : Nat) (v : State) (k i : Nat) : Turn w k i id v (v.tileDone w k) :=
  turn_tileDone (.refl v) rfl (fun _ _ => rfl) rfl

section
variable (hz : Whole z w op x) (hd : mergeDist x ≠ 0)
include hz hd

/-- A MERGE kernel runs on its span, and leaves every tile as its pair, if any, left it. -/
theorem merge_span : RanOnSpan z w x (finish s ((mergePairs x z).runTiles w (fun s k _ => s.tileDone w k))) ∧
    ∀ k, k < x.cnt → (finish s ((mergePairs x z).runTiles w (fun s k _ => s.tileDone w k))).tile (x.siteIn z k) =
      (mergePairs x z).tile (x.siteIn z k) := by
  obtain ⟨honly, -, hother⟩ := mergePairs_whole hz hd
  refine runTiles_span (g := fun _ => id) hz (by rw [honly]; rfl) (fun i => by rw [honly]; rfl) (turn_merge w) fun i hi => hother i fun t ht => ?_
  have := (mem_mergeSenders.1 ht).1
  exact hi _ (by omega)

theorem merge_regs : ((mergePairs x z).runTiles w (fun s k _ => s.tileDone w k)).regs = z.regs := by
  obtain ⟨honly, -, -⟩ := mergePairs_whole hz hd
  have hloop : ∀ (l : List Nat) (u : State), (l.foldl (fun v k => v.tileDone w k) u).regs = u.regs := by
    intro l
    induction l with
    | nil => exact fun _ => rfl
    | cons k l ih => exact fun u => (ih _).trans (modWork_regs ..)
  rw [State.runTiles, kernelEnd_regs, foldTiles_whole hz (by rw [honly]; rfl) (fun i => by rw [honly]; rfl) fun v k i => (turn_merge w v k i).run,
    hloop, honly]

/-- A tile that receives holds what its pair makes of it. -/
theorem mergePairs_receiver {k : Nat} (hk : k % (2 * mergeDist x) = 0) (hlt : k + mergeDist x < x.cnt) :
    (mergePairs x z).tile (x.siteIn z k) = mergedTile x z (k + mergeDist x) := by
  obtain ⟨-, hrecv, -⟩ := mergePairs_whole hz hd
  rw [← hrecv _ (add_dist_mem hd hk hlt), Nat.add_sub_cancel]

/-- A tile that receives nothing is as it was. -/
theorem mergePairs_other {k : Nat} (hlt : k < x.cnt) (hk : k % (2 * mergeDist x) ≠ 0 ∨ x.cnt ≤ k + mergeDist x) :
    (mergePairs x z).tile (x.siteIn z k) = z.tile (x.siteIn z k) := by
  obtain ⟨-, -, hother⟩ := mergePairs_whole hz hd
  obtain ⟨-, -, -, -, hinj⟩ := hz
  refine hother _ fun t ht h => ?_
  obtain ⟨htlt, -⟩ := mem_mergeSenders.1 ht
  have hkt := hinj _ _ hlt (by omega) h
  have := dist_le_of_mem ht
  rcases hk with hk | hk
  · exact hk (hkt ▸ receiver_mod ht)
  · omega

/-- Is there a pair of a whole MERGE kernel that does not match? -/
theorem mergeBad_iff : (mergeSenders x).any (fun t => mergeLive x z t && !mergePair x z t) = true ↔
    ∃ k, k % (2 * mergeDist x) = 0 ∧ k + mergeDist x < x.cnt ∧ mergePair x z (k + mergeDist x) = false := by
  rw [List.any_eq_true]
  constructor
  · rintro ⟨t, ht, hbad⟩
    rw [mergeLive_whole hz ht, Bool.true_and, Bool.not_eq_true'] at hbad
    have hadd := Nat.sub_add_cancel (dist_le_of_mem ht)
    exact ⟨t - mergeDist x, receiver_mod ht, by rw [hadd]; exact (mem_mergeSenders.1 ht).1, by rw [hadd]; exact hbad⟩
  · rintro ⟨k, hk, hlt, hbad⟩
    have hmem := add_dist_mem hd hk hlt
    exact ⟨_, hmem, by rw [mergeLive_whole hz hmem, hbad]; rfl⟩

end

/-- A tile and its partner merged: the elements of the bank add, and nothing else of the tile changes. -/
theorem merge_results (old p : Tile) {bank n : Nat} (hbank : bank < 2) (hn : n < 2048) :
    (old.merge p bank).el (2048 * bank + n) = mergeEl (old.el (2048 * bank + n)) (p.el (2048 * bank + n)) ∧
    (old.merge p bank).el (2048 * (1 - bank) + n) = old.el (2048 * (1 - bank) + n) ∧
    (old.merge p bank).spad = old.spad ∧ (old.merge p bank).vregs = old.vregs ∧ (old.merge p bank).tags = old.tags := by
  refine ⟨old.merge_el p bank hn, old.merge_el_other p hbank hn, ?_⟩
  obtain ⟨m, h⟩ := old.merge_acc p bank
  rw [h]
  exact ⟨rfl, rfl, rfl⟩

/-! ### The kernels -/

/-- A whole MMA kernel whose records, formats and tags are in order runs on its span. -/
theorem mma_runs (hp : Powered s) (hz : z = s.arrive w 1 (fun _ => true)) (hw : Whole z w 1 x) (hok : mmaOk x.args = true)
    (htag : tagsMatch z w x = true) : Completes (.mma w) s (RanAs z w x (mmaTile x.args)) := by
  obtain ⟨hk, hrec, -⟩ := id hw
  exact completes_runTiles rfl rfl hp hw (.refl z) (turn_mmaTurn w x) ((mmaEff_eq hz hk).trans (if_pos (by rw [hrec, hok, htag]; rfl)))

/-- A whole WB kernel whose records are in order runs on its span. -/
theorem wb_runs (hp : Powered s) (hz : z = s.arrive w 2 (fun _ => true)) (hw : Whole z w 2 x) :
    Completes (.wb w) s (RanAs z w x (fun _ u => u.wb x.args)) := by
  obtain ⟨hk, hrec, -⟩ := id hw
  obtain ⟨cut, heff⟩ := wbEff_eq hz hk
  exact completes_runTiles rfl rfl hp hw (noted_clampOnce z w cut) (turn_wbTurn w x) (heff.trans (if_pos hrec))

section
variable (hp : Powered s) (hz : z = s.arrive w 3 (fun _ => true)) (hw : Whole z w 3 x) (hd : mergeDist x ≠ 0)
include hp hz hw hd

/-- A whole MERGE kernel in which every pair matches runs on its span. -/
theorem merge_runs (hpairs : ∀ k, k % (2 * mergeDist x) = 0 → k + mergeDist x < x.cnt → mergePair x z (k + mergeDist x) = true) :
    Completes (.merge w) s (fun t => RanOnSpan z w x t ∧ ∀ k, k < x.cnt → t.tile (x.siteIn z k) = (mergePairs x z).tile (x.siteIn z k)) := by
  obtain ⟨hk, hrec, -⟩ := id hw
  have hgood : ¬ (mergeSenders x).any (fun t => mergeLive x z t && !mergePair x z t) = true := fun h => by
    obtain ⟨k, hmod, hlt, hbad⟩ := (mergeBad_iff hw hd).1 h
    exact Bool.noConfusion (hbad.symm.trans (hpairs k hmod hlt))
  refine completes_run rfl rfl hp ?_
  rw [mergeEff_eq hz hk, if_neg (by simp [hrec, hd])]
  dsimp only
  rw [if_neg hgood]
  exact merge_span hw hd

/-- A pair that does not match keeps its state, and the kernel is INVALID and counted. -/
theorem merge_mismatch {k : Nat} (hmod : k % (2 * mergeDist x) = 0) (hlt : k + mergeDist x < x.cnt)
    (hbad : mergePair x z (k + mergeDist x) = false) : Completes (.merge w) s (fun t =>
      t.tile (x.siteIn z k) = z.tile (x.siteIn z k) ∧ (∃ y, t.work? w = some y ∧ y.status = 1) ∧
      t.reg rCTX_INVALID x.ctx = satAdd 32 (z.reg rCTX_INVALID x.ctx) 1) := by
  obtain ⟨hk, hrec, -⟩ := id hw
  refine completes_run rfl rfl hp ?_
  rw [mergeEff_eq hz hk, if_neg (by simp [hrec, hd])]
  dsimp only
  rw [if_pos ((mergeBad_iff hw hd).2 ⟨k, hmod, hlt, hbad⟩)]
  obtain ⟨⟨⟨y, hy, -⟩, -⟩, htile⟩ := merge_span (s := s) hw hd
  have hregs := merge_regs hw hd
  rw [finish_work] at hy
  refine ⟨?_, ⟨{ y with status := 1 }, ?_, rfl⟩, ?_⟩
  · rw [finish_tile, State.tile, modWork_tiles]
    refine ((finish_tile s _ _).symm.trans (htile k (by omega))).trans ?_
    rw [mergePairs_receiver hw hd hmod hlt, mergedTile, if_neg (by rw [hbad]; decide), Nat.add_sub_cancel]
  · rw [finish_work, State.modWork_work_self]
    exact congrArg _ hy
  · rw [finish_reg, State.reg, modWork_regs]
    refine ((State.setReg_reg_self ..).trans (Nat.mod_eq_of_lt (satAdd_lt ..))).trans ?_
    rw [State.reg, hregs, State.reg]

end

end

/-- Settles O39: a kernel that runs takes each tile to what one turn makes of it (`mma_runs`, `wb_runs`, `merge_runs`), and the others end INVALID
(`merge_mismatch`, `completes_endInvalid`). -/
theorem matrixKernelResults : Obligations.MatrixKernelResults := by
  unfold Obligations.MatrixKernelResults
  intro s z w x hp
  refine ⟨fun hz hw hok htag => ?_, fun hz hw => ?_, fun hz hw hd hpairs => ?_, fun hz hw hd k hk hlt hbad => ?_,
    fun hx => ⟨fun hz hk hbad => ?_, fun hz hk hbad => ?_, fun hz hk hbad => ?_⟩⟩
  · refine (mma_runs hp hz hw hok (tagsMatch_whole hw htag)).imp fun t ⟨hran, htile⟩ => ⟨hran, fun k i j hk hi hj => ?_⟩
    dsimp only
    rw [htile k hk]
    exact mmaTile_results x.args k _ hi hj
  · refine (wb_runs hp hz hw).imp fun t ⟨hran, htile⟩ => ⟨hran, fun k hk => ?_⟩
    dsimp only
    rw [htile k hk]
    obtain ⟨hacc, hvregs, hvstat, htags⟩ := (z.tile (x.siteIn z k)).wb_frame x.args
    exact ⟨hacc, hvregs, hvstat, htags, fun hf n m hn hm => Tile.wb_rd hf hn hm, fun hf b hb => Tile.wb_rd_of_not hf hb,
      fun f n hf hn => Tile.wb_flags hf hn⟩
  · have hmatch : ∀ k, k % (2 * mergeDist x) = 0 → k + mergeDist x < x.cnt → mergePair x z (k + mergeDist x) = true :=
      fun k hmod hlt => (mergePair_add x z k).trans (hpairs k hmod hlt)
    refine (merge_runs hp hz hw hd hmatch).imp fun t ⟨hran, htile⟩ => ⟨hran, fun k n hk hn => ⟨fun hmod hlt => ?_, fun hother => ?_⟩⟩
    · rw [htile k hk, mergePairs_receiver hw hd hmod hlt, mergedTile, if_pos (hmatch k hmod hlt), Nat.add_sub_cancel]
      exact merge_results _ _ (fld_lt ..) hn
    · rw [htile k hk, mergePairs_other hw hd hk hother]
  · exact merge_mismatch hp hz hw hd hk hlt ((mergePair_add x z k).trans hbad)
  · refine completes_endInvalid rfl rfl hp hk hx (hz ▸ arrive_pending ..) ((mmaEff_eq hz hk).trans (if_neg ?_))
    rcases hbad with hrec | hok | ⟨hstart, k, hleft, htag⟩
    · simp [hrec]
    · simp [hok]
    · simp [tagsMatch_of_mismatch hstart hleft htag]
  · obtain ⟨cut, heff⟩ := wbEff_eq hz hk
    exact completes_endInvalid rfl rfl hp hk hx (hz ▸ arrive_pending ..) (heff.trans (if_neg (by simp [hbad])))
  · refine completes_endInvalid rfl rfl hp hk hx (hz ▸ arrive_pending ..) ((mergeEff_eq hz hk).trans (if_pos ?_))
    rcases hbad with hrec | hd
    · simp [hrec]
    · simp [mergeDist, hd]

end Sys2Proof.Machine
end

section
/-!
PROOFS. The VEC kernel (R35, R51 to R53, R251).
-/
namespace Sys2Proof.Machine

/-! ### What fits in the scratchpad (row 1 of Table 14) -/

theorem foldl_min_le (l : List Nat) (m : Nat) : l.foldl min m ≤ m ∧ ∀ x ∈ l, l.foldl min m ≤ x := by
  induction l generalizing m with
  | nil => simp
  | cons y l ih =>
    obtain ⟨hm, hl⟩ := ih (min m y)
    refine ⟨hm.trans (Nat.min_le_left ..), fun x hx => ?_⟩
    rcases List.mem_cons.1 hx with rfl | hx
    · exact hm.trans (Nat.min_le_right ..)
    · exact hl x hx

/-- The words of an operation that writes one for each element fit. -/
theorem vecFit_le_words {a : List Byte} (h : vOp a < 0x20 ∨ vOp a = 0x32) : vecFit a ≤ roomFor (vDst a) 4 1 := by
  unfold vecFit
  dsimp only
  split
  any_goals omega
  exact (foldl_min_le _ _).2 _ (by simp)

/-- The words of a reduction fit, one for each group of 64. -/
theorem vecFit_le_groups {a : List Byte} (h : vOp a = 0x30 ∨ vOp a = 0x31) : vecFit a ≤ (0x100000 - vDst a) / 4 * 64 := by
  unfold vecFit
  dsimp only
  rcases h with h | h <;> (simp only [h]; exact (foldl_min_le _ _).2 _ (by simp))

theorem words_fit {a : List Byte} {n : Nat} (h : vOp a < 0x20 ∨ vOp a = 0x32) (hn : n ≤ vecFit a) : vDst a + 4 * n ≤ 0x100000 := by
  have hroom := vecFit_le_words h
  have hdst : vDst a < 0x100000 := fld_lt a 0x10 0 20
  unfold roomFor at hroom
  omega

theorem groups_fit {a : List Byte} {n : Nat} (h : vOp a = 0x30 ∨ vOp a = 0x31) (hn : n ≤ vecFit a) : vDst a + 4 * ((n + 63) / 64) ≤ 0x100000 := by
  have hroom := vecFit_le_groups h
  have hdst : vDst a < 0x100000 := fld_lt a 0x10 0 20
  omega

/-! ### What an operation writes (R52) -/

/-- An elementwise operation writes one lane for each element, from the lanes of its own operands. -/
theorem vec_elementwise {a : List Byte} (h : vOp a < 0x20) (t : Tile) (n : Nat) : t.vec a n = lanesOut a ((List.range n).map (fun i =>
    (vLane a (t.lane (vSrc1 a) i).1 (if 2 ≤ vArity (vOp a) then t.lane (vSrc2 a) i else (0, false)).1
        (if 3 ≤ vArity (vOp a) then t.lane (vSrc3 a) i else (0, false)).1,
      (t.lane (vSrc1 a) i).2 || (if 2 ≤ vArity (vOp a) then t.lane (vSrc2 a) i else (0, false)).2 ||
        (if 3 ≤ vArity (vOp a) then t.lane (vSrc3 a) i else (0, false)).2))) := by
  unfold Tile.vec
  dsimp only
  split
  any_goals omega
  rfl

/-- The lanes of the first source. -/
def Tile.lanes (t : Tile) (a : List Byte) (n : Nat) : List (Nat × Bool) := (List.range n).map (fun i => t.lane (vSrc1 a) i)

/-- A reduction writes the tree of each group of 64 lanes. -/
theorem vec_rmax {a : List Byte} (h : vOp a = 0x30) (t : Tile) (n : Nat) : t.vec a n =
    lanesOut a ((chunks 64 (t.lanes a n)).map (fun g => (laneTree (fminmax true) (g.map (fun p => p.1)), g.any (fun p => p.2)))) := by
  unfold Tile.vec
  simp only [h]
  rfl

theorem vec_rsum {a : List Byte} (h : vOp a = 0x31) (t : Tile) (n : Nat) : t.vec a n =
    lanesOut a ((chunks 64 (t.lanes a n)).map (fun g => (laneTree fadd (g.map (fun p => p.1)), g.any (fun p => p.2)))) := by
  unfold Tile.vec
  simp only [h]
  rfl

/-- ACCRD writes each element converted to FP32. -/
theorem vec_accrd {a : List Byte} (h : vOp a = 0x32) (t : Tile) (n : Nat) : (t.vec a n).arrays = (lanesOut a ((List.range n).map (fun i =>
    (((convEl fFP32 (vRnd a) false 0 (t.accAt (vSrc1 a / 16 + i))).1, convFlags fFP32 (vRnd a) false 0 (t.accAt (vSrc1 a / 16 + i))),
      (convEl fFP32 (vRnd a) false 0 (t.accAt (vSrc1 a / 16 + i))).2)))).arrays := by
  unfold Tile.vec
  simp only [h, List.map_map]
  rfl

theorem chunks_length {α : Type} (n : Nat) (l : List α) : (chunks n l).length = (l.length + n - 1) / n := by simp [chunks]

theorem chunks_map {α β : Type} (f : α → β) (n : Nat) (l : List α) : chunks n (l.map f) = (chunks n l).map (List.map f) := by
  simp [chunks, List.map_take, List.map_drop]

/-! ### A tile under a VEC kernel -/

/-- What a VEC kernel over `n` elements makes of a tile. -/
def vecTile (a : List Byte) (n : Nat) (u : Tile) : Tile :=
  { (u.vec a n).arrays.foldl (fun u p => u.wr p.1 p.2) u with vstat := (u.vec a n).vs }

/-- Accumulators and vector registers stay. -/
theorem vecTile_frame (a : List Byte) (n : Nat) (u : Tile) : (vecTile a n u).acc = u.acc ∧ (vecTile a n u).vregs = u.vregs := by
  have hloop : ∀ (l : List (Nat × List PB)) (v : Tile), (l.foldl (fun u p => u.wr p.1 p.2) v).acc = v.acc ∧
      (l.foldl (fun u p => u.wr p.1 p.2) v).vregs = v.vregs := by
    intro l
    induction l with
    | nil => exact fun _ => ⟨rfl, rfl⟩
    | cons p l ih =>
      intro v
      obtain ⟨hacc, hvregs⟩ := ih (v.wr p.1 p.2)
      exact ⟨hacc.trans (Tile.wr_acc ..), hvregs.trans (Tile.wr_vregs ..)⟩
  exact hloop (u.vec a n).arrays u

section
variable {a : List Byte} {n : Nat} {u : Tile} {l : List ((Nat × VFlags) × Bool)} (h : (u.vec a n).arrays = (lanesOut a l).arrays)
include h

/-- Lanes written from DST on read back as words. -/
theorem vecTile_word {i : Nat} {x : (Nat × VFlags) × Bool} (hx : l[i]? = some x) (hfit : vDst a + 4 * l.length ≤ 0x100000) :
    leNat (bytesOf ((vecTile a n u).rdN (vDst a + 4 * i) 4)) = x.1.1 % 2 ^ 32 := by
  have hwords := Tile.wr_words (v := fun p : (Nat × VFlags) × Bool => p.1.1) (psn := fun p => p.2) (t := u) hx hfit
  rw [← hwords, vecTile, h]
  rfl

/-- Bytes outside the lanes stay. -/
theorem vecTile_rd_of_not {b : Nat} (hb : b < vDst a ∨ vDst a + 4 * l.length ≤ b) : (vecTile a n u).rd b = u.rd b := by
  have hlen := length_flatMap_pieces (f := fun p : (Nat × VFlags) × Bool => (leBytes 4 p.1.1).map (fun b => (b, p.2)))
    (fun p => by rw [List.length_map, leBytes_length]) l
  rw [← hlen] at hb
  rw [vecTile, h]
  exact Tile.wr_rd_of_not hb

end

/-- A reduction's groups: the tree of each, as a word. -/
theorem vecTile_group {a : List Byte} {n g : Nat} {u : Tile} {f : Nat → Nat → Nat × VFlags} (hop : vOp a = 0x30 ∨ vOp a = 0x31)
    (hn : n ≤ vecFit a) (h : u.vec a n =
      lanesOut a ((chunks 64 (u.lanes a n)).map (fun g => (laneTree f (g.map (fun p => p.1)), g.any (fun p => p.2))))) (hg : g < (n + 63) / 64) :
    leNat (bytesOf ((vecTile a n u).rdN (vDst a + 4 * g) 4)) =
      (laneTree f ((chunks 64 ((List.range n).map (fun i => (u.lane (vSrc1 a) i).1))).getD g [])).1 % 2 ^ 32 := by
  have hlanes : (List.range n).map (fun i => (u.lane (vSrc1 a) i).1) = (u.lanes a n).map (fun p => p.1) := by
    rw [Tile.lanes, List.map_map]; rfl
  have hlen : (chunks 64 (u.lanes a n)).length = (n + 63) / 64 := by
    rw [chunks_length, Tile.lanes, List.length_map, List.length_range]
    rfl
  have hg' : g < (chunks 64 (u.lanes a n)).length := by rw [hlen]; exact hg
  rw [hlanes, chunks_map, List.getD_eq_getElem _ _ (by rwa [List.length_map]), List.getElem_map,
    vecTile_word (congrArg VOut.arrays h) (x := _) (by rw [List.getElem?_map, List.getElem?_eq_getElem hg', Option.map_some])
      (by rw [List.length_map, hlen]; exact groups_fit hop hn)]

/-! ### The VEC kernel -/

section
variable {s z : State} {w : Nat} {x : Work}

/-- A change of a tile hangs on the tile as it is. -/
theorem modTile_congr {i : Nat} {f g : Tile → Tile} (h : f (s.tile i) = g (s.tile i)) : s.modTile i f = s.modTile i g :=
  congrArg (fun t => { s with tiles := s.tiles.put (fun _ => default) i t }) h

/-- The turn of a tile under a VEC kernel, with what it reports (R48, R52). -/
def vecTurn (w : Nat) (x : Work) (n : Nat) (s : State) (k i : Nat) : State :=
  let o := (s.tile i).vec x.args n
  let r := reportFlags o.els
  ((s.modTile i (fun u => { o.arrays.foldl (fun u p => u.wr p.1 p.2) u with vstat := o.vs })).report w r.1 r.2 o.vs
    (o.arrays.any (fun p => anyPsn p.2))).tileDone w k

theorem turn_vecTurn (w : Nat) (x : Work) (n : Nat) (s : State) (k i : Nat) : Turn w k i (vecTile x.args n) s (vecTurn w x n s k i) := by
  have hsame : s.modTile i (fun u => { ((s.tile i).vec x.args n).arrays.foldl (fun u p => u.wr p.1 p.2) u with
      vstat := ((s.tile i).vec x.args n).vs }) = s.modTile i (vecTile x.args n) := modTile_congr rfl
  unfold vecTurn
  dsimp only
  rw [hsame]
  exact turn_modTile (.refl s) (noted_report ..)

/-- The ends of a VEC kernel: its turns, at once where nothing fits, or INVALID. -/
theorem vecEff_eq {vop : Nat} (hz : z = s.arrive w 7 (fun a => vOp a == vop)) (hk : z.kernel w 7 = some x) (hop : vOp x.args = vop) :
    ∃ cut, vecEff vop w s =
      if !x.recordsOk || !vecOk x.args then z.endInvalid w
      else if min (vNum x.args) (vecFit x.args) = 0 then (z.clampOnce w cut).completeAs w 0
      else (z.clampOnce w cut).runTiles w (vecTurn w x (min (vNum x.args) (vecFit x.args))) := by
  subst hz
  refine ⟨decide (min (vNum x.args) (vecFit x.args) < vNum x.args), ?_⟩
  have hsame : ¬ (vOp x.args != vop) = true := by simp [hop]
  simp only [vecEff, hk]
  rw [if_neg hsame]
  rfl

/-- A top-level kernel with nothing to do ends at once, with its notes. -/
theorem completeAs_ended {u : State} {op st : Nat} (hk : z.kernel w op = some x) (hx : Unrecorded x) (hu : Noted z u) (hp : z.pending = s.pending) :
    ThenSchedules z x.hood (fun v => Ended z w x v ∧ v.tiles = z.tiles ∧ v.mem = z.mem) (finish s (u.completeAs w st)) := by
  obtain ⟨hw, -, hkind⟩ := kernel_spec hk
  obtain ⟨y, hy, hyx⟩ := hu.work hw
  have hring : y.ring = x.ring := unnoted_congr Work.ring (fun _ => rfl) hyx
  have hhood : y.hood = x.hood := unnoted_congr Work.hood (fun _ => rfl) hyx
  have hykind : y.kind = 1 := (unnoted_congr Work.kind (fun _ => rfl) hyx).trans hkind
  have hyunrec : Unrecorded y := by
    obtain ⟨hparent, hcpl⟩ := hx
    exact ⟨(unnoted_congr Work.parent (fun _ => rfl) hyx).trans hparent, (unnoted_congr (dCpl ·.desc) (fun _ => rfl) hyx).trans hcpl⟩
  have hset : (u.modWork w (fun y => { y with status := st, ran := true, phase := .finished })).work? w =
      some { y with status := st, ran := true, phase := .finished } := by
    rw [State.modWork_work_self, hy, Option.map_some]
  obtain ⟨⟨hgone, hstarted⟩, -, hmem, -, htiles⟩ := endTop_ended hset hykind hyunrec
  refine ⟨_, ⟨⟨hgone, ?_⟩, ?_, ?_⟩, ?_⟩
  · rw [← hring]
    refine hstarted.trans ?_
    rw [State.modWork_eq, hu.run]; rfl
  · rw [htiles, modWork_tiles, hu.tiles]
  · rw [hmem, State.modWork_eq, hu.run]
  · simp only [State.completeAs, State.complete, hset, finish, hp, hhood]

/-- Each VEC row is the kernel of its VOP. -/
theorem exec_vecRows {p : Nat × Instr} (h : p ∈ vecRows w) : p.2.wf = true ∧ exec p.2 s = run p.2.wf (vecEff p.1 w) s := by
  simp only [vecRows, List.mem_cons, List.not_mem_nil, or_false] at h
  rcases h with rfl | rfl | rfl | rfl | rfl | rfl | rfl | rfl | rfl | rfl | rfl | rfl | rfl | rfl | rfl | rfl | rfl | rfl | rfl | rfl | rfl |
    rfl | rfl
  all_goals exact ⟨rfl, rfl⟩

/-- A whole VEC kernel whose records are in order runs on its span where its arrays have room for an element. -/
theorem vec_runs {c : Instr} (hp : Powered s) (hrow : (vOp x.args, c) ∈ vecRows w) (hz : z = s.arrive w 7 (fun a => vOp a == vOp x.args))
    (hw : Whole z w 7 x) (hok : vecOk x.args = true) (hpos : min (vNum x.args) (vecFit x.args) ≠ 0) :
    Completes c s (RanAs z w x (fun _ => vecTile x.args (min (vNum x.args) (vecFit x.args)))) := by
  obtain ⟨hk, hrec, -⟩ := id hw
  obtain ⟨hwf, hexec⟩ := exec_vecRows (s := s) hrow
  obtain ⟨cut, heff⟩ := vecEff_eq hz hk rfl
  rw [if_neg (by simp [hrec, hok]), if_neg hpos] at heff
  exact completes_runTiles hexec hwf hp hw (noted_clampOnce z w cut) (turn_vecTurn w x _) heff

end

/-- Settles O40: a VEC row is the kernel of its VOP, whose turn makes each tile `vecTile`, and what an operation writes is said by kind:
`vec_elementwise`, `vec_rmax`, `vec_rsum`, `vec_accrd`. -/
theorem vectorKernelResults : Obligations.VectorKernelResults := by
  unfold Obligations.VectorKernelResults
  rintro s z w n x ⟨vop, c⟩ hp hrow rfl hz
  obtain ⟨hwf, hexec⟩ := exec_vecRows (s := s) hrow
  have hpending : z.pending = s.pending := hz ▸ arrive_pending ..
  refine ⟨fun hw hok hn hpos => ?_, fun hk hx hbad => ?_, fun hw hok hzero hx => ?_⟩
  · refine (vec_runs hp hrow hz hw hok (by omega)).imp fun t ⟨hran, htile⟩ => ⟨hran, fun k hk => ?_⟩
    rw [← hn] at htile
    dsimp only
    rw [htile k hk]
    generalize z.tile (x.siteIn z k) = old
    have hfit : n ≤ vecFit x.args := hn ▸ Nat.min_le_right ..
    obtain ⟨hacc, hvregs⟩ := vecTile_frame x.args n old
    refine ⟨rfl, hacc, hvregs, fun hop => ?_, fun hop g hg => ?_, fun hop g hg => ?_, fun hop i hi hel => ?_⟩
    · have hvec := congrArg VOut.arrays (vec_elementwise hop old n)
      have hroom := words_fit (Or.inl hop) hfit
      refine ⟨fun i hi => ?_, fun b hb => vecTile_rd_of_not hvec (by simpa using hb)⟩
      rw [vecTile_word hvec (x := _) (by rw [List.getElem?_map, List.getElem?_range hi, Option.map_some]) (by simpa using hroom)]
      simp only [apply_ite Prod.fst]
    · exact vecTile_group (Or.inl hop) hfit (vec_rmax hop old n) hg
    · exact vecTile_group (Or.inr hop) hfit (vec_rsum hop old n) hg
    · have hroom := words_fit (Or.inr hop) hfit
      rw [vecTile_word (vec_accrd hop old n) (x := _) (by rw [List.getElem?_map, List.getElem?_range hi, Option.map_some]) (by simpa using hroom)]
      simp only [Tile.accAt, if_pos hel]
  · obtain ⟨cut, heff⟩ := vecEff_eq hz hk rfl
    exact completes_endInvalid hexec hwf hp hk hx hpending (heff.trans (if_pos (by simpa using hbad)))
  · obtain ⟨hk, hrec, -⟩ := id hw
    obtain ⟨cut, heff⟩ := vecEff_eq hz hk rfl
    refine completes_run hexec hwf hp ?_
    rw [heff, if_neg (by simp [hrec, hok]), if_pos hzero]
    exact completeAs_ended hk hx (noted_clampOnce z w cut) hpending

end Sys2Proof.Machine
end

section
/-!
PROOFS. The layout of a KV section (R61, R62), as the attention engine reads it and as the codec writes it.
-/
namespace Sys2Proof.Machine

/-! ### Bytes, nibbles and pieces -/

/-- The number of one byte of a list, where a byte that is not there counts as zero. -/
theorem leNat_byteAt (l : List PB) (o : Nat) : leNat (bytesOf ((l.drop o).take 1)) = (l.getD o (0, false)).1.toNat := by
  rcases lt_or_ge o l.length with ho | ho
  · rw [List.take_one_drop_eq_of_lt_length ho, List.getD_eq_getElem _ _ ho]
    simp [bytesOf, leNat]
  · rw [List.drop_eq_nil_of_le ho, List.getD_eq_default _ _ ho]
    rfl

theorem leBytes_getElem? (n v : Nat) {i : Nat} (hi : i < n) : (leBytes n v)[i]? = some (BitVec.ofNat 8 (v / 256 ^ i)) := by
  induction n generalizing v i with
  | zero => omega
  | succ n ih =>
    cases i with
    | zero => simp [leBytes]
    | succ i => rw [leBytes, List.getElem?_cons_succ, ih _ (by omega), Nat.div_div_eq_div_mul, ← pow_succ']

/-- The sum of codes by their powers of 16 is the number with these digits. -/
theorem sum_codes_eq_ofDigits (l : List Nat) :
    ((List.range l.length).zip l).foldl (fun r p => r + p.2 * 16 ^ p.1) 0 = Nat.ofDigits 16 l := by
  have hfrom : ∀ k r, ((List.range' k l.length).zip l).foldl (fun r p => r + p.2 * 16 ^ p.1) r = r + 16 ^ k * Nat.ofDigits 16 l := by
    induction l with
    | nil => simp [Nat.ofDigits]
    | cons c l ih =>
      intro k r
      rw [List.length_cons, List.range'_succ, List.zip_cons_cons, List.foldl_cons, ih, Nat.ofDigits_cons]
      ring
  rw [List.range_eq_range', hfrom]
  simp

/-- A digit of a number that is given by its digits. -/
theorem ofDigits_digit {b : Nat} {l : List Nat} (hl : ∀ c ∈ l, c < b) {n c : Nat} (hc : l[n]? = some c) :
    Nat.ofDigits b l / b ^ n % b = c := by
  obtain ⟨hn, rfl⟩ := List.getElem?_eq_some_iff.1 hc
  have hlt := hl l[n] (List.getElem_mem hn)
  rw [Nat.ofDigits_div_pow_eq_ofDigits_drop n (Nat.zero_lt_of_lt hlt) l hl, List.drop_eq_getElem_cons hn, Nat.ofDigits_cons,
    Nat.add_mul_mod_self_left, Nat.mod_eq_of_lt hlt]

/-- The place of an element in pieces of one length, numbered from 0. -/
theorem getElem?_flatMap_range {β : Type} {f : Nat → List β} {m k i j : Nat} (hf : ∀ i, i < m → (f i).length = k) (hi : i < m) (hj : j < k) :
    ((List.range m).flatMap f)[k * i + j]? = (f i)[j]? := by
  rw [← List.map_coe_finRange_eq_range, List.flatMap_map]
  exact getElem?_flatMap_pieces (f := fun i : Fin m => f i) (fun i => hf i i.isLt) (x := ⟨i, hi⟩) (by simp [hi]) hj

/-- Bytes from a place on. -/
theorem getElem?_take_drop {l : List PB} {o k j : Nat} (hj : j < k) (hfit : o + k ≤ l.length) :
    ((l.drop o).take k)[j]? = some (l.getD (o + j) (0, false)) := by
  rw [List.getElem?_take_of_lt hj, List.getElem?_drop, List.getD_eq_getElem _ _ (by omega), List.getElem?_eq_getElem]

theorem length_take_drop {l : List PB} {o k : Nat} (hfit : o + k ≤ l.length) : ((l.drop o).take k).length = k := by
  rw [List.length_take, List.length_drop]
  omega

/-! ### A slot of a section as it is read (R69) -/

section
variable {g : Region} {sec : List PB} {t n : Nat}

theorem expand_kv8 (h : g.kv4 = false) : (g.expand sec t).map (fun p => p.1) = (List.range (g.d / 64)).flatMap (fun i =>
    ((sec.drop (g.elOff t + 64 * i)).take 64).map (fun p => expand8 p.1.toNat (sec.getD (g.scOff t + i) (0, false)).1.toNat g.sigma)) := by
  simp only [Region.expand, h, List.map_flatMap, Bool.false_eq_true, if_false, List.map_map, leNat_byteAt]
  rfl

theorem expand_kv4 (h : g.kv4 = true) : (g.expand sec t).map (fun p => p.1) = (List.range (g.d / 64)).flatMap (fun i =>
    ((sec.drop (g.elOff t + 32 * i)).take 32).flatMap (fun p =>
      [expand4 (p.1.toNat % 16) (sec.getD (g.scOff t + i) (0, false)).1.toNat (sec.getD (g.offOff t + i) (0, false)).1.toNat g.sigma,
       expand4 (p.1.toNat / 16) (sec.getD (g.scOff t + i) (0, false)).1.toNat (sec.getD (g.offOff t + i) (0, false)).1.toNat g.sigma])) := by
  simp only [Region.expand, h, List.map_flatMap, if_true, leNat_byteAt]
  rfl

/-- Element n of a KV8 slot (R62). -/
theorem expand_kv8_getElem? (h : g.kv4 = false) (hn : n < g.d / 64 * 64) (hfit : g.elOff t + g.d / 64 * 64 ≤ sec.length) :
    ((g.expand sec t).map (fun p => p.1))[n]? =
      some (expand8 (sec.getD (g.elOff t + n) (0, false)).1.toNat (sec.getD (g.scOff t + n / 64) (0, false)).1.toNat g.sigma) := by
  have hsplit : n = 64 * (n / 64) + n % 64 := by omega
  have hroom : ∀ i, i < g.d / 64 → g.elOff t + 64 * i + 64 ≤ sec.length := by omega
  conv_lhs => rw [expand_kv8 h, hsplit]
  rw [getElem?_flatMap_range (fun i hi => by rw [List.length_map, length_take_drop (hroom i hi)]) (by omega) (by omega), List.getElem?_map,
    getElem?_take_drop (by omega) (hroom _ (by omega)), Option.map_some, Nat.add_assoc, ← hsplit]

/-- Element n of a KV4 slot (R61): the low nibble of its byte where n is even, the high one where it is odd. -/
theorem expand_kv4_getElem? (h : g.kv4 = true) (hn : n < g.d / 64 * 64) (hfit : g.elOff t + g.d / 64 * 32 ≤ sec.length) :
    ((g.expand sec t).map (fun p => p.1))[n]? =
      some (expand4 (if n % 2 = 0 then (sec.getD (g.elOff t + n / 2) (0, false)).1.toNat % 16 else (sec.getD (g.elOff t + n / 2) (0, false)).1.toNat / 16)
        (sec.getD (g.scOff t + n / 64) (0, false)).1.toNat (sec.getD (g.offOff t + n / 64) (0, false)).1.toNat g.sigma) := by
  have hgroup : n = 64 * (n / 64) + (2 * (n % 64 / 2) + n % 2) := by omega
  have hbyte : g.elOff t + 32 * (n / 64) + n % 64 / 2 = g.elOff t + n / 2 := by omega
  have hroom : ∀ i, i < g.d / 64 → g.elOff t + 32 * i + 32 ≤ sec.length := by omega
  conv_lhs => rw [expand_kv4 h, hgroup]
  rw [getElem?_flatMap_range (fun i hi => by rw [length_flatMap_pieces (n := 2) (fun _ => rfl), length_take_drop (hroom i hi)]) (by omega) (by omega),
    getElem?_flatMap_pieces (n := 2) (fun _ => rfl) (getElem?_take_drop (by omega) (hroom _ (by omega))) (by omega), hbyte]
  rcases Nat.mod_two_eq_zero_or_one n with hpar | hpar <;> rw [hpar] <;> rfl

end

/-! ### The codes of a slot as they are written (R68) -/

/-- The codes of KV4 elements, two to a byte. -/
theorem codes_nibble {l : List Nat} {m n c : Nat} (hl : ∀ c ∈ l, c < 16) (hm : n / 2 < m) (hc : l[n]? = some c) :
    c = if n % 2 = 0 then ((leBytes m (Nat.ofDigits 16 l)).getD (n / 2) 0).toNat % 16
      else ((leBytes m (Nat.ofDigits 16 l)).getD (n / 2) 0).toNat / 16 := by
  have hdigit := ofDigits_digit hl hc
  have hbyte : ((leBytes m (Nat.ofDigits 16 l)).getD (n / 2) 0).toNat = Nat.ofDigits 16 l / 256 ^ (n / 2) % 256 := by
    rw [List.getD_eq_getElem?_getD, leBytes_getElem? _ _ hm, Option.getD_some, BitVec.toNat_ofNat]
  have hpow : 256 ^ (n / 2) = 16 ^ (2 * (n / 2)) := by rw [pow_mul]; rfl
  rw [hbyte, hpow]
  split
  · next hpar =>
    rw [show 2 * (n / 2) = n by omega, Nat.mod_mod_of_dvd _ (by decide), hdigit]
  · next hpar =>
    have hn : n = 2 * (n / 2) + 1 := by omega
    rw [hn, pow_succ, ← Nat.div_div_eq_div_mul] at hdigit
    omega

/-- Settles O60: `expand_kv8_getElem?` and `expand_kv4_getElem?` for the reader, the equations of `Region.writes` and `codes_nibble` for the writer. -/
theorem codecSectionLayout : Obligations.CodecSectionLayout := by
  unfold Obligations.CodecSectionLayout
  intro g sec t n gs hd ht hn hsec hgs hels
  have hd64 : g.d / 64 * 64 = g.d := by omega
  refine ⟨fun h8 => ?_, fun h4 => ?_⟩
  · have hroom : g.d * t + g.d ≤ g.d * 64 := by rw [← Nat.mul_succ]; exact Nat.mul_le_mul_left _ ht
    have hel : g.elOff t = g.d * t := by simp [Region.elOff, h8]
    have hsc : g.scOff t = 64 * g.d + g.d / 64 * t := by simp [Region.scOff, h8]
    refine ⟨?_, ?_⟩
    · rw [expand_kv8_getElem? h8 (by omega) (by rw [hsec, Region.sec, h8, hel, hd64]; simp; omega), hel, hsc, Nat.add_assoc (64 * g.d)]
    · simp [Region.writes, h8, hel, hsc]
  · have hroom : g.d / 2 * t + g.d / 2 ≤ g.d / 2 * 64 := by rw [← Nat.mul_succ]; exact Nat.mul_le_mul_left _ ht
    have hel : g.elOff t = g.d / 2 * t := by simp [Region.elOff, h4]
    have hsc : g.scOff t = 32 * g.d + g.d / 64 * t := by simp [Region.scOff, h4]
    have hof : g.offOff t = 32 * g.d + 64 * (g.d / 64) + g.d / 64 * t := by rw [Region.offOff, Nat.mul_comm 64, hd64]
    refine ⟨?_, leBytes (g.d / 2) (Nat.ofDigits 16 (gs.flatMap (fun x => x.els))), ?_, leBytes_length .., fun c hc => ?_⟩
    · rw [expand_kv4_getElem? h4 (by omega) (by rw [hsec, Region.sec, h4, hel]; simp; omega), hel, hsc, hof, Nat.add_assoc (32 * g.d),
        Nat.add_assoc (32 * g.d + 64 * (g.d / 64))]
    · simp only [Region.writes, sum_codes_eq_ofDigits, h4, hel, hsc, hof, if_true]
      rfl
    · refine codes_nibble (fun c hc => ?_) (by omega) hc
      obtain ⟨x, hx, hcx⟩ := List.mem_flatMap.1 hc
      obtain ⟨-, hlt⟩ := hels x hx
      simpa [h4] using hlt c hcx

end Sys2Proof.Machine
end

section
/-!
PROOFS. Kernels that access memory: what an access, and the record that a kernel reads once (R64, R84), leave as it was, and how a kernel that has
accessed memory runs on its tiles or ends.
-/
namespace Sys2Proof.Machine

/-! ### What an access leaves of works, tiles and blocks -/

/-- A work but for what it notes of its accesses, and the records that it has read. -/
def Work.skel (x : Work) : Work := { x.core with recs := [] }

/-- Works, but for what they note of their accesses, tiles with their sites, the started work of rings and the blocks of hoods are as they were. -/
structure SameSpan (s u : State) : Prop where
  works : ∀ i, (u.work? i).map Work.skel = (s.work? i).map Work.skel
  tiles : u.tiles = s.tiles
  sites : u.sites = s.sites
  planks : u.planks = s.planks
  started : ∀ r, (u.ring r).started = (s.ring r).started
  block : ∀ h, (u.hood h).block = (s.hood h).block

theorem SameSpan.trans {s t u : State} (h : SameSpan s t) (k : SameSpan t u) : SameSpan s u :=
  ⟨fun i => (k.works i).trans (h.works i), k.tiles.trans h.tiles, k.sites.trans h.sites, k.planks.trans h.planks,
    fun r => (k.started r).trans (h.started r), fun g => (k.block g).trans (h.block g)⟩

/-- What keeps these tables keeps the span. -/
theorem SameSpan.of_eq {s u : State} (hworks : u.works = s.works) (htiles : u.tiles = s.tiles) (hsites : u.sites = s.sites)
    (hplanks : u.planks = s.planks) (hrings : u.rings = s.rings) (hhoods : u.hoods = s.hoods) : SameSpan s u :=
  ⟨fun i => by simp only [State.work?, hworks], htiles, hsites, hplanks, fun r => by simp only [State.ring, hrings],
    fun h => by simp only [State.hood, hhoods]⟩

theorem SameSpan.refl (s : State) : SameSpan s s := .of_eq rfl rfl rfl rfl rfl rfl

theorem Accessed.sameSpan {s u : State} (h : Accessed s u) : SameSpan s u := by
  obtain ⟨hworks, htiles, hsites, hplanks, -, -, hstarted, hblock⟩ := h
  refine ⟨fun i => ?_, htiles, hsites, hplanks, hstarted, hblock⟩
  have hskel : ∀ o : Option Work, o.map Work.skel = (o.map Work.core).map Work.skel := fun o => by cases o <;> rfl
  rw [hskel, hworks, ← hskel]

theorem Accessed.rots {s u : State} (h : Accessed s u) : u.rots = s.rots := by
  obtain ⟨-, -, -, -, -, h, -, -⟩ := h
  exact h

/-- A work that one state lists, the other lists with other notes of its accesses. -/
theorem Accessed.work {s u : State} (h : Accessed s u) {w : Nat} {x : Work} (hx : s.work? w = some x) :
    ∃ y, u.work? w = some y ∧ y.core = x.core := by
  obtain ⟨hworks, -⟩ := h
  have hw := hworks w
  rw [hx, Option.map_some] at hw
  exact Option.map_eq_some_iff.1 hw

theorem SameSpan.work {s u : State} (h : SameSpan s u) {w : Nat} {x : Work} (hx : s.work? w = some x) :
    ∃ y, u.work? w = some y ∧ y.skel = x.skel := by
  have hw := h.works w
  rw [hx, Option.map_some] at hw
  exact Option.map_eq_some_iff.1 hw

theorem SameSpan.tile {s u : State} (h : SameSpan s u) (i : Nat) : u.tile i = s.tile i := by simp only [State.tile, h.tiles]

theorem SameSpan.siteOf {s u : State} (h : SameSpan s u) (g lt : Nat) : u.siteOf g lt = s.siteOf g lt := by
  simp only [State.siteOf, State.tmap, h.block]

theorem SameSpan.siteDown {s u : State} (h : SameSpan s u) (i : Nat) : u.siteDown i = s.siteDown i := by
  simp only [State.siteDown, State.site, State.plank, h.sites, h.planks]

theorem tileOut_skel (s : State) (w : Nat) (x : Work) (k : Nat) : s.tileOut w x k =
    ((s.work? (x.skel.parent.getD w)).map Work.skel).elim false (fun p =>
      (p.outT.find (x.skel.lo + k - p.lo)).isSome || (p.moveT.find (x.skel.lo + k - p.lo)).isSome) := by
  unfold State.tileOut State.holderOf
  show (match s.work? (x.parent.getD w) with | some p => _ | none => _) = ((s.work? (x.parent.getD w)).map Work.skel).elim _ _
  cases s.work? (x.parent.getD w) <;> rfl

theorem SameSpan.tileOut {s u : State} (h : SameSpan s u) {x y : Work} (hy : y.skel = x.skel) (w k : Nat) : u.tileOut w y k = s.tileOut w x k := by
  rw [tileOut_skel, tileOut_skel, hy, h.works]

/-! ### The arrival of a dispatch, and the record that a kernel reads -/

/-- The arrival of a dispatch changes works, registers and the count of free values alone. -/
theorem arrive_eq (s : State) (w op : Nat) (mine : List Byte → Bool) :
    s.arrive w op mine = { s with
      works := (s.arrive w op mine).works, regs := (s.arrive w op mine).regs, free := (s.arrive w op mine).free } := by
  have hmod : ∀ (t : State) (f : Work → Work), t = { s with regs := t.regs, free := t.free } →
      t.modWork w f = { s with works := (t.modWork w f).works, regs := (t.modWork w f).regs, free := (t.modWork w f).free } := fun t f ht => by
    rw [State.modWork_eq, ht]
  unfold State.arrive
  dsimp only
  repeat' split
  any_goals rfl
  all_goals exact hmod _ _ rfl

/-- A change of a work's notes keeps the span. -/
theorem sameSpan_modWork (s : State) (w : Nat) {f : Work → Work} (hf : ∀ x, (f x).skel = x.skel) : SameSpan s (s.modWork w f) := by
  have hkept := State.modWork_eq s w f
  refine ⟨fun i => ?_, modWork_tiles .., (congrArg State.sites hkept :), (congrArg State.planks hkept :), fun r => ?_, fun h => ?_⟩
  · by_cases hi : i = w
    · subst hi
      rw [State.modWork_work_self, Option.map_map]
      exact congrArg (fun g => Option.map g _) (funext hf)
    · rw [State.modWork_work_of_ne s f hi]
  · exact (congrArg (fun u => (State.ring u r).started) hkept :)
  · exact (congrArg (fun u => (State.hood u h).block) hkept :)

/-- A record is read as it was kept, or by one access, and is then kept. -/
theorem kernelRecord_read {z u : State} {w va n : Nat} {x : Work} {r : List Byte} (h : z.kernelRecord w x va n = (some r, u)) :
    SameSpan z u ∧ u.rots = z.rots := by
  unfold State.kernelRecord at h
  cases hrec : (z.work? w).bind (fun y => y.recs.find va) with
  | some q =>
    rw [hrec] at h
    obtain ⟨-, rfl⟩ := Prod.mk.inj h
    exact ⟨.refl z, rfl⟩
  | none =>
    rw [hrec] at h
    dsimp only at h
    generalize hq : z.rdVA _ va n = q at h
    have hacc := rdVA_accessed z ((tileEng x.hood x.ctx (z.siteOf x.hood x.lo) 1 x.ring).of w) va n
    rw [hq] at hacc
    obtain ⟨d, v, stop⟩ := q
    split at h
    · cases h
    · cases stop with
      | some y => cases h
      | none =>
        dsimp only at h hacc
        by_cases hpsn : anyPsn d = true
        · rw [if_pos hpsn] at h
          cases h
        · rw [if_neg hpsn] at h
          obtain ⟨-, rfl⟩ := Prod.mk.inj h
          refine ⟨hacc.sameSpan.trans (sameSpan_modWork v w fun _ => rfl), ?_⟩
          rw [State.modWork_eq]
          exact hacc.rots

/-! ### The turns of a kernel that has accessed memory -/

section
variable {s z u : State} {w op : Nat} {x y : Work}

/-- All tiles of a whole kernel are left to run where its span is as it was. -/
theorem tilesLeft_of_sameSpan (hz : Whole z w op x) (hu : SameSpan z u) (hy : y.skel = x.skel) : u.tilesLeft w y = List.range x.cnt := by
  obtain ⟨-, -, hdone, hfree, -⟩ := hz
  have hcnt : y.cnt = x.cnt := (congrArg Work.cnt hy :)
  have hydone : y.doneT = [] := (congrArg Work.doneT hy).trans hdone
  rw [State.tilesLeft, hcnt, List.filter_eq_self]
  intro k hk
  obtain ⟨hout, -⟩ := hfree k (List.mem_range.1 hk)
  simp [hydone, hu.tileOut hy, hout]

/-- The loop of a kernel whose span is as it was takes every tile; a tile takes its command unless what ran before it took its site down. -/
theorem foldTiles_of_sameSpan (hz : Whole z w op x) (hu : SameSpan z u) (f : State → Nat → Nat → State) :
    u.foldTiles w f = (List.range x.cnt).foldl (fun v k =>
      if v.siteDown (x.siteIn v k) then (v.reject x.hood).tileDone w k else f v k (x.siteIn v k)) u := by
  obtain ⟨hk, -⟩ := id hz
  obtain ⟨y, hy, hyx⟩ := hu.work (kernel_spec hk).1
  have hlo : y.lo = x.lo := (congrArg Work.lo hyx :)
  have hhood : y.hood = x.hood := (congrArg Work.hood hyx :)
  rw [State.foldTiles, hy]
  dsimp only
  rw [tilesLeft_of_sameSpan hz hu hyx, hlo, hhood]
  rfl

/-- A kernel of one tile takes one turn. -/
theorem foldTiles_one (hz : Whole z w op x) (hu : SameSpan z u) (hcnt : x.cnt = 1) (f : State → Nat → Nat → State) :
    u.foldTiles w f = f u 0 (x.siteIn z 0) := by
  obtain ⟨-, -, -, hfree, -⟩ := id hz
  obtain ⟨-, hdown⟩ := hfree 0 (by omega)
  have hsite : x.siteIn u 0 = x.siteIn z 0 := hu.siteOf ..
  rw [foldTiles_of_sameSpan hz hu, hcnt]
  show (if u.siteDown (x.siteIn u 0) then _ else f u 0 (x.siteIn u 0)) = _
  rw [hsite, hu.siteDown, hdown]
  rfl

/-- Turns that do nothing but count their tile as done change the works alone, and count every tile. -/
theorem foldTiles_dones (hz : Whole z w op x) (hu : SameSpan z u) (hy : u.work? w = some y) :
    ∃ m, u.foldTiles w (fun v k _ => v.tileDone w k) = { u with works := m } ∧
      m.find w = some { y with doneT := y.doneT ++ List.range x.cnt } := by
  obtain ⟨-, -, -, hfree, -⟩ := id hz
  have hdown : ∀ k ∈ List.range x.cnt, u.siteDown (x.siteIn u k) = false := fun k hk => by
    obtain ⟨-, hdown⟩ := hfree k (List.mem_range.1 hk)
    have hsite : x.siteIn u k = x.siteIn z k := hu.siteOf ..
    rw [hu.siteDown, hsite, hdown]
  rw [foldTiles_of_sameSpan hz hu]
  generalize List.range x.cnt = l at hdown
  clear hu
  induction l generalizing u y with
  | nil => exact ⟨u.works, rfl, by rw [List.append_nil]; exact hy⟩
  | cons k l ih =>
    obtain ⟨hk, hl⟩ := List.forall_mem_cons.1 hdown
    have hone : u.tileDone w k = { u with works := (u.tileDone w k).works } := State.modWork_eq ..
    have hwork : (u.tileDone w k).work? w = some { y with doneT := y.doneT ++ [k] } := by
      rw [State.tileDone, State.modWork_work_self, hy, Option.map_some]
    obtain ⟨m, hm, hfind⟩ := ih hwork (by rw [hone]; exact hl)
    refine ⟨m, ?_, by rw [hfind, List.append_assoc]; rfl⟩
    rw [List.foldl_cons, hk, if_neg (by decide), hm, hone]

/-- A kernel that is not started, or has tiles left to run, does not end. -/
theorem kernelEnd_of_not (hy : u.work? w = some y) (h : y.phase ≠ .started ∨ y.doneT.length ≠ y.cnt) : u.kernelEnd w = u := by
  have : ¬ (y.phase == .started && y.doneT.length == y.cnt) = true := by
    simpa [imp_iff_not_or] using h
  simp only [State.kernelEnd, hy, if_neg this]

/-- A kernel that is not to be cut notes nothing. -/
theorem clampOnce_false (u : State) (w : Nat) : u.clampOnce w false = u := by
  unfold State.clampOnce
  split <;> rfl

/-- A kernel whose turns do nothing but count their tiles has run, and awaits its completion; works and waits alone have changed. -/
theorem runTiles_dones (hz : Whole z w op x) (hu : SameSpan z u) :
    OnlyRun u (u.runTiles w (fun v k _ => v.tileDone w k)) ∧ (u.runTiles w (fun v k _ => v.tileDone w k)).tiles = u.tiles ∧
      ∃ q, (u.runTiles w (fun v k _ => v.tileDone w k)).work? w = some q ∧ q.phase = .finished ∧ q.ran = true := by
  obtain ⟨hk, -, hdone, -⟩ := id hz
  obtain ⟨hw, hphase, -⟩ := kernel_spec hk
  obtain ⟨y, hy, hyx⟩ := hu.work hw
  have hyphase : y.phase = .started := (congrArg Work.phase hyx).trans hphase
  have hydone : y.doneT = [] := (congrArg Work.doneT hyx).trans hdone
  have hycnt : y.cnt = x.cnt := (congrArg Work.cnt hyx :)
  obtain ⟨m, hm, hfind⟩ := foldTiles_dones hz hu hy
  have hend := kernelEnd_finished (u := { u with works := m }) (w := w) hfind hyphase (by simp [hydone, hycnt])
  obtain ⟨htiles, hrun, hwork⟩ := hend
  rw [State.runTiles, hm]
  exact ⟨OnlyRun.trans (t := { u with works := m }) rfl hrun, htiles, _, hwork, rfl, rfl⟩

/-! ### A kernel that ends at once after an access -/

/-- The end of a top-level kernel leaves the rotation engines. -/
theorem completeWork_rots (hw : u.work? w = some y) (hkind : y.kind = 1) (hy : Unrecorded y) : (u.completeWork w).rots = u.rots := by
  obtain ⟨hpar, hcpl⟩ := hy
  have hkind2 : ¬ y.kind = 2 := by omega
  simp only [State.completeWork, hw, hpar, State.endTop, State.writeRecord, hcpl, hkind2, if_true, if_false]
  generalize hv : State.modRing u y.ring _ = v
  generalize y.slots.map (fun e => e.2) ++ y.outT.map (fun e => e.2) ++ y.moveT.map (fun e => e.2) = ks
  have hrel : OnlyReleased v (((v.releaseWork w).freeSlots y.hood ks).dropWork w) :=
    ((onlyReleased_releaseWork ..).trans (onlyReleased_freeSlots ..)).trans rfl
  rw [hrel, ← hv]
  rfl

/-- `q` is what is left of `u` where the top-level kernel `w` of `z` has ended and nothing has been scheduled yet. -/
structure EndedFrom (z u : State) (w : Nat) (x : Work) (q : State) : Prop where
  ended : Ended z w x q
  mem : q.mem = u.mem
  tiles : q.tiles = u.tiles
  rots : q.rots = u.rots

/-- The completion of a top-level kernel that names no completion record: it ends, and the scheduler decides. `v` differs from `u` by what the
kernel reports of itself, by its status and by registers. -/
theorem complete_endedFrom {v : State} (hk : z.kernel w op = some x) (hu : SameSpan z u) (hp : z.pending = s.pending)
    (hrun : OnlyRun u v) (htiles : v.tiles = u.tiles) (hv : v.work? w = some y) (hkind : y.kind = x.kind) (hyx : Unrecorded y)
    (hring : y.ring = x.ring) (hhood : y.hood = x.hood) :
    EndedFrom z u w x (v.completeWork w) ∧ (v.completeWork w).regs = v.regs ∧
      finish s (v.complete w) = finish z ((v.completeWork w).scheduleAll x.hood) := by
  obtain ⟨-, -, hk1⟩ := kernel_spec hk
  obtain ⟨⟨hgone, hstarted⟩, hregs, hmem, -, htiles'⟩ := endTop_ended hv (hkind.trans hk1) hyx
  refine ⟨⟨⟨hgone, ?_⟩, ?_, htiles'.trans htiles, ?_⟩, hregs, ?_⟩
  · rw [← hring, hstarted]
    refine congrArg _ ((?_ : (v.ring y.ring).started = (u.ring y.ring).started).trans (hu.started _))
    rw [hrun]; rfl
  · rw [hmem, hrun]
  · rw [completeWork_rots hv (hkind.trans hk1) hyx, hrun]
  · simp only [State.complete, hv, hhood, finish, hp]

theorem Unrecorded.of_skel (hx : Unrecorded x) (hy : y.skel = x.skel) : Unrecorded y := by
  obtain ⟨hpar, hcpl⟩ := hx
  have hdesc : y.desc = x.desc := (congrArg Work.desc hy :)
  exact ⟨(congrArg Work.parent hy).trans hpar, hdesc ▸ hcpl⟩

/-- A kernel whose record is bad ends INVALID and is counted. -/
theorem endInvalid_recorded (hk : z.kernel w op = some x) (hu : SameSpan z u) (hx : Unrecorded x) (hp : z.pending = s.pending) :
    ∃ q, EndedFrom z u w x q ∧ q.reg rCTX_INVALID x.ctx = satAdd 32 (u.reg rCTX_INVALID x.ctx) 1 ∧
      finish s (u.endInvalid w) = finish z (q.scheduleAll x.hood) := by
  obtain ⟨y, hy, hyx⟩ := hu.work (kernel_spec hk).1
  have hctx : y.ctx = x.ctx := (congrArg Work.ctx hyx :)
  have hset : u.setInvalid w = (u.countReg rCTX_INVALID x.ctx 1).modWork w (fun x => { x with status := 1, ran := true, phase := .finished }) := by
    simp only [State.setInvalid, hy, hctx]
  have hwork : (u.setInvalid w).work? w = some { y with status := 1, ran := true, phase := .finished } := by
    rw [hset, State.modWork_work_self]
    exact congrArg _ hy
  have hrun : OnlyRun u (u.setInvalid w) := hset ▸ (onlyRegs_countReg ..).onlyRun.trans (onlyRun_modWork ..)
  have htiles : (u.setInvalid w).tiles = u.tiles := hset ▸ modWork_tiles ..
  have hyunrec : Unrecorded y := hx.of_skel hyx
  obtain ⟨hended, hregs, hfinish⟩ := complete_endedFrom hk hu hp hrun htiles hwork (congrArg Work.kind hyx :) hyunrec
    (congrArg Work.ring hyx :) (congrArg Work.hood hyx :)
  refine ⟨_, hended, ?_, hfinish⟩
  rw [State.reg, hregs, hset, modWork_regs]
  exact (State.setReg_reg_self ..).trans (Nat.mod_eq_of_lt (satAdd_lt ..))

/-- A kernel with nothing to do, or that cannot do it, ends with a status of its own. -/
theorem completeAs_recorded {v : State} (hk : z.kernel w op = some x) (hu : SameSpan z u) (hv : Noted u v) (hx : Unrecorded x)
    (hp : z.pending = s.pending) (st : Nat) :
    ∃ q, EndedFrom z u w x q ∧ finish s (v.completeAs w st) = finish z (q.scheduleAll x.hood) := by
  obtain ⟨y, hy, hyx⟩ := hu.work (kernel_spec hk).1
  obtain ⟨k, hkw, hky⟩ := hv.work hy
  have hkx : ∀ {α : Type} (f : Work → α), (∀ q, f q.unnoted = f q) → (∀ q, f q.skel = f q) → f k = f x := fun f hf hg => by
    rw [unnoted_congr f hf hky, ← hg, hyx, hg]
  have hwork : (v.modWork w (fun x => { x with status := st, ran := true, phase := .finished })).work? w =
      some { k with status := st, ran := true, phase := .finished } := by
    rw [State.modWork_work_self, hkw, Option.map_some]
  obtain ⟨hpar, hcpl⟩ := hx
  have hdesc : k.desc = x.desc := hkx Work.desc (fun _ => rfl) fun _ => rfl
  obtain ⟨hended, -, hfinish⟩ := complete_endedFrom hk hu hp (hv.run.trans (onlyRun_modWork ..)) ((modWork_tiles ..).trans hv.tiles) hwork
    (hkx Work.kind (fun _ => rfl) fun _ => rfl)
    ⟨(hkx Work.parent (fun _ => rfl) fun _ => rfl).trans hpar, hdesc ▸ hcpl⟩
    (hkx Work.ring (fun _ => rfl) fun _ => rfl) (hkx Work.hood (fun _ => rfl) fun _ => rfl)
  exact ⟨_, hended, hfinish⟩

end

end Sys2Proof.Machine
end

section
/-!
PROOFS. The transfer kernels LOAD, STORE and KVC on one tile (R66 to R72, R115, R119, R120, R127, R251).
-/
namespace Sys2Proof.Machine

section
variable {s z u v : State} {w op n : Nat} {x y : Work}

/-! ### A kernel of one tile -/

/-- The run of a kernel of one tile is its one turn, and its end. -/
theorem runTiles_one (hz : Whole z w op x) (hu : SameSpan z u) (hcnt : x.cnt = 1) (f : State → Nat → Nat → State) :
    u.runTiles w f = (f u 0 (x.siteIn z 0)).kernelEnd w := by
  rw [State.runTiles, foldTiles_one hz hu hcnt]

/-- The one tile of a kernel counts as done: the kernel has run and awaits its completion, and works and waits alone have changed. -/
theorem tileDone_kernelEnd (hv : v.work? w = some y) (hphase : y.phase = .started) (hdone : y.doneT = []) (hcnt : y.cnt = 1) :
    OnlyRun v ((v.tileDone w 0).kernelEnd w) ∧ ((v.tileDone w 0).kernelEnd w).tiles = v.tiles ∧
      ((v.tileDone w 0).kernelEnd w).regs = v.regs ∧
      ((v.tileDone w 0).kernelEnd w).work? w = some { y with doneT := [0], ran := true, phase := .finished } := by
  have hwork : (v.tileDone w 0).work? w = some { y with doneT := y.doneT ++ [0] } := by
    rw [State.tileDone, State.modWork_work_self, hv, Option.map_some]
  obtain ⟨htiles, hrun, hend⟩ := kernelEnd_finished hwork hphase (by simp [hdone, hcnt])
  rw [hdone] at hend
  exact ⟨OnlyRun.trans (onlyRun_modWork ..) hrun, htiles.trans (modWork_tiles ..), (kernelEnd_regs ..).trans (modWork_regs ..), hend⟩

/-- What has come of a kernel with no progress is nothing. -/
theorem prog_find_nil (hx : z.work? w = some x) (hprog : x.prog = []) (t : Nat) :
    ((z.work? w).map (fun q => (q.prog.find t).getD 0)).getD 0 = 0 := by
  rw [hx, Option.map_some, hprog]; rfl

/-! ### LOAD (R251) -/

/-- What a LOAD leaves where its read gives `d`, before its tile counts as done or stops. -/
def loadTaken (u : State) (w i spad : Nat) (d : List PB) : State :=
  (u.modTile i (fun t => t.wr spad d)).modWork w (fun q => { q with prog := q.prog.insert 0 d.length, psnw := q.psnw || anyPsn d })

/-- The run of a LOAD of one tile. -/
theorem loadEff_one (hz : z = s.arrive w 4 (fun _ => true)) (hk : Whole z w 4 x) (hcnt : x.cnt = 1)
    (hn : fitSpad (fld x.args 8 0 20) (fld x.args 0xC 0 32) = fld x.args 0xC 0 32) :
    loadEff w s = (loadTile1 w x z 0 (x.siteIn z 0)).kernelEnd w := by
  subst hz
  obtain ⟨hkernel, hrec, -⟩ := id hk
  simp only [loadEff, hkernel, hrec, hn, lt_irrefl, decide_false, clampOnce_false]
  exact runTiles_one hk (.refl _) hcnt _

/-- The turn of the tile of a LOAD of which nothing has come yet. -/
theorem loadTile1_first {i : Nat} {e : Eng} {d : List PB} {stop : Option Stop} (hx : z.work? w = some x) (hprog : x.prog = [])
    (he : e = (tileEng x.hood x.ctx i 0 x.ring).of w)
    (hn : fitSpad (fld x.args 8 0 20) (fld x.args 0xC 0 32) = fld x.args 0xC 0 32)
    (hrd : z.rdVA e (xferVa x.args 0) (fld x.args 0xC 0 32) = (d, u, stop)) :
    loadTile1 w x z 0 i = match stop with
      | none => (loadTaken u w i (fld x.args 8 0 20) d).tileDone w 0
      | some y =>
        let v := loadTaken u w i (fld x.args 8 0 20) d
        let v := if v.abandons e y (some 0) then
            v.draw.2.modTile i (fun t => t.wr (fld x.args 8 0 20) (clean ((List.range (fld x.args 0xC 0 32)).map (Config.loadLeft v.draw.1))))
          else v
        v.stopWork w x e y (some 0) (decide (0 < d.length)) := by
  subst he
  simp only [loadTile1, prog_find_nil hx hprog, hn, Nat.add_zero, Nat.sub_zero, Nat.zero_add, hrd, loadTaken]
  cases stop <;> rfl

section
variable {i spad : Nat} {d : List PB}

theorem loadTaken_run : OnlyRun u (loadTaken u w i spad d) := (onlyRun_modTile u i _).trans (onlyRun_modWork ..)

theorem loadTaken_regs : (loadTaken u w i spad d).regs = u.regs := modWork_regs ..

theorem loadTaken_tile (j : Nat) : (loadTaken u w i spad d).tile j = if j = i then (u.tile j).wr spad d else u.tile j :=
  (congrArg (at' · j) (modWork_tiles ..)).trans (State.modTile_tile ..)

theorem loadTaken_work (hy : u.work? w = some y) :
    (loadTaken u w i spad d).work? w = some { y with prog := y.prog.insert 0 d.length, psnw := y.psnw || anyPsn d } := by
  rw [loadTaken, State.modWork_work_self, State.modTile_work, hy, Option.map_some]

/-- A LOAD whose read gives its bytes writes them and is done. -/
theorem load_done (hu : Accessed z u) (hx : z.work? w = some x) (hphase : x.phase = .started) (hdone : x.doneT = []) (hcnt : x.cnt = 1) :
    let t := ((loadTaken u w i spad d).tileDone w 0).kernelEnd w
    t.tile i = (z.tile i).wr spad d ∧ (∀ j, j ≠ i → t.tile j = z.tile j) ∧
      (∃ q, t.work? w = some q ∧ q.phase = .finished ∧ q.ran = true ∧ q.psnw = (x.psnw || anyPsn d)) ∧ t.mem = u.mem ∧ t.hostMem = u.hostMem := by
  intro t
  obtain ⟨y, hy, hyx⟩ := hu.work hx
  obtain ⟨hrun, htiles, -, hwork⟩ := tileDone_kernelEnd (loadTaken_work hy) ((congrArg Work.phase hyx).trans hphase)
    ((congrArg Work.doneT hyx).trans hdone) ((congrArg Work.cnt hyx).trans hcnt)
  have htile : ∀ j, t.tile j = if j = i then (z.tile j).wr spad d else z.tile j := fun j => by
    rw [← hu.sameSpan.tile j, ← loadTaken_tile]
    exact congrArg (at' · j) htiles
  have hall : OnlyRun u t := loadTaken_run.trans hrun
  refine ⟨by rw [htile, if_pos rfl], fun j hj => by rw [htile, if_neg hj], ⟨_, hwork, rfl, rfl, ?_⟩, by rw [hall], by rw [hall]⟩
  rw [← show y.psnw = x.psnw from (congrArg Work.psnw hyx :)]

end

/-! ### A fault of the access (R115, R119, R120) -/

theorem Tile.wr_nil (t : Tile) (a : Nat) : t.wr a [] = t := by simp [Tile.wr]

/-- A fault appends one record to its hood's queue, with what the access tells of itself. -/
theorem raiseFault_faults (s : State) (e : Eng) (typ acc lvl : Nat) (ent : BitVec 64) (va rem : Nat) (sw str : Bool) (w : Option Nat) (tile : Nat) :
    ∃ f, ((s.raiseFault e (.fault typ acc lvl ent va rem) sw str w none tile none none).hood e.hood).faults = (s.hood e.hood).faults ++ [f] ∧
      f.typ = typ ∧ f.access = acc ∧ f.va = va ∧ f.ctx = e.ctx ∧ f.epoch = s.reg rHOOD_EPOCH e.hood ∧ f.switch = sw ∧
      f.straddle = (str && !sw) ∧ f.work = w ∧ f.tile = tile := by
  refine ⟨_, congrArg Hood.faults (State.modHood_hood_self ..), rfl, rfl, rfl, rfl, rfl, rfl, rfl, rfl, rfl⟩

theorem accrue_work (s : State) (w : Nat) : (s.accrue w).work? w = (s.work? w).map (fun x => { x with since := s.now }) := by
  unfold State.accrue
  cases hx : s.work? w with
  | none => exact hx
  | some x =>
    have hmod : (s.modWork w (fun x => { x with since := s.now })).work? w = some { x with since := s.now } := by
      rw [State.modWork_work_self, hx, Option.map_some]
    dsimp only
    generalize (_ : Nat) * _ = d
    split <;> exact hmod

/-- What a work is charged with is all that its charge changes of a hood. -/
theorem accrue_hood (s : State) (w h : Nat) : ∃ c, (s.accrue w).hood h = { s.hood h with usageNs := c } := by
  unfold State.accrue
  split
  · exact ⟨_, rfl⟩
  · dsimp only
    generalize (_ : Nat) * _ = d
    rw [State.modWork_eq]
    split
    · exact ⟨_, rfl⟩
    · rw [State.modHood_hood]
      split <;> exact ⟨_, rfl⟩

/-- A write to the memory of a hood changes what `memSide` takes over. -/
theorem wrHood_memSide (s : State) (a : Acc) (x : Nat) (d : List PB) : ∃ t, s.wrHood a x d = s.memSide t := by
  unfold State.wrHood State.settled State.wrB
  generalize hotFlush 4096 _ = t
  exact ⟨t, rfl⟩

/-- The save of a tile empties it, and leaves works and hoods. -/
theorem saveTile_frame (s : State) (h k i : Nat) :
    (s.saveTile h k i).works = s.works ∧ (s.saveTile h k i).hoods = s.hoods ∧ (s.saveTile h k i).tiles = s.tiles.erase i := by
  unfold State.saveTile
  dsimp only
  obtain ⟨t, ht⟩ := wrHood_memSide s.draw.2 { who := { hood := h, cls := 0, epoch := s.reg rHOOD_EPOCH h } } (s.draw.2.slotBase h k)
    ((s.tile i).bytes ++ clean ((List.range 256).map (Config.ctlByte s.draw.1)))
  rw [ht]
  exact ⟨rfl, rfl, rfl⟩

theorem modWork_hood (u : State) (w : Nat) (f : Work → Work) (h : Nat) : (u.modWork w f).hood h = u.hood h := by rw [State.modWork_eq]; rfl

/-- The operation of a kernel is the one that its command names. -/
theorem kernel_op (h : z.kernel w op = some x) : x.op = op := by
  unfold State.kernel at h
  obtain ⟨-, hop⟩ := Option.filter_eq_some_iff.1 h
  simp only [Bool.and_eq_true, beq_iff_eq] at hop
  exact hop.1

/-- The first tile of a claim's own step is switched out. -/
theorem switchOut_eq (hv : v.work? w = some y) (hpar : y.parent = none) :
    v.switchOut w 0 =
      ((((v.accrue w).takeSlots y.hood 1).2.saveTile y.hood (((v.accrue w).takeSlots y.hood 1).1.headD 0)
        (((v.accrue w).takeSlots y.hood 1).2.siteOf y.hood y.lo)).modWork w (fun p => { p with
          outT := p.outT.insert 0 (((v.accrue w).takeSlots y.hood 1).1.headD 0) })).modWork w
        (fun q => if q.op = 8 then q else { q with prog := q.prog.erase (y.lo - q.lo) }) := by
  simp only [State.switchOut, hv, hpar, Option.getD_none, Option.map_some, Option.getD_some, Nat.add_zero]

/-- A tile that is switched out from a claim's own step is empty, its step starts anew, and its save slot is noted; no fault record is touched. -/
theorem switchOut_frame (hv : v.work? w = some y) (hpar : y.parent = none) (hop : y.op ≠ 8) :
    (∃ k, (v.switchOut w 0).work? w = some { y with since := v.now, outT := y.outT.insert 0 k, prog := y.prog.erase 0 }) ∧
      (∀ h, ((v.switchOut w 0).hood h).faults = (v.hood h).faults) ∧ (v.switchOut w 0).tiles = v.tiles.erase (v.siteOf y.hood y.lo) := by
  have hout : v.switchOut w 0 = _ := switchOut_eq hv hpar
  rw [hout]
  generalize ht : ((v.accrue w).takeSlots y.hood 1).2 = t
  generalize ((v.accrue w).takeSlots y.hood 1).1.headD 0 = k
  obtain ⟨hworks, hhoods, htiles⟩ := saveTile_frame t y.hood k (t.siteOf y.hood y.lo)
  have hwork : t.work? w = some { y with since := v.now } := by
    rw [← ht]
    show (v.accrue w).work? w = _
    rw [accrue_work, hv, Option.map_some]
  have hhood : ∀ h, (t.hood h).faults = (v.hood h).faults ∧ (t.hood h).block = (v.hood h).block := fun h => by
    obtain ⟨c, hc⟩ := accrue_hood v w h
    rw [← ht, State.takeSlots, State.modHood_hood]
    split <;> exact hc ▸ ⟨rfl, rfl⟩
  have hsite : t.siteOf y.hood y.lo = v.siteOf y.hood y.lo := by
    obtain ⟨-, hblock⟩ := hhood y.hood
    simp only [State.siteOf, State.tmap, hblock]
  have htile : t.tiles = v.tiles := by
    rw [← ht]
    show (v.accrue w).tiles = _
    rw [onlyReleased_accrue v w]
  refine ⟨⟨k, ?_⟩, fun h => ?_, ?_⟩
  · have hsaved : (t.saveTile y.hood k (t.siteOf y.hood y.lo)).work? w = some { y with since := v.now } := by
      rw [← hwork]
      exact congrArg (Table.find · w) hworks
    rw [State.modWork_work_self, State.modWork_work_self, hsaved, Option.map_some, Option.map_some]
    refine congrArg some ((if_neg hop).trans ?_)
    rw [Nat.sub_self]
  · obtain ⟨hfaults, -⟩ := hhood h
    rw [modWork_hood, modWork_hood, ← hfaults, State.hood, hhoods]
    rfl
  · rw [modWork_tiles, modWork_tiles, htiles, hsite, htile]

section
variable {e : Eng} {typ acc lvl va rem : Nat} {ent : BitVec 64} {str : Bool}

/-- In a hood of fewer than 193 tiles a fault stalls the work (R115). -/
theorem stopWork_stall (h : v.ntile x.hood < 193) : v.stopWork w x e (.fault typ acc lvl ent va rem) (some 0) str =
    (v.modWork w (fun q => { q with phase := .stalled })).raiseFault e (.fault typ acc lvl ent va rem) false str (some w) none 0 none none := by
  have : v.switches x.hood (some 0) = false := by simp [State.switches, h]
  simp only [State.stopWork, State.faultWork, this]
  rfl

/-- In a larger one it switches the tile out, while the fault queue has room (R115, R116). -/
theorem stopWork_switch (h : 193 ≤ v.ntile x.hood) (hfull : v.faultFull x.hood = false) (hpar : x.parent = none) (hv : v.work? w = some y)
    (hlo : y.lo = x.lo) : v.stopWork w x e (.fault typ acc lvl ent va rem) (some 0) str =
      (v.switchOut w 0).raiseFault e (.fault typ acc lvl ent va rem) true false (some w) none 0 none none := by
  have hsw : v.switches x.hood (some 0) = true := by simp [State.switches, h]
  have hclaim : v.claimTile w x 0 = 0 := by simp [State.claimTile, hpar, hv, hlo]
  simp only [State.stopWork, State.faultWork, hsw, hpar, hfull, Option.getD_some, Option.getD_none, hclaim]
  rfl

end
/-! ### A LOAD that stops at a fault (R115, R120) -/

section
variable {e : Eng} {typ acc lvl va rem i spad : Nat} {ent : BitVec 64} {str : Bool}

/-- In a hood of fewer than 193 tiles the kernel stalls, and the fault queue takes a record that names it. -/
theorem load_stalls (hu : Accessed z u) (hx : z.work? w = some x) (he : e.hood = x.hood) (hctx : e.ctx = x.ctx) (hntile : u.ntile x.hood < 193) :
    let v := loadTaken u w i spad []
    let t := (v.stopWork w x e (.fault typ acc lvl ent va rem) (some 0) str).kernelEnd w
    (∃ q, t.work? w = some q ∧ q.phase = .stalled ∧ q.ran = x.ran) ∧ (∀ j, t.tile j = z.tile j) ∧ t.mem = u.mem ∧
      ∃ f, (t.hood x.hood).faults = (u.hood x.hood).faults ++ [f] ∧ f.typ = typ ∧ f.access = acc ∧ f.va = va ∧ f.ctx = x.ctx ∧
        f.epoch = u.reg rHOOD_EPOCH x.hood ∧ f.switch = false ∧ f.work = some w := by
  intro v t
  obtain ⟨y, hy, hyx⟩ := hu.work hx
  have hrun : OnlyRun u v := loadTaken_run
  have hv : v.ntile x.hood < 193 := by rw [hrun]; exact hntile
  generalize hm : v.modWork w (fun q => { q with phase := .stalled }) = m
  have hmrun : OnlyRun u m := hm ▸ hrun.trans (onlyRun_modWork ..)
  have hmwork : ∃ q, m.work? w = some q ∧ q.phase = .stalled ∧ q.ran = x.ran := by
    rw [← hm, State.modWork_work_self, loadTaken_work hy, Option.map_some]
    exact ⟨_, rfl, rfl, (congrArg Work.ran hyx :)⟩
  have hmregs : m.regs = u.regs := by rw [← hm, modWork_regs, loadTaken_regs]
  have hmtile : ∀ j, m.tile j = z.tile j := fun j => by
    rw [← hm, State.tile, modWork_tiles]
    refine (loadTaken_tile j).trans ?_
    rw [Tile.wr_nil, ite_self, hu.sameSpan.tile]
  have ht : t = m.raiseFault e (.fault typ acc lvl ent va rem) false str (some w) none 0 none none := by
    obtain ⟨q, hq, hstalled, -⟩ := hmwork
    show State.kernelEnd (v.stopWork ..) w = _
    rw [stopWork_stall hv, hm]
    exact kernelEnd_of_not (y := q) hq (Or.inl (by rw [hstalled]; decide))
  obtain ⟨f, hfaults, htyp, hacc, hva, hfctx, hepoch, hswitch, -, hwork, -⟩ :=
    raiseFault_faults m e typ acc lvl ent va rem false str (some w) 0
  rw [ht]
  refine ⟨hmwork, hmtile, ?_, f, ?_, htyp, hacc, hva, hfctx.trans hctx, ?_, hswitch, hwork⟩
  · show m.mem = _
    rw [hmrun]
  · rw [← he, hfaults, hmrun]; rfl
  · rw [hepoch, he, State.reg, hmregs]; rfl

/-- In a larger hood the tile is switched out, empty, and its step starts anew; the record is one of a switch-out. -/
theorem load_switches (hu : Accessed z u) (hk : z.kernel w 4 = some x) (hdone : x.doneT = []) (hcnt : x.cnt = 1) (he : e.hood = x.hood)
    (hctx : e.ctx = x.ctx) (hntile : 193 ≤ u.ntile x.hood) (hfull : u.faultFull x.hood = false) (hpar : x.parent = none)
    (hi : i = x.siteIn z 0) (g : Tile → Tile) :
    let v := (loadTaken u w i spad []).draw.2.modTile i g
    let t := (v.stopWork w x e (.fault typ acc lvl ent va rem) (some 0) str).kernelEnd w
    (∃ q, t.work? w = some q ∧ q.phase = .started ∧ (q.outT.find 0).isSome = true ∧ q.prog.find 0 = none ∧ q.doneT = []) ∧
      t.tile i = default ∧ (∀ j, j ≠ i → t.tile j = z.tile j) ∧
      ∃ f, (t.hood x.hood).faults = (u.hood x.hood).faults ++ [f] ∧ f.typ = typ ∧ f.access = acc ∧ f.va = va ∧ f.ctx = x.ctx ∧
        f.switch = true ∧ f.straddle = false ∧ f.work = some w ∧ f.tile = 0 := by
  intro v t
  obtain ⟨hx, hphase, -⟩ := kernel_spec hk
  have hrun : OnlyRun u (loadTaken u w i spad []) := loadTaken_run
  have hhoods : v.hoods = u.hoods := (congrArg State.hoods hrun :)
  have hregs : v.regs = u.regs := loadTaken_regs
  have hhood : ∀ h, v.hood h = u.hood h := fun h => by rw [State.hood, hhoods]; rfl
  have hvntile : v.ntile x.hood = u.ntile x.hood := by rw [State.ntile, State.tmap, hhood]; rfl
  have hvfull : v.faultFull x.hood = u.faultFull x.hood := by unfold State.faultFull State.reg; rw [hregs]
  have hvtile : ∀ j, j ≠ i → v.tile j = z.tile j := fun j hj => by
    rw [← hu.sameSpan.tile]
    exact (State.modTile_tile_of_ne _ g hj).trans ((loadTaken_tile j).trans (if_neg hj))
  obtain ⟨q, hq, hqphase, hqdone, hqcnt, hqpar, hqop, hqhood, hqlo⟩ : ∃ q, v.work? w = some q ∧ q.phase = .started ∧ q.doneT = [] ∧ q.cnt = 1 ∧
      q.parent = none ∧ q.op = 4 ∧ q.hood = x.hood ∧ q.lo = x.lo := by
    obtain ⟨y, hy, hyx⟩ := hu.work hx
    exact ⟨_, loadTaken_work hy, (congrArg Work.phase hyx).trans hphase, (congrArg Work.doneT hyx).trans hdone, (congrArg Work.cnt hyx).trans hcnt,
      (congrArg Work.parent hyx).trans hpar, (congrArg Work.op hyx).trans (kernel_op (x := x) hk), (congrArg Work.hood hyx :),
      (congrArg Work.lo hyx :)⟩
  obtain ⟨⟨k, hout⟩, hfaults, htiles⟩ := switchOut_frame hq hqpar (by omega)
  have hsite : v.siteOf q.hood q.lo = i := by
    rw [hi, hqhood, hqlo, State.siteOf, State.tmap, hhood, hu.sameSpan.block]
    rfl
  rw [hsite] at htiles
  have ht : t = (v.switchOut w 0).raiseFault e (.fault typ acc lvl ent va rem) true false (some w) none 0 none none := by
    show State.kernelEnd (v.stopWork ..) w = _
    rw [stopWork_switch (hvntile ▸ hntile) (hvfull.trans hfull) hpar hq hqlo]
    exact kernelEnd_of_not hout (Or.inr (by simp [hqdone, hqcnt]))
  obtain ⟨f, hf, htyp, hacc, hva, hfctx, -, hswitch, hstr, hwork, htile⟩ :=
    raiseFault_faults (v.switchOut w 0) e typ acc lvl ent va rem true false (some w) 0
  have hend : t.work? w = (v.switchOut w 0).work? w := by rw [ht]; rfl
  have httile : ∀ j, t.tile j = at' (v.tiles.erase i) j := fun j => by rw [ht, ← htiles]; rfl
  refine ⟨⟨_, hend.trans hout, hqphase, ?_, ?_, hqdone⟩, ?_, fun j hj => ?_, f, ?_, htyp, hacc, hva, hfctx.trans hctx, hswitch, hstr,
    hwork, htile⟩
  · exact (congrArg Option.isSome (Table.find_insert_self q.outT 0 k) :)
  · exact Table.find_erase_self ..
  · rw [httile, at', Table.get, Table.find_erase_self]; rfl
  · rw [httile, at', Table.get, Table.find_erase_of_ne _ hj, ← hvtile j hj]; rfl
  · rw [ht, ← he, hf, hfaults, hhood]

end
/-! ### STORE (R251) -/

/-- What a STORE leaves where `n` bytes have been written, before its tile counts as done. -/
def storeTaken (u : State) (w n : Nat) (psn : Bool) : State :=
  u.modWork w (fun q => { q with prog := q.prog.insert 0 n, psnw := q.psnw || psn })

/-- The run of a STORE of one tile that makes all its writes. -/
theorem storeEff_one {e : Eng} {d : List PB} (hz : z = s.arrive w 5 (fun _ => true)) (hk : Whole z w 5 x) (hcnt : x.cnt = 1) (hprog : x.prog = [])
    (he : e = (tileEng x.hood x.ctx (x.siteIn z 0) 0 x.ring).of w) (hn : n = fld x.args 0xC 0 32) (hfit : fitSpad (fld x.args 8 0 20) n = n)
    (hd : d = (z.tile (x.siteIn z 0)).rdN (fld x.args 8 0 20) n) (hwr : z.wrVA e (xferVa x.args 0) d = (n, u, none)) :
    storeEff w s = ((storeTaken u w n (anyPsn (d.take n))).tileDone w 0).kernelEnd w := by
  subst hz he hn hd
  obtain ⟨hkernel, hrec, -⟩ := id hk
  obtain ⟨hx, -⟩ := kernel_spec hkernel
  simp only [storeEff, hkernel, hrec, hfit, lt_irrefl, decide_false, clampOnce_false]
  refine (runTiles_one hk (.refl _) hcnt _).trans ?_
  simp only [storeTile1, prog_find_nil hx hprog, hfit, Nat.add_zero, Nat.sub_zero, Nat.zero_add, hwr]
  rfl

/-- A STORE that has made its writes is done, and has changed no tile. -/
theorem store_done (hu : Accessed z u) (hx : z.work? w = some x) (hphase : x.phase = .started) (hdone : x.doneT = []) (hcnt : x.cnt = 1) (psn : Bool) :
    let t := ((storeTaken u w n psn).tileDone w 0).kernelEnd w
    OnlyRun u t ∧ t.tiles = z.tiles ∧ ∃ q, t.work? w = some q ∧ q.phase = .finished ∧ q.ran = true := by
  intro t
  obtain ⟨y, hy, hyx⟩ := hu.work hx
  have hv : (storeTaken u w n psn).work? w = some { y with prog := y.prog.insert 0 n, psnw := y.psnw || psn } := by
    rw [storeTaken, State.modWork_work_self, hy, Option.map_some]
  obtain ⟨hrun, htiles, -, hwork⟩ := tileDone_kernelEnd hv ((congrArg Work.phase hyx).trans hphase) ((congrArg Work.doneT hyx).trans hdone)
    ((congrArg Work.cnt hyx).trans hcnt)
  exact ⟨(onlyRun_modWork ..).trans hrun, htiles.trans ((modWork_tiles ..).trans hu.sameSpan.tiles), _, hwork, rfl, rfl⟩

/-! ### KVC (R66 to R72) -/

/-- Once its record is read, a KVC ends INVALID, ends at once, or runs on its tiles. -/
theorem kvcEff_recorded {r : List Byte} (hz : z = s.arrive w 6 (fun _ => true)) (hk : Whole z w 6 x) (hcnt : x.cnt = 1)
    (hr : z.kernelRecord w x (fld x.args 0 0 64) 32 = (some r, u)) : kvcEff w s =
      match parseRegion r with
      | none => u.endInvalid w
      | some g =>
        if g.layers ≤ fld x.args 8 0 8 ∨ g.nb ≤ fld x.args 0xC 0 32 then u.endInvalid w
        else
          let v := u.clampOnce w (decide (kvcTokens x.args < fld x.args 0xB 0 6 + 1) || decide (g.heads < fld x.args 9 0 6 + 1))
          if kvcTokens x.args = 0 ∨ g.heads ≤ fld x.args 9 0 6 then v.completeAs w 0 else v.runTiles w (kvcTile w x g (kvcTokens x.args)) := by
  subst hz
  obtain ⟨hkernel, hrec, -⟩ := id hk
  simp only [kvcEff, hkernel, hrec, hcnt, hr, Bool.not_true, Bool.false_eq_true, if_false, one_ne_zero]
  cases parseRegion r with
  | none => rfl
  | some g => simp only [Bool.or_eq_true, decide_eq_true_eq]

/-- A KVC of one token whose head is in its region has one turn: the writes of the token, its counters, and its tile is done. -/
theorem kvcTile_one {e : Eng} {g : Region} {i : Nat} (hy : u.work? w = some y) (hprog : y.prog = []) (hhead : fld x.args 9 0 6 < g.heads)
    (he : e = (tileEng x.hood x.ctx i 1 x.ring).of w)
    (hwr : kvcWrites e w 0 (g.addr (fld x.args 8 0 8) (fld x.args 9 0 6) (fld x.args 0xC 0 32)) ((u.tile i).token g x.args 0).1 0 u = (v, none)) :
    kvcTile w x g 1 u 0 i = ((v.countReg rMEM_KV_NAN x.hood ((u.tile i).token g x.args 0).2.1).countReg rMEM_KV_SAT x.hood
      ((u.tile i).token g x.args 0).2.2).tileDone w 0 := by
  subst he
  have hlen : ¬ 0 + ((u.tile i).token g x.args 0).1.length ≤ 0 := by
    simp [Tile.token]
  simp only [kvcTile, Nat.add_zero, if_neg (Nat.not_le.2 hhead), List.range_one, kvcTokensFrom, prog_find_nil hy hprog, if_neg hlen, hwr]

/-- A KVC of one token: its writes are made, its groups counted, and the kernel has run. -/
theorem kvc_done (nan sat : Nat) (hv : v.work? w = some y) (hphase : y.phase = .started) (hdone : y.doneT = []) (hcnt : y.cnt = 1) (h : Nat) :
    let t := (((v.countReg rMEM_KV_NAN h nan).countReg rMEM_KV_SAT h sat).tileDone w 0).kernelEnd w
    OnlyRun v t ∧ t.tiles = v.tiles ∧ t.reg rMEM_KV_NAN h = satAdd 32 (v.reg rMEM_KV_NAN h) nan ∧
      t.reg rMEM_KV_SAT h = satAdd 32 (v.reg rMEM_KV_SAT h) sat ∧ ∃ q, t.work? w = some q ∧ q.phase = .finished ∧ q.ran = true := by
  intro t
  have hne : regKey rMEM_KV_NAN h ≠ regKey rMEM_KV_SAT h := by unfold regKey rMEM_KV_NAN rMEM_KV_SAT; omega
  generalize hm : (v.countReg rMEM_KV_NAN h nan).countReg rMEM_KV_SAT h sat = m
  have hmw : m.work? w = some y := hm ▸ hv
  have hmrun : OnlyRun v m := hm ▸ (onlyRegs_countReg ..).onlyRun.trans (onlyRegs_countReg ..).onlyRun
  obtain ⟨hrun, htiles, hregs, hwork⟩ := tileDone_kernelEnd hmw hphase hdone hcnt
  have hreg : ∀ off, t.reg off h = m.reg off h := fun off => by
    show State.reg (State.kernelEnd (State.tileDone _ w 0) w) off h = _
    rw [hm, State.reg, hregs]
    rfl
  have ht : t = (m.tileDone w 0).kernelEnd w := by rw [← hm]
  refine ⟨ht ▸ hmrun.trans hrun, ht ▸ htiles.trans (hm ▸ rfl), ?_, ?_, _, ht ▸ hwork, rfl, rfl⟩
  · rw [hreg, ← hm]
    exact (State.setReg_reg_of_ne _ _ hne).trans ((State.setReg_reg_self ..).trans (Nat.mod_eq_of_lt (satAdd_lt ..)))
  · rw [hreg, ← hm]
    refine (State.setReg_reg_self ..).trans ((Nat.mod_eq_of_lt (satAdd_lt ..)).trans ?_)
    rw [State.countReg, State.modReg, State.setReg_reg_of_ne _ _ hne.symm]

end

/-! ### The kernels as commands -/

/-- The tiles before a dispatch arrives are those after it. -/
theorem arrive_tile (s : State) (w op : Nat) (mine : List Byte → Bool) (i : Nat) : (s.arrive w op mine).tile i = s.tile i := by
  rw [arrive_eq]; rfl

section
variable {s z u v : State} {w n : Nat} {x y : Work} {e : Eng} {d : List PB} {r : List Byte} {g : Region}

section
variable {typ acc lvl va rem : Nat} {ent : BitVec 64} (hz : z = s.arrive w 4 (fun _ => true)) (hk : Whole z w 4 x) (hcnt : x.cnt = 1)
  (hprog : x.prog = []) (he : e = (tileEng x.hood x.ctx (x.siteIn z 0) 0 x.ring).of w) (hn : n = fld x.args 0xC 0 32)
  (hfit : fitSpad (fld x.args 8 0 20) n = n)
include hz hk hcnt hprog he hn hfit

/-- The turn of a LOAD whose first access faults. -/
theorem loadEff_fault (hrd : z.rdVA e (xferVa x.args 0) n = ([], u, some (.fault typ acc lvl ent va rem))) :
    let v := loadTaken u w (x.siteIn z 0) (fld x.args 8 0 20) []
    ∃ f, loadEff w s = ((if 193 ≤ u.ntile x.hood then v.draw.2.modTile (x.siteIn z 0) f else v).stopWork w x e (.fault typ acc lvl ent va rem)
      (some 0) false).kernelEnd w := by
  intro v
  obtain ⟨hkernel, -⟩ := id hk
  obtain ⟨hx, -⟩ := kernel_spec hkernel
  subst hn
  have hrun : OnlyRun u v := loadTaken_run
  have hab : v.abandons e (.fault typ acc lvl ent va rem) (some 0) = decide (193 ≤ u.ntile x.hood) := by
    have hntile : v.ntile x.hood = u.ntile x.hood := by rw [hrun]; rfl
    simp only [State.abandons, State.switches, Option.isSome_some, Bool.true_and, Bool.and_true, he, ← hntile]
    rfl
  refine ⟨fun t => t.wr (fld x.args 8 0 20) (clean ((List.range (fld x.args 0xC 0 32)).map (Config.loadLeft v.draw.1))), ?_⟩
  rw [loadEff_one hz hk hcnt hfit, loadTile1_first hx hprog he hfit hrd]
  show State.kernelEnd (State.stopWork (if v.abandons e _ _ = true then _ else _) ..) w = _
  simp only [hab, decide_eq_true_eq]
  rfl

variable (hp : Powered s)
include hp

theorem load_completes (hrd : z.rdVA e (xferVa x.args 0) n = (d, u, none)) : Completes (.load w) s (fun t =>
      t.tile (x.siteIn z 0) = (z.tile (x.siteIn z 0)).wr (fld x.args 8 0 20) d ∧ (∀ i, i ≠ x.siteIn z 0 → t.tile i = z.tile i) ∧
      (∃ q, t.work? w = some q ∧ q.phase = .finished ∧ q.ran = true ∧ q.psnw = (x.psnw || anyPsn d)) ∧ t.mem = u.mem ∧ t.hostMem = u.hostMem) := by
  obtain ⟨hkernel, -, hdone, -⟩ := id hk
  obtain ⟨hx, hphase, -⟩ := kernel_spec hkernel
  have hacc := rdVA_accessed z e (xferVa x.args 0) n
  rw [hrd] at hacc
  subst hn
  refine completes_run rfl rfl hp ?_
  rw [loadEff_one hz hk hcnt hfit, loadTile1_first hx hprog he hfit hrd]
  simpa only [finish_tile, finish_work, finish_mem, finish_hostMem] using load_done hacc hx hphase hdone hcnt

theorem load_fault_stalls (hrd : z.rdVA e (xferVa x.args 0) n = ([], u, some (.fault typ acc lvl ent va rem))) (hntile : u.ntile x.hood < 193) :
    Completes (.load w) s (fun t => (∃ q, t.work? w = some q ∧ q.phase = .stalled ∧ q.ran = x.ran) ∧ (∀ i, t.tile i = z.tile i) ∧ t.mem = u.mem ∧
      ∃ f, (t.hood x.hood).faults = (u.hood x.hood).faults ++ [f] ∧ f.typ = typ ∧ f.access = acc ∧ f.va = va ∧ f.ctx = x.ctx ∧
        f.epoch = u.reg rHOOD_EPOCH x.hood ∧ f.switch = false ∧ f.work = some w) := by
  obtain ⟨hkernel, -⟩ := id hk
  obtain ⟨hx, -⟩ := kernel_spec hkernel
  have hacc := rdVA_accessed z e (xferVa x.args 0) n
  rw [hrd] at hacc
  obtain ⟨f, heff⟩ := loadEff_fault hz hk hcnt hprog he hn hfit hrd
  refine completes_run rfl rfl hp ?_
  rw [heff, if_neg (Nat.not_le.2 hntile)]
  simpa only [finish_tile, finish_work, finish_mem, finish_hood] using load_stalls hacc hx (he ▸ rfl) (he ▸ rfl) hntile

theorem load_fault_switches (hrd : z.rdVA e (xferVa x.args 0) n = ([], u, some (.fault typ acc lvl ent va rem))) (hntile : 193 ≤ u.ntile x.hood)
    (hfull : u.faultFull x.hood = false) (hpar : x.parent = none) : Completes (.load w) s (fun t =>
      (∃ q, t.work? w = some q ∧ q.phase = .started ∧ (q.outT.find 0).isSome = true ∧ q.prog.find 0 = none ∧ q.doneT = []) ∧
      t.tile (x.siteIn z 0) = default ∧ (∀ i, i ≠ x.siteIn z 0 → t.tile i = z.tile i) ∧
      ∃ f, (t.hood x.hood).faults = (u.hood x.hood).faults ++ [f] ∧ f.typ = typ ∧ f.access = acc ∧ f.va = va ∧ f.ctx = x.ctx ∧
        f.switch = true ∧ f.straddle = false ∧ f.work = some w ∧ f.tile = 0) := by
  obtain ⟨hkernel, -, hdone, -⟩ := id hk
  have hacc := rdVA_accessed z e (xferVa x.args 0) n
  rw [hrd] at hacc
  obtain ⟨f, heff⟩ := loadEff_fault hz hk hcnt hprog he hn hfit hrd
  refine completes_run rfl rfl hp ?_
  rw [heff, if_pos hntile]
  simpa only [finish_tile, finish_work, finish_hood] using
    load_switches hacc hkernel hdone hcnt (he ▸ rfl) (he ▸ rfl) hntile hfull hpar rfl f

end

theorem store_completes (hp : Powered s) (hz : z = s.arrive w 5 (fun _ => true)) (hk : Whole z w 5 x) (hcnt : x.cnt = 1) (hprog : x.prog = [])
    (he : e = (tileEng x.hood x.ctx (x.siteIn z 0) 0 x.ring).of w) (hn : n = fld x.args 0xC 0 32) (hfit : fitSpad (fld x.args 8 0 20) n = n)
    (hwr : z.wrVA e (xferVa x.args 0) ((z.tile (x.siteIn z 0)).rdN (fld x.args 8 0 20) n) = (n, u, none)) : Completes (.store w) s (fun t =>
      t.mem = u.mem ∧ t.hostMem = u.hostMem ∧ t.farMem = u.farMem ∧ t.poison = u.poison ∧ (∀ i, t.tile i = z.tile i) ∧
      ∃ q, t.work? w = some q ∧ q.phase = .finished ∧ q.ran = true) := by
  obtain ⟨hkernel, -, hdone, -⟩ := id hk
  obtain ⟨hx, hphase, -⟩ := kernel_spec hkernel
  have hacc := wrVA_accessed z e (xferVa x.args 0) ((z.tile (x.siteIn z 0)).rdN (fld x.args 8 0 20) n)
  rw [hwr] at hacc
  refine completes_run rfl rfl hp ?_
  rw [storeEff_one hz hk hcnt hprog he hn hfit rfl hwr]
  generalize anyPsn _ = psn
  obtain ⟨hrun, htiles, hwork⟩ := store_done (n := n) hacc hx hphase hdone hcnt psn
  simp only [finish_mem, finish_hostMem, finish_farMem, finish_poison, finish_tile, finish_work]
  refine ⟨?_, ?_, ?_, ?_, fun i => congrArg (at' · i) htiles, hwork⟩
  all_goals rw [hrun]

end

/-- Settles O41: the one tile of a transfer kernel has one turn; `load_done`, `load_stalls`, `load_switches`, `store_done` and `kvc_done` say what
the turn and the kernel's end leave. -/
theorem transferKernelResults : Obligations.TransferKernelResults := by
  unfold Obligations.TransferKernelResults
  intro s z u v w n x y e d g r hp hcnt hprog
  have htile : ∀ {op}, z = s.arrive w op (fun _ => true) → s.tile = z.tile := fun hz => funext fun i => hz ▸ (arrive_tile ..).symm
  refine ⟨fun hz hk he hn hfit => ⟨fun hrd => ?_, fun typ acc lvl ent va rem hrd => ⟨fun hntile => ?_, fun hntile hfull hpar => ?_⟩⟩,
    fun hz hk he hn hfit hwr => ?_, fun hz hk hr => ?_, fun hx hbad p hmem hz hk => ?_⟩
  · rw [htile hz]
    exact load_completes hz hk hcnt hprog he hn hfit hp hrd
  · rw [htile hz]
    exact load_fault_stalls hz hk hcnt hprog he hn hfit hp hrd hntile
  · rw [htile hz]
    exact load_fault_switches hz hk hcnt hprog he hn hfit hp hrd hntile hfull hpar
  · rw [htile hz] at hwr ⊢
    exact store_completes hp hz hk hcnt hprog he hn hfit hwr
  · rw [htile hz]
    have hpending : z.pending = s.pending := hz ▸ arrive_pending ..
    obtain ⟨hspan, -⟩ := kernelRecord_read hr
    obtain ⟨hkernel, -⟩ := id hk
    have heff := kvcEff_recorded hz hk hcnt hr
    have htiles : z.tiles = s.tiles := by rw [hz, arrive_eq]
    refine ⟨fun hbad hx => ?_, fun hg hlayer hhead hbatt hlast htok he hwr hy hphase hdone hycnt => ?_, fun hg hlayer hbatt hhead hx => ?_⟩
    · have hend : kvcEff w s = u.endInvalid w := by
        rcases hbad with hnone | ⟨g, hg, hbad⟩
        · rw [heff, hnone]
        · rw [heff, hg]
          exact if_pos hbad
      obtain ⟨q, hq, hcount, hfinish⟩ := endInvalid_recorded hkernel hspan hx hpending
      refine completes_run rfl rfl hp ?_
      rw [hend, hfinish]
      exact ⟨q, ⟨hq.ended, hcount, hq.mem, hq.tiles.trans (hspan.tiles.trans htiles)⟩, rfl⟩
    · obtain ⟨q, hq, hqx⟩ := hspan.work (kernel_spec hkernel).1
      rw [← hspan.tile] at hwr ⊢
      obtain ⟨hrun, hvtiles, hnan, hsat, hwork⟩ := kvc_done ((u.tile (x.siteIn z 0)).token g x.args 0).2.1
        ((u.tile (x.siteIn z 0)).token g x.args 0).2.2 hy hphase hdone hycnt x.hood
      have hend : kvcEff w s = (kvcTile w x g 1 u 0 (x.siteIn z 0)).kernelEnd w := by
        have hcut : ¬ g.heads < fld x.args 9 0 6 + 1 := by omega
        have hroom : ¬ (g.layers ≤ fld x.args 8 0 8 ∨ g.nb ≤ fld x.args 0xC 0 32) := by omega
        have hall : ¬ (1 = 0 ∨ g.heads ≤ fld x.args 9 0 6) := by omega
        rw [heff, hg]
        simp only [if_neg hroom, htok, hlast, hcut, Nat.zero_add, lt_irrefl, decide_false, Bool.or_false, clampOnce_false, if_neg hall]
        exact runTiles_one hk hspan hcnt _
      refine completes_run rfl rfl hp ?_
      rw [hend, kvcTile_one hq ((congrArg Work.prog hqx).trans hprog) hhead he hwr]
      simp only [finish_mem, finish_hostMem, finish_farMem, finish_tiles, finish_reg, finish_work]
      refine ⟨?_, ?_, ?_, hvtiles, hnan, hsat, hwork⟩
      all_goals rw [hrun]
    · obtain ⟨q, hq, hfinish⟩ := completeAs_recorded hkernel hspan (noted_clampOnce u w _) hx hpending 0
      refine completes_run rfl rfl hp ?_
      rw [heff, hg]
      dsimp only
      rw [if_neg (by omega), if_pos (Or.inr hhead), hfinish]
      exact ⟨q, ⟨hq.ended, hq.mem, hq.tiles.trans (hspan.tiles.trans htiles)⟩, rfl⟩
  · have hpending : z.pending = s.pending := hz ▸ arrive_pending ..
    simp only [List.mem_cons, List.not_mem_nil, or_false] at hmem
    rcases hmem with rfl | rfl | rfl
    · exact completes_endInvalid rfl rfl hp hk hx hpending (by subst hz; simp only [loadEff, hk, hbad]; rfl)
    · exact completes_endInvalid rfl rfl hp hk hx hpending (by subst hz; simp only [storeEff, hk, hbad]; rfl)
    · exact completes_endInvalid rfl rfl hp hk hx hpending (by subst hz; simp only [kvcEff, hk, hbad]; rfl)

end Sys2Proof.Machine
end

section
/-!
PROOFS. What the links carry away: messages that are sent (R197 to R215), and what that leaves as it was.
-/
namespace Sys2Proof.Machine

/-- Nothing differs but links, messages and associations, what has been sent, registers and the count of free values. -/
def OnlySent (s t : State) : Prop :=
  t = { s with free := t.free, regs := t.regs, hat := { s.hat with linkAuth := t.hat.linkAuth }, links := t.links, stl := t.stl, outs := t.outs }

theorem OnlySent.refl (s : State) : OnlySent s s := rfl

theorem OnlySent.trans {s t u : State} (h : OnlySent s t) (k : OnlySent t u) : OnlySent s u := by
  unfold OnlySent at h k ⊢
  rw [k, h]

/-- A loop keeps what each turn keeps. -/
theorem foldl_onlySent {α : Type} {f : State → α → State} (h : ∀ t a, OnlySent t (f t a)) (l : List α) (s : State) : OnlySent s (l.foldl f s) := by
  induction l generalizing s with
  | nil => exact .refl s
  | cons a l ih => exact (h s a).trans (ih (f s a))

theorem onlySent_modLink (s : State) (l : Nat) (f : Link → Link) : OnlySent s (s.modLink l f) := rfl

theorem onlySent_stl (s : State) (x : Stl) : OnlySent s { s with stl := x } := rfl

theorem onlySent_putFlit (s : State) (l : Nat) (f : TxFlit) : OnlySent s (s.putFlit l f) := rfl

theorem onlySent_sendFlit (s : State) (l : Nat) (f : TxFlit) : OnlySent s (s.sendFlit l f) := (onlySent_modLink ..).trans (onlySent_putFlit ..)

theorem onlySent_putOnLink (s : State) (l dst tc : Nat) (ms : List StlMsg) : OnlySent s (s.putOnLink l dst tc ms) := by
  unfold State.putOnLink
  exact foldl_onlySent (fun t i => onlySent_sendFlit ..) _ s

/-- An item that is sent changes links and messages alone. -/
theorem onlySent_trySendItem {s t : State} {it : TxItem} {l n : Nat} (h : s.trySendItem it = some (l, n, t)) : OnlySent s t := by
  cases it with
  | msg die dst m =>
    unfold State.trySendItem at h
    dsimp only at h
    split at h
    · cases h
    · split at h
      · cases h
      · cases h
        exact (onlySent_stl ..).trans (onlySent_putOnLink ..)
  | flit fr die f =>
    unfold State.trySendItem at h
    dsimp only at h
    split at h
    · cases h
    · split at h
      · cases h
      · split at h
        · cases h
          exact (onlySent_stl ..).trans (onlySent_sendFlit ..)
        · cases h
          exact (((onlySent_stl ..).trans (onlySent_sendFlit ..)).trans (onlySent_stl ..)).trans (onlySent_modLink ..)

theorem onlySent_pumpStep {s t : State} (h : s.pumpStep = some t) : OnlySent s t := by
  have hsend : ∀ c ∈ (heads [] s.stl.queue).filterMap (fun i => (s.trySendItem i).map (fun r => (i.tc, r))), OnlySent s c.2.2.2 := fun c hc => by
    obtain ⟨i, -, hi⟩ := List.mem_filterMap.1 hc
    obtain ⟨r, hr, rfl⟩ := Option.map_eq_some_iff.1 hi
    exact onlySent_trySendItem hr
  unfold State.pumpStep at h
  dsimp only at h
  generalize (heads [] s.stl.queue).filterMap (fun i => (s.trySendItem i).map (fun r => (i.tc, r))) = cs at h hsend
  split at h
  · next t' hfirst =>
    cases h
    rcases (Option.orElse_eq_some _ _ _).1 hfirst with hc | ⟨-, hc⟩
    · exact hsend _ (List.mem_of_find?_eq_some hc)
    · exact hsend _ (List.mem_of_find?_eq_some hc)
  · split at h
    · cases h
    · split at h
      · next t' hpick =>
        cases h
        obtain ⟨tc, -, hc⟩ := Option.bind_eq_some_iff.1 hpick
        exact (hsend _ (List.mem_filter.1 (List.mem_of_find?_eq_some hc)).1).trans (onlySent_modLink ..)
      · cases h

theorem onlySent_pumpN (n : Nat) (s : State) : OnlySent s (pumpN n s) := by
  induction n generalizing s with
  | zero => exact .refl s
  | succ n ih =>
    unfold pumpN
    split
    · next t ht => exact (onlySent_pumpStep ht).trans (ih t)
    · exact .refl s

theorem onlySent_enqueue (s : State) (l : List TxItem) : OnlySent s (s.enqueue l) := (onlySent_stl ..).trans (onlySent_pumpN ..)

theorem onlySent_emit (s : State) (die dst : Nat) (m : StlMsg) : OnlySent s (s.emit die dst m) := by
  unfold State.emit
  split
  · rfl
  · split
    · rfl
    · exact onlySent_enqueue ..

theorem onlySent_authHatter (s : State) (pkg : Nat) : OnlySent s (s.authHatter pkg) := by
  unfold State.authHatter
  split <;> rfl

/-- A message that the hatters authenticate. -/
theorem onlySent_sealMgmt {s t : State} {dst : Nat} {m m' : StlMsg} (h : s.sealMgmt dst m = some (m', t)) : OnlySent s t := by
  obtain ⟨k, -, hk⟩ := Option.map_eq_some_iff.1 h
  cases hk
  exact (onlySent_authHatter s dst).trans rfl

theorem onlySent_stlSendAs (s : State) (die dst : Nat) (h : Option Nat) (b : StlBody) (q : Mreq) : OnlySent s (s.stlSendAs die dst h b q) := by
  unfold State.stlSendAs
  dsimp only
  generalize hu : (if (tcOf b == 2 || decide (tcOf b ≥ 4)) = true then _ else s : State) = u
  have hsu : OnlySent s u := by rw [← hu]; split <;> rfl
  generalize hv : (if (tcOf b == 2) = true then _ else u : State) = v
  have hsv : OnlySent s v := by
    rw [← hv]
    split
    · exact hsu.trans (onlySent_stl ..)
    · exact hsu
  refine hsv.trans ?_
  split
  all_goals
    split
    · split
      · exact (onlySent_stl ..).trans (onlySent_emit ..)
      · exact .refl v
    · split
      · split
        · next m' t ht => exact (onlySent_sealMgmt ht).trans (onlySent_emit ..)
        · exact .refl v
      · exact onlySent_emit ..

theorem onlySent_stlSend (s : State) (die dst : Nat) (h : Option Nat) (b : StlBody) : OnlySent s (s.stlSend die dst h b) := onlySent_stlSendAs ..

theorem onlySent_rewatch (s : State) (pkg : Nat) : OnlySent s (s.rewatch pkg) := by
  unfold State.rewatch
  split
  · split
    · rfl
    · exact (onlySent_stl ..).trans (onlySent_authHatter ..)
  · rfl

theorem onlySent_associate (s : State) (die pkg h : Nat) : OnlySent s (s.associate die pkg h) := by
  unfold State.associate
  split
  · rfl
  · split
    · rfl
    · split <;> rfl

/-- The release of a rotation engine takes it out of the table, and watches its packages anew. -/
theorem onlySent_freeRot (s : State) (e : Nat) : OnlySent { s with rots := s.rots.erase e } (s.freeRot e) :=
  (onlySent_rewatch ..).trans (onlySent_rewatch ..)

theorem onlySent_sendPiece (s : State) (e slot code : Nat) (d : List PB) : OnlySent s (s.sendPiece e slot code d) := by
  unfold State.sendPiece
  exact foldl_onlySent (fun t c => onlySent_stlSend ..) _ s

/-- An engine whose slots are freed: what it holds in slots, and whose heads have passed it. -/
def Rot.holding (k : Rot) (full : List (Nat × Nat × Nat)) (cons : Table (List Nat)) : Rot := { k with full := full, cons := cons }

/-- Slots that are free return credits, and are no longer held. -/
theorem onlySent_freeSlotsOf (s : State) (e : Nat) (g : Region) :
    ∃ f : Rot → Rot, (∀ k, ∃ full cons, f k = k.holding full cons) ∧ OnlySent (s.modRot e f) (s.freeSlotsOf e g) := by
  unfold State.freeSlotsOf
  dsimp only
  exact ⟨_, fun k => ⟨_, _, rfl⟩, foldl_onlySent (fun t p => onlySent_stlSend ..) _ _⟩

end Sys2Proof.Machine
end

section
/-!
PROOFS. Rotation engines: pieces that land and pieces that are sent (R86, R88).
-/
namespace Sys2Proof.Machine

section
variable {s u v : State} {e slot code n : Nat} {k : Rot} {g : Region} {data dd : List Byte} {psn pp : List Nat} {d : List PB}

/-! ### A piece lands (R86) -/

theorem onlyRun_waits (s : State) (l : List Wait) : OnlyRun s { s with waits := l } := rfl

theorem OnlyRun.rot {s t : State} (h : OnlyRun s t) (e : Nat) : t.rot e = s.rot e := by rw [h]; rfl

/-- Kernels that wait go on: works and waits alone change. -/
theorem onlyRun_wakeAttn (s : State) (k : Rot) : OnlyRun s (s.wakeAttn k) := by
  unfold State.wakeAttn
  generalize s.worksOf _ = l
  induction l generalizing s with
  | nil => exact .refl s
  | cons p l ih => exact ((onlyRun_modWork ..).trans (onlyRun_waits ..)).trans (ih _)

/-- The bytes of a piece: its own, or those of the parts that messages brought. -/
def Rot.pieceBytes (k : Rot) (code : Nat) (data : List Byte) (psn : List Nat) : Option (List Byte × List Nat) :=
  if k.stage.filter (fun p => p.code == code) = [] then some (data, psn)
  else joinParts ((k.stage.filter (fun p => p.code == code)).length + 1) 0 (k.stage.filter (fun p => p.code == code))

/-- A piece that an engine does not take: it serves no ring or has stopped, lands another, or the slot, the piece's size or its origin is wrong. -/
def Rot.refuses (k : Rot) (slot code : Nat) (d : List Byte) : Prop :=
  k.hood = 0 ∨ k.stopped = true ∨ k.part.isSome = true ∨ 2 ≤ slot ∨ (∃ p ∈ k.full, p.1 = slot ∨ p.2.1 = code) ∨ d = [] ∨ k.slotb < d.length ∨
    k.n ≤ pieceOrigin code ∨ pieceOrigin code = k.pos

/-- A piece that arrives lands, or nothing happens. -/
theorem landedEff_eq (hb : (s.rot e).pieceBytes code data psn = some (dd, pp)) :
    ((s.rot e).refuses slot code dd → landedEff e slot code data psn s = s) ∧
      (¬ (s.rot e).refuses slot code dd → landedEff e slot code data psn s = s.land e slot code dd pp) := by
  unfold Rot.pieceBytes at hb
  simp only [landedEff, List.isEmpty_iff, hb]
  have hiff : ((decide ((s.rot e).hood = 0) || (s.rot e).stopped || (s.rot e).part.isSome || decide (2 ≤ slot) ||
      (s.rot e).full.any (fun p => p.1 == slot || p.2.1 == code) || decide (dd = []) || decide ((s.rot e).slotb < dd.length) ||
      decide ((s.rot e).n ≤ pieceOrigin code) || pieceOrigin code == (s.rot e).pos) = true) ↔ (s.rot e).refuses slot code dd := by
    simp [Rot.refuses, or_assoc]
  exact ⟨fun h => if_pos (hiff.2 h), fun h => if_neg (mt hiff.1 h)⟩

/-- The engine once a piece has landed: the slot is full, and the piece goes on unless NEXT is its origin. -/
def Rot.landed (k : Rot) (slot code n : Nat) : Rot := { k with
  full := k.full ++ [(slot, code, n)], part := none, stage := k.stage.filter (fun p => p.code != code)
  todo := if k.atEnd code then k.todo else k.todo ++ [code] }

/-- A piece whose bytes are written has landed; memory is as the write left it, and no other engine has changed. -/
theorem land_frame (hwr : s.wrVA (rotEng (s.rot e) e) (if slot = 0 then (s.rot e).slot0 else (s.rot e).slot1)
    (((List.range dd.length).zip dd).map (fun p => (p.2, pp.contains (p.1 / 64)))) = (n, u, none)) :
    (s.land e slot code dd pp).rot e = (s.rot e).landed slot code dd.length ∧ (s.land e slot code dd pp).mem = u.mem ∧
      (s.land e slot code dd pp).hostMem = u.hostMem ∧ ∀ f, f ≠ e → (s.land e slot code dd pp).rot f = s.rot f := by
  have hacc := wrVA_accessed s (rotEng (s.rot e) e) (if slot = 0 then (s.rot e).slot0 else (s.rot e).slot1)
    (((List.range dd.length).zip dd).map (fun p => (p.2, pp.contains (p.1 / 64))))
  rw [hwr] at hacc
  have hrot : ∀ f, u.rot f = s.rot f := fun f => by rw [State.rot, hacc.rots]; rfl
  have hland : s.land e slot code dd pp = (u.modRot e (fun k => k.landed slot code dd.length)).wakeAttn (s.rot e) := by
    simp only [State.land, hwr]
    rfl
  have hrun := onlyRun_wakeAttn (u.modRot e (fun k => k.landed slot code dd.length)) (s.rot e)
  rw [hland]
  refine ⟨?_, by rw [hrun]; rfl, by rw [hrun]; rfl, fun f hf => ?_⟩
  · rw [hrun.rot, State.modRot_rot_self, hrot]
  · rw [hrun.rot, State.modRot_rot_of_ne _ _ hf, hrot]

/-! ### A piece is sent (R86, R88) -/

/-- The region record of a ring, once read, is an access. -/
theorem ringRegion_accessed (h : s.ringRegion e = (some g, u)) : Accessed s u := by
  have hacc := rdVA_accessed s (rotEng (s.rot e) e) (s.rot e).region 32
  unfold State.ringRegion at h
  dsimp only at h
  generalize s.rdVA _ _ _ = q at h hacc
  obtain ⟨d, v, stop⟩ := q
  cases stop with
  | some y => cases h
  | none =>
    obtain ⟨-, rfl⟩ := Prod.mk.inj h
    exact hacc

/-- An engine that has stopped, has a fault to be answered, or has neither a piece nor a credit, sends nothing. -/
theorem sendEff_idle (h : (s.rot e).hood = 0 ∨ (s.rot e).stopped = true ∨ s.rotFault e = true ∨
    ((s.rot e).part = none ∧ ((s.rot e).cred = 0 ∨ (s.rot e).todo = []))) : sendEff e s = s := by
  unfold sendEff
  dsimp only
  by_cases hstop : ((s.rot e).hood = 0 || (s.rot e).stopped || s.rotFault e) = true
  · rw [if_pos hstop]
  · rw [if_neg hstop]
    simp only [Bool.or_eq_true, decide_eq_true_eq, not_or, Bool.not_eq_true] at hstop
    obtain ⟨⟨hhood, hstopped⟩, hfault⟩ := hstop
    obtain ⟨hpart, hnone⟩ : (s.rot e).part = none ∧ ((s.rot e).cred = 0 ∨ (s.rot e).todo = []) := by simpa [hhood, hstopped, hfault] using h
    rw [hpart]
    dsimp only
    rcases hnone with hcred | htodo
    · rw [if_pos (by simp [hcred])]
    · rw [htodo]
      exact ite_self s

/-- The source of the next piece: its own from its region, another's from its slot. -/
def Rot.source (k : Rot) (g : Region) (c : Nat) : Option (Nat × Nat) :=
  if pieceOrigin c = k.pos then
    some (g.addr ((k.rounds[pieceRound c]?).getD (0, 0)).1 0 0 + (k.place g (pieceNo c)).1, (k.place g (pieceNo c)).2)
  else (k.full.find? (fun x => x.2.1 == c)).map (fun x => (if x.1 = 0 then k.slot0 else k.slot1, x.2.2))

/-- An engine that serves a ring, has a credit and a piece to send. -/
structure Sends (s : State) (e c : Nat) (rest : List Nat) (g : Region) (u : State) : Prop where
  hood : (s.rot e).hood ≠ 0
  stopped : (s.rot e).stopped = false
  fault : s.rotFault e = false
  part : (s.rot e).part = none
  cred : (s.rot e).cred ≠ 0
  todo : (s.rot e).todo = c :: rest
  region : s.ringRegion e = (some g, u)

section
variable {c : Nat} {rest : List Nat}

/-- A piece of another origin that no slot holds is dropped from what is to be sent. -/
theorem sendEff_missing (h : Sends s e c rest g u) (hsrc : (s.rot e).source g c = none) :
    sendEff e s = u.modRot e (fun k => { k with todo := rest }) := by
  obtain ⟨hhood, hstopped, hfault, hpart, hcred, htodo, hregion⟩ := h
  have hserves : ((s.rot e).hood = 0 || (s.rot e).stopped || s.rotFault e) = false := by simp [hhood, hstopped, hfault]
  have hready : ((s.rot e).cred = 0 || s.rotFault e) = false := by simp [hcred, hfault]
  unfold Rot.source at hsrc
  simp only [sendEff, hserves, hpart, hready, htodo, hregion, hsrc, Bool.false_eq_true, if_false]

/-- A piece whose bytes are read is sent, for a credit, and slots that are then free return theirs. -/
theorem sendEff_sent {va : Nat} (h : Sends s e c rest g u) (hsrc : (s.rot e).source g c = some (va, n))
    (hrd : u.rdVA (rotEng (s.rot e) e) va n = (d, v, none)) :
    sendEff e s = ((v.sendPiece e ((s.rot e).sent % 2) c d).modRot e (fun k => { k with
      cred := k.cred - 1, sent := k.sent + 1, todo := rest })).freeSlotsOf e g := by
  obtain ⟨hhood, hstopped, hfault, hpart, hcred, htodo, hregion⟩ := h
  have hserves : ((s.rot e).hood = 0 || (s.rot e).stopped || s.rotFault e) = false := by simp [hhood, hstopped, hfault]
  have hready : ((s.rot e).cred = 0 || s.rotFault e) = false := by simp [hcred, hfault]
  unfold Rot.source at hsrc
  simp only [sendEff, hserves, hpart, hready, htodo, hregion, hsrc, hrd, Bool.false_eq_true, if_false]

theorem OnlySent.rot {s t : State} (h : OnlySent s t) (e : Nat) : t.rot e = s.rot e := by rw [h]; rfl
theorem OnlySent.mem {s t : State} (h : OnlySent s t) : t.mem = s.mem := by rw [h]
theorem OnlySent.tiles {s t : State} (h : OnlySent s t) : t.tiles = s.tiles := by rw [h]

/-- What a send leaves of its engine, of memory and of tiles. -/
theorem sent_frame {va : Nat} (h : Sends s e c rest g u) (hsrc : (s.rot e).source g c = some (va, n))
    (hrd : u.rdVA (rotEng (s.rot e) e) va n = (d, v, none)) :
    ((sendEff e s).rot e).cred = (s.rot e).cred - 1 ∧ ((sendEff e s).rot e).sent = (s.rot e).sent + 1 ∧ ((sendEff e s).rot e).todo = rest ∧
      (sendEff e s).mem = v.mem ∧ (sendEff e s).tiles = v.tiles := by
  have hacc := rdVA_accessed u (rotEng (s.rot e) e) va n
  rw [hrd] at hacc
  have hsend := onlySent_sendPiece v e ((s.rot e).sent % 2) c d
  rw [sendEff_sent h hsrc hrd]
  generalize v.sendPiece e ((s.rot e).sent % 2) c d = w at hsend
  have hrot : w.rot e = s.rot e := by
    rw [hsend.rot, State.rot, hacc.rots, (ringRegion_accessed h.region).rots]
    rfl
  obtain ⟨f, hf, hfree⟩ := onlySent_freeSlotsOf (w.modRot e (fun k => { k with cred := k.cred - 1, sent := k.sent + 1, todo := rest })) e g
  have hk := hfree.rot e
  obtain ⟨full, cons, hhold⟩ := hf { w.rot e with cred := (w.rot e).cred - 1, sent := (w.rot e).sent + 1, todo := rest }
  rw [State.modRot_rot_self, State.modRot_rot_self, hhold, hrot] at hk
  rw [hk, hfree.mem, hfree.tiles]
  exact ⟨rfl, rfl, rfl, hsend.mem, hsend.tiles⟩

/-- What dropping a piece leaves. -/
theorem missing_frame (h : Sends s e c rest g u) (hsrc : (s.rot e).source g c = none) :
    ((sendEff e s).rot e).cred = (s.rot e).cred ∧ ((sendEff e s).rot e).sent = (s.rot e).sent ∧ ((sendEff e s).rot e).todo = rest ∧
      (sendEff e s).mem = u.mem ∧ (sendEff e s).tiles = s.tiles := by
  have hacc := ringRegion_accessed h.region
  have hrot : u.rot e = s.rot e := by rw [State.rot, hacc.rots]; rfl
  rw [sendEff_missing h hsrc, State.modRot_rot_self, hrot]
  exact ⟨rfl, rfl, rfl, rfl, hacc.sameSpan.tiles⟩

end

end

end Sys2Proof.Machine
end

section
/-!
PROOFS. The kernel KVRING (R84, R85): a ring is set up and torn down.
-/
namespace Sys2Proof.Machine

theorem OnlySent.sameSpan {s t : State} (h : OnlySent s t) : SameSpan s t := by
  rw [h]
  exact .of_eq rfl rfl rfl rfl rfl rfl

theorem arrive_rots (s : State) (w op : Nat) (mine : List Byte → Bool) : (s.arrive w op mine).rots = s.rots := by rw [arrive_eq]

section
variable {s z u t : State} {w e : Nat} {x : Work} {k : Rot} {r : List Byte}

/-- A kernel whose turns only count their tiles, after what its rings' messages change: it has run, and rings, tiles and memory are as they were. -/
theorem runTiles_sent (hz : Whole z w 9 x) (hu : SameSpan z u) (ht : OnlySent u t) :
    let v := finish s (t.runTiles w (fun v k _ => v.tileDone w k))
    v.rots = u.rots ∧ v.tiles = u.tiles ∧ v.mem = u.mem ∧ ∃ y, v.work? w = some y ∧ y.phase = .finished ∧ y.ran = true := by
  intro v
  obtain ⟨hrun, htiles, hwork⟩ := runTiles_dones hz (hu.trans ht.sameSpan)
  refine ⟨?_, ?_, ?_, ?_⟩
  · show (finish s _).rots = _
    rw [finish_rots, hrun, ht]
  · show (finish s _).tiles = _
    rw [finish_tiles, htiles, ht]
  · show (finish s _).mem = _
    rw [finish_mem, hrun, ht]
  · simpa only [v, finish_work] using hwork

/-! ### Set-up (R84) -/

/-- The die whose links a ring uses. -/
def Rot.die (k : Rot) : Nat := if k.links.toNat % 2 ^ 20 = 0 then 1 else 0

/-- The engine of a ring that a kernel sets up. -/
def Rot.servedFor (k : Rot) (x : Work) : Rot := { k with hood := x.hood + 1, ctx := x.ctx, recVa := kvringVa x.args }

/-- The first free engine of a die. -/
theorem find_free_engine (hfree : (u.rot e).hood = 0) (hused : ∀ f, f / 8 = e / 8 → f < e → (u.rot f).hood ≠ 0) :
    (List.range 8).find? (fun n => (u.rot (8 * (e / 8) + n)).hood == 0) = some (e % 8) := by
  rw [List.find?_range_eq_some]
  refine ⟨?_, List.mem_range.2 (Nat.mod_lt _ (by decide)), fun n hn => ?_⟩
  · rw [Nat.div_add_mod, beq_iff_eq]
    exact hfree
  · have := hused (8 * (e / 8) + n) (by omega) (by omega)
    simpa using this

/-- A die with no free engine. -/
theorem find_no_engine {die : Nat} (hused : ∀ f, f / 8 = die → (u.rot f).hood ≠ 0) :
    (List.range 8).find? (fun n => (u.rot (8 * die + n)).hood == 0) = none := by
  rw [List.find?_eq_none]
  intro n hn
  have := hused (8 * die + n) (by have := List.mem_range.1 hn; omega)
  simpa using this

section
variable (hz : z = s.arrive w 9 (fun a => !fldB a 0 0)) (hk : Whole z w 9 x) (hcnt : 0 < x.cnt) (hact : fldB x.args 0 0 = false)
  (hr : z.kernelRecord w x (kvringVa x.args) 64 = (some r, u))
include hz hk hcnt hact hr

/-- What sets a ring up once its record is read: a bad record ends the kernel, and so does a die with no free engine. -/
theorem ringUpEff_recorded :
    (parseRing r (u.hood x.hood).block.links = none → ringUpEff w s = u.endInvalid w) ∧
    (parseRing r (u.hood x.hood).block.links = some k →
      ((List.range 8).find? (fun n => (u.rot (8 * k.die + n)).hood == 0) = none → ringUpEff w s = u.completeAs w 3) ∧
      ∀ n, (List.range 8).find? (fun n => (u.rot (8 * k.die + n)).hood == 0) = some n → ∃ t,
        OnlySent (u.modRot (8 * k.die + n) (fun _ => k.servedFor x)) t ∧ ringUpEff w s = t.runTiles w (fun v k _ => v.tileDone w k)) := by
  subst hz
  obtain ⟨hkernel, hrec, -⟩ := id hk
  have hcnt0 : ¬ x.cnt = 0 := by omega
  simp only [ringUpEff, hkernel, hact, hrec, hr, Bool.not_true, Bool.false_eq_true, if_false, if_neg hcnt0]
  refine ⟨fun hring => by rw [hring], fun hring => ?_⟩
  rw [hring]
  dsimp only
  refine ⟨fun hfull => ?_, fun n hn => ?_⟩
  · unfold Rot.die at hfull
    rw [hfull]
  · unfold Rot.die at hn ⊢
    rw [hn]
    exact ⟨_, (((onlySent_rewatch ..).trans (onlySent_rewatch ..)).trans (onlySent_associate ..)).trans (onlySent_associate ..), rfl⟩

variable (hp : Powered s)
include hp

/-- A ring that finds a free engine is set up there, and the kernel has run. -/
theorem setUp_completes (hring : parseRing r (u.hood x.hood).block.links = some k) (hdie : e / 8 = k.die) (hfree : (s.rot e).hood = 0)
    (hused : ∀ f, f / 8 = e / 8 → f < e → (s.rot f).hood ≠ 0) : Completes (.kvringSetUp w) s (fun t =>
      t.rot e = k.servedFor x ∧ (∀ f, f ≠ e → t.rot f = s.rot f) ∧ t.tiles = s.tiles ∧ t.mem = u.mem ∧
      ∃ y, t.work? w = some y ∧ y.phase = .finished ∧ y.ran = true) := by
  obtain ⟨hspan, hrots⟩ := kernelRecord_read hr
  have hrot : ∀ f, u.rot f = s.rot f := fun f => by rw [State.rot, hrots, hz, arrive_rots]; rfl
  obtain ⟨-, hup⟩ := ringUpEff_recorded (k := k) hz hk hcnt hact hr
  obtain ⟨-, hup⟩ := hup hring
  obtain ⟨t, ht, heff⟩ := hup (e % 8) (by
    rw [← hdie]
    exact find_free_engine (by rw [hrot]; exact hfree) fun f hf hlt => by rw [hrot]; exact hused f hf hlt)
  rw [← hdie, Nat.div_add_mod] at ht
  have hset : SameSpan z (u.modRot e (fun _ => k.servedFor x)) := hspan.trans (.of_eq rfl rfl rfl rfl rfl rfl)
  obtain ⟨hvrots, htiles, hmem, hwork⟩ := runTiles_sent (s := s) hk hset ht
  refine completes_run rfl rfl hp ?_
  rw [heff]
  have hvrot : ∀ f, (finish s (t.runTiles w (fun v k _ => v.tileDone w k))).rot f = (u.modRot e (fun _ => k.servedFor x)).rot f := fun f => by
    rw [State.rot, hvrots]; rfl
  refine ⟨?_, fun f hf => ?_, ?_, hmem, hwork⟩
  · rw [hvrot, State.modRot_rot_self]
  · rw [hvrot, State.modRot_rot_of_ne _ _ hf, hrot]
  · rw [htiles]
    exact hspan.tiles.trans (by rw [hz, arrive_eq])

/-- A die with no free engine FAILS the kernel. -/
theorem setUp_fails (hring : parseRing r (u.hood x.hood).block.links = some k) (hused : ∀ f, f / 8 = k.die → (s.rot f).hood ≠ 0) (hx : Unrecorded x) :
    Completes (.kvringSetUp w) s (ThenSchedules z x.hood (fun y => Ended z w x y ∧ y.rots = s.rots ∧ y.tiles = s.tiles)) := by
  obtain ⟨hspan, hrots⟩ := kernelRecord_read hr
  have hsrots : u.rots = s.rots := by rw [hrots, hz, arrive_rots]
  obtain ⟨-, hup⟩ := ringUpEff_recorded (k := k) hz hk hcnt hact hr
  obtain ⟨hup, -⟩ := hup hring
  have heff := hup (find_no_engine fun f hf => by rw [State.rot, hsrots]; exact hused f hf)
  obtain ⟨hkernel, -⟩ := id hk
  obtain ⟨q, hq, hfinish⟩ := completeAs_recorded hkernel hspan (.refl u) hx (hz ▸ arrive_pending ..) 3
  refine completes_run rfl rfl hp ?_
  rw [heff, hfinish]
  exact ⟨q, ⟨hq.ended, hq.rots.trans hsrots, hq.tiles.trans (hspan.tiles.trans (by rw [hz, arrive_eq]))⟩, rfl⟩

/-- A bad ring record ends the kernel INVALID. -/
theorem setUp_invalid (hring : parseRing r (u.hood x.hood).block.links = none) (hx : Unrecorded x) :
    Completes (.kvringSetUp w) s (ThenSchedules z x.hood (fun y =>
      Ended z w x y ∧ y.rots = s.rots ∧ y.reg rCTX_INVALID x.ctx = satAdd 32 (u.reg rCTX_INVALID x.ctx) 1)) := by
  obtain ⟨hspan, hrots⟩ := kernelRecord_read hr
  have hsrots : u.rots = s.rots := by rw [hrots, hz, arrive_rots]
  obtain ⟨hup, -⟩ := ringUpEff_recorded (k := default) hz hk hcnt hact hr
  obtain ⟨hkernel, -⟩ := id hk
  obtain ⟨q, hq, hcount, hfinish⟩ := endInvalid_recorded hkernel hspan hx (hz ▸ arrive_pending ..)
  refine completes_run rfl rfl hp ?_
  rw [hup hring, hfinish]
  exact ⟨q, ⟨hq.ended, hq.rots.trans hsrots, hcount⟩, rfl⟩

end

/-! ### Tear-down (R85) -/

/-- The engine that serves the ring is released, where there is one, and the kernel has run. -/
theorem ringDownEff_whole (hz : z = s.arrive w 9 (fun a => fldB a 0 0)) (hk : Whole z w 9 x) (hact : fldB x.args 0 0 = true) :
    ringDownEff w s = ((s.ringEng x.hood x.ctx (kvringVa x.args)).elim z z.freeRot).runTiles w (fun v k _ => v.tileDone w k) := by
  have heng : ∀ h c va, z.ringEng h c va = s.ringEng h c va := fun h c va => by rw [State.ringEng, hz, arrive_rots]; rfl
  rw [← heng]
  subst hz
  obtain ⟨hkernel, hrec, -⟩ := id hk
  simp only [ringDownEff, hkernel, hact, hrec, Bool.not_true, Bool.false_eq_true, if_false]
  cases State.ringEng .. <;> rfl

theorem tearDown_completes (hp : Powered s) (hz : z = s.arrive w 9 (fun a => fldB a 0 0)) (hk : Whole z w 9 x) (hact : fldB x.args 0 0 = true)
    (heng : s.ringEng x.hood x.ctx (kvringVa x.args) = some e) : Completes (.kvringTearDown w) s (fun t =>
      (t.rot e).hood = 0 ∧ (∀ f, f ≠ e → t.rot f = s.rot f) ∧ t.tiles = s.tiles ∧ t.mem = s.mem ∧
      ∃ y, t.work? w = some y ∧ y.phase = .finished ∧ y.ran = true) := by
  have hspan : SameSpan z { z with rots := z.rots.erase e } := .of_eq rfl rfl rfl rfl rfl rfl
  obtain ⟨hvrots, htiles, hmem, hwork⟩ := runTiles_sent (s := s) hk hspan (onlySent_freeRot z e)
  have hsrots : z.rots = s.rots := by rw [hz, arrive_rots]
  refine completes_run rfl rfl hp ?_
  rw [ringDownEff_whole hz hk hact, heng, Option.elim_some]
  refine ⟨?_, fun f hf => ?_, htiles.trans (by rw [hz, arrive_eq]), hmem.trans (by rw [hz, arrive_eq]), hwork⟩
  · rw [State.rot, hvrots, at', Table.get, Table.find_erase_self]
    rfl
  · rw [State.rot, hvrots, at', Table.get, Table.find_erase_of_ne _ hf, hsrots]
    rfl

/-- A ring that is not set up has nothing to release. -/
theorem tearDown_completes_none (hp : Powered s) (hz : z = s.arrive w 9 (fun a => fldB a 0 0)) (hk : Whole z w 9 x) (hact : fldB x.args 0 0 = true)
    (heng : s.ringEng x.hood x.ctx (kvringVa x.args) = none) : Completes (.kvringTearDown w) s (fun t =>
      t.rots = s.rots ∧ t.tiles = s.tiles ∧ t.mem = s.mem ∧ ∃ y, t.work? w = some y ∧ y.phase = .finished ∧ y.ran = true) := by
  obtain ⟨hvrots, htiles, hmem, hwork⟩ := runTiles_sent (s := s) hk (.refl z) (.refl z)
  refine completes_run rfl rfl hp ?_
  rw [ringDownEff_whole hz hk hact, heng]
  exact ⟨hvrots.trans (by rw [hz, arrive_rots]), htiles.trans (by rw [hz, arrive_eq]), hmem.trans (by rw [hz, arrive_eq]), hwork⟩

end

end Sys2Proof.Machine
end

section
/-!
PROOFS. The attention kernel on one tile and one batt (R74 to R77, R253): what the sequence reads and writes of the tile.
-/
namespace Sys2Proof.Machine

/-! ### The row states of a tile (log entry 28) -/

/-- A tile with other row states and another batt in part. -/
def Tile.withRows (t : Tile) (rows : List (List RowSt)) (part : List PB) : Tile := { t with attn := rows, part := part }

section
variable (t : Tile) (rows : List (List RowSt)) (part : List PB)

/-- Writes to the scratchpad neither see nor change row states. -/
theorem wr_withRows (a : Nat) (d : List PB) : (t.withRows rows part).wr a d = (t.wr a d).withRows rows part := by
  unfold Tile.wr
  dsimp only
  refine List.foldl_hom (fun u : Tile => u.withRows rows part) (init := { t with spad := _ }) fun u i => ?_
  rfl

theorem wrAway_withRows (keep : List (Nat × Nat)) (a : Nat) (d : List PB) :
    (t.withRows rows part).wrAway keep a d = (t.wrAway keep a d).withRows rows part := by
  unfold Tile.wrAway
  refine List.foldl_hom (fun u : Tile => u.withRows rows part) fun u c => ?_
  dsimp only
  split
  · rfl
  · exact wr_withRows ..

theorem deliver_withRows (g : Region) (b : BattX) (a : List Byte) (seed : Nat) :
    (t.withRows rows part).deliver g b a seed = (t.deliver g b a seed).withRows rows part := by
  unfold Tile.deliver
  exact List.foldl_hom (fun u : Tile => u.withRows rows part) fun u p => wrAway_withRows ..

theorem attnOut_withRows (a : List Byte) (r : List RowSt) : (t.withRows rows part).attnOut a r =
    ((t.attnOut a r).1.withRows rows part, (t.attnOut a r).2) := by
  unfold Tile.attnOut
  dsimp only
  rw [wr_withRows]

end

/-! ### One batt (R75, R76) -/

/-- What an ATTN kernel without rotation works with. -/
def streamOf (g : Region) : AttnP := { g := g, n := 1, pos := 0, eng := none, round := 0 }

@[simp] theorem streamOf_g (g : Region) : (streamOf g).g = g := rfl

/-- The rows from which a pass starts. -/
def rowsInit (g : Region) (qs : List QRow) : List RowSt := qs.map (fun _ => rowInit g.d)

/-- The rows after a batt that was read, or skipped. -/
def rowsAfter (a : List Byte) (g : Region) (qs : List QRow) (b : Option BattX) : List RowSt :=
  b.elim (rowsInit g qs) (fun b => (rowsBatt (atC a) b qs (rowsInit g qs)).1)

/-- The tile after a batt that was read is delivered. -/
def Tile.delivered (t : Tile) (a : List Byte) (g : Region) (seed : Nat) (b : Option BattX) : Tile := b.elim t (fun b => t.deliver g b a seed)

/-- A tile that begins a pass has no row states, and its work has consumed no batt. -/
def attnStart (u : State) (w i : Nat) : State :=
  (u.modTile i (fun t => { t with attn := [], part := [] })).modWork w (fun y => { y with prog := y.prog.insert 0 0 })

/-- The rows start from the state of R75 where the pass has none. -/
def attnRows (u : State) (i : Nat) (rows : List RowSt) : State :=
  u.modTile i (fun t => if t.attn.length == 0 then { t with attn := t.attn ++ [rows] } else t)

/-- A batt that was read runs on the rows; one that is skipped leaves them. -/
def attnBatt (v : State) (a : List Byte) (g : Region) (w i seed : Nat) (qs : List QRow) (b : Option BattX) : State :=
  (b.elim v (v.consume a (streamOf g) w i seed qs)).modWork w (fun y => { y with prog := y.prog.insert 0 1 })

section
variable {s z u v : State} {w i : Nat} {x y : Work} {a : List Byte} {g : Region} {qs : List QRow} {b : Option BattX}

/-- The batt of a region of one batt that a tile consumes by itself. -/
theorem battStep_stream {seed : Nat} (hspan : atSpan x.args = false) (hnb : g.nb = 1)
    (hrd : u.readBatt ((tileEng x.hood x.ctx i 1 x.ring).of w) g (g.addr (atLayer x.args) (atHead x.args) 0) (atMaxPos x.args) = (b, v, none)) :
    u.battStep x.args (streamOf g) x w 0 i seed qs 0 = (b.elim v (v.consume x.args (streamOf g) w i seed qs), none, false) := by
  have hsegs : u.attnSegs x.args (streamOf g) x.cnt 0 0 = [(some (g.addr (atLayer x.args) (atHead x.args) 0), g.batt)] := by
    simp [State.attnSegs, hspan, streamOf, hnb]
  simp only [State.battStep, hsegs]
  rw [show (streamOf g).g = g from rfl, hrd]
  cases b <;> rfl

/-- The turn of the tile of an ATTN kernel over a region of one batt. -/
theorem attnTile_stream (hy : u.work? w = some y) (hprog : y.prog = []) (hspan : atSpan x.args = false) (hnb : g.nb = 1)
    (hqs : qs = (u.tile i).qRows x.args g.d)
    (hrd : (attnRows (attnStart u w i).draw.2 i (rowsInit g qs)).readBatt ((tileEng x.hood x.ctx i 1 x.ring).of w) g
      (g.addr (atLayer x.args) (atHead x.args) 0) (atMaxPos x.args) = (b, v, none)) :
    ∃ seed, attnTile x.args (streamOf g) x w u 0 i =
      ((attnBatt v x.args g w i seed qs b).attnFinish w i x.args
        (((attnBatt v x.args g w i seed qs b).tile i).attn.getLastD (rowsInit g qs))).tileDone w 0 := by
  have hnone : ((u.work? w).bind (fun y => y.prog.find 0)).isNone = true := by rw [hy, Option.bind_some, hprog]; rfl
  have hitems : attnItems x.args (streamOf g) x.cnt 0 = 1 := by simp [attnItems, hspan, streamOf, hnb]
  have hrows : ((attnStart u w i).tile i).qRows x.args g.d = qs := by
    rw [attnStart, State.tile, modWork_tiles]
    refine Eq.trans ?_ hqs.symm
    show (State.tile (u.modTile i _) i).qRows x.args g.d = _
    rw [State.modTile_tile_self]
    rfl
  have hrun : attnRun x.args (streamOf g) x w 0 i (attnStart u w i).draw.1 qs 1 0
      (attnStart u w i).draw.2 = (attnBatt v x.args g w i (attnStart u w i).draw.1 qs b, none, false) := by
    have hstep := battStep_stream (seed := (attnStart u w i).draw.1) (qs := qs) hspan hnb hrd
    simp only [attnRows, rowsInit] at hstep
    simp only [attnRun, hspan, Bool.false_and, Bool.false_or, beq_self_eq_true, if_true, Bool.false_eq_true, if_false, streamOf_g, hstep]
    rfl
  refine ⟨(attnStart u w i).draw.1, ?_⟩
  unfold attnStart at hrun hrows ⊢
  simp only [attnTile, prog_find_nil hy hprog, hnone, if_true, hspan, Bool.false_eq_true, if_false, hitems, streamOf_g, Nat.sub_zero, hrun, hrows]
  rfl

/-- What a batt leaves: the tile with the batt delivered and its rows, and what the work reports; nothing else. -/
structure AfterBatt (v t : State) (a : List Byte) (g : Region) (i : Nat) (qs : List QRow) (b : Option BattX) (old : Tile) (seed : Nat) : Prop where
  run : OnlyRun v t
  tile : t.tile i = (old.delivered a g seed b).withRows [rowsAfter a g qs b] []
  others : ∀ j, j ≠ i → t.tile j = v.tile j
  works : ∀ j, (t.work? j).map Work.unnoted = (v.work? j).map Work.unnoted

theorem consume_after {old : Tile} (hv : v.tile i = old.withRows [rowsInit g qs] []) (b : BattX) (seed : Nat) :
    AfterBatt v (v.consume a (streamOf g) w i seed qs b) a g i qs (some b) old seed := by
  have hlast : (v.tile i).attn.getLastD [] = rowsInit g qs := by rw [hv]; rfl
  unfold State.consume
  simp only [hlast, streamOf_g]
  have hnoted := fun (u : State) (r : EFlags × Nat) (vf : VFlags) => noted_report u w r.1 r.2 vf false
  refine ⟨(onlyRun_modTile v i _).trans (hnoted ..).run, ?_, fun j hj => ?_, fun j => (hnoted ..).works j⟩
  · rw [(hnoted ..).tile, State.modTile_tile_self, hv, deliver_withRows]
    rfl
  · rw [(hnoted ..).tile, State.modTile_tile_of_ne _ _ hj]

theorem attnBatt_after {old : Tile} (hv : v.tile i = old.withRows [rowsInit g qs] []) (seed : Nat) :
    AfterBatt v (attnBatt v a g w i seed qs b) a g i qs b old seed := by
  have hbefore : AfterBatt v (b.elim v (v.consume a (streamOf g) w i seed qs)) a g i qs b old seed := by
    cases b with
    | none => exact ⟨.refl v, hv, fun _ _ => rfl, fun _ => rfl⟩
    | some b => exact consume_after hv b seed
  obtain ⟨hrun, htile, hothers, hworks⟩ := hbefore
  have hnoted := noted_modWork (b.elim v (v.consume a (streamOf g) w i seed qs)) w (f := fun y => { y with prog := y.prog.insert 0 1 }) fun _ => rfl
  exact ⟨hrun.trans hnoted.run, (hnoted.tile i).trans htile, fun j hj => (hnoted.tile j).trans (hothers j hj), fun j =>
    (hnoted.works j).trans (hworks j)⟩

/-- The units are left with accumulators and vector registers of their own. -/
theorem attnLeave_eq (t : Tile) (seed n : Nat) : ∃ acc vregs, t.attnLeave seed n = { t with acc := acc, vregs := vregs } := by
  unfold Tile.attnLeave
  generalize List.foldl _ t.acc _ = acc
  generalize List.foldl _ t.vregs _ = vregs
  exact ⟨acc, vregs, rfl⟩

/-- The end of a pass leaves the scratchpad as its rows were written. -/
theorem finished_rd (t : Tile) (rows : List (List RowSt)) (part : List PB) (seed n : Nat) (vs : VFlags) (a : Nat) :
    ({ (t.withRows rows part).attnLeave seed n with attn := [], vstat := vs } : Tile).rd a = t.rd a := by
  obtain ⟨acc, vregs, hleave⟩ := attnLeave_eq (t.withRows rows part) seed n
  rw [hleave]
  rfl

/-- What the end of a pass leaves: the rows are written, and the work notes which are empty (R77). -/
theorem attnFinish_frame (hy : u.work? w = some y) (a : List Byte) (rows : List RowSt) :
    (∃ seed, (u.attnFinish w i a rows).tile i = { ((u.tile i).attnOut a rows).1.attnLeave seed 0 with
      attn := [], vstat := ((u.tile i).attnOut a rows).2.1 }) ∧ (∀ j, j ≠ i → (u.attnFinish w i a rows).tile j = u.tile j) ∧
      (u.attnFinish w i a rows).mem = u.mem ∧ ∃ k, (u.attnFinish w i a rows).work? w = some k ∧ k.phase = y.phase ∧ k.doneT = y.doneT ∧
        k.cnt = y.cnt ∧ k.empty = y.empty ||| ((u.tile i).attnOut a rows).2.2.1 := by
  unfold State.attnFinish
  generalize (u.tile i).attnOut a rows = out
  obtain ⟨out, vf, empty, psn⟩ := out
  dsimp only
  generalize hm : u.draw.2.modTile i _ = m
  have hnoted := noted_report m w 0 0 vf psn
  have htile : ∀ j, ((m.report w 0 0 vf psn).modWork w (fun x => { x with empty := x.empty ||| empty })).tile j = m.tile j := fun j =>
    (congrArg (at' · j) (modWork_tiles ..)).trans (hnoted.tile j)
  have hmy : m.work? w = some y := hm ▸ hy
  obtain ⟨k, hk, hky⟩ := hnoted.work hmy
  refine ⟨⟨u.draw.1, ?_⟩, fun j hj => ?_, ?_, { k with empty := k.empty ||| empty }, ?_, ?_, ?_, ?_, ?_⟩
  · rw [htile, ← hm, State.modTile_tile_self]
  · rw [htile, ← hm, State.modTile_tile_of_ne _ _ hj]
    rfl
  · rw [State.modWork_eq, hnoted.run, ← hm]
    rfl
  · rw [State.modWork_work_self, hk, Option.map_some]
  · exact (unnoted_congr Work.phase (fun _ => rfl) hky :)
  · exact (unnoted_congr Work.doneT (fun _ => rfl) hky :)
  · exact (unnoted_congr Work.cnt (fun _ => rfl) hky :)
  · exact congrArg (· ||| empty) (unnoted_congr Work.empty (fun _ => rfl) hky)

/-! ### The kernel ATTN (R74 to R77) -/

/-- Once its region record is read, an ATTN kernel without a ring runs on its tiles. -/
theorem attnEff_stream {r : List Byte} (hz : z = s.arrive w 8 (fun _ => true)) (hk : Whole z w 8 x) (hcnt : x.cnt = 1) (hok : attnOk x.args = true)
    (hring : atRing x.args = 0) (hr : z.kernelRecord w x (fld x.args 0x10 0 64) 32 = (some r, u)) (hg : parseRegion r = some g)
    (hlayer : atLayer x.args < g.layers) (hhead : atHead x.args < g.heads) : attnEff w s = attnGo w x (streamOf g) u := by
  subst hz
  obtain ⟨hkernel, hrec, -⟩ := id hk
  have hroom : (decide (g.layers ≤ atLayer x.args) || decide (g.heads ≤ atHead x.args)) = false := by simp [hlayer, hhead]
  simp only [attnEff, hkernel, hrec, hok, hcnt, hr, hg, hroom, hring, Bool.not_true, Bool.or_self, Bool.false_eq_true, if_false, if_true, one_ne_zero]
  rfl

/-- Without a ring, a kernel of one tile ends with its turn. -/
theorem attnGo_stream {t : State} (hz : Whole z w 8 x) (hu : SameSpan z u) (hcnt : x.cnt = 1) (hspan : atSpan x.args = false)
    (ht : attnTile x.args (streamOf g) x w u 0 (x.siteIn z 0) = t) (hy : t.work? w = some y) (hphase : y.phase = .started)
    (hdone : y.doneT.length = y.cnt) : attnGo w x (streamOf g) u = t.kernelEnd w := by
  have hnote : t.notePieces w x.args (streamOf g) = t := by
    unfold State.notePieces
    rw [hy]
    rfl
  unfold attnGo
  dsimp only
  rw [foldTiles_one hz hu hcnt, ht]
  simp only [hnote, hy, hphase, hdone, hspan, bne_self_eq_false, beq_self_eq_true, Bool.false_eq_true, if_false, if_true]

/-- The state in which the tile reads its batt: its rows start anew, and no other tile has changed. -/
theorem attnRows_start (hy : u.work? w = some y) (i : Nat) (rows : List RowSt) :
    (attnRows (attnStart u w i).draw.2 i rows).tile i = (u.tile i).withRows [rows] [] ∧
      (∀ j, j ≠ i → (attnRows (attnStart u w i).draw.2 i rows).tile j = u.tile j) ∧
      (attnRows (attnStart u w i).draw.2 i rows).work? w = some { y with prog := y.prog.insert 0 0 } := by
  have htile : ∀ j, (attnStart u w i).draw.2.tile j = (u.modTile i (fun t => { t with attn := [], part := [] })).tile j := fun j =>
    congrArg (at' · j) (modWork_tiles ..)
  refine ⟨?_, fun j hj => ?_, ?_⟩
  · rw [attnRows, State.modTile_tile_self, htile, State.modTile_tile_self]
    rfl
  · rw [attnRows, State.modTile_tile_of_ne _ _ hj, htile, State.modTile_tile_of_ne _ _ hj]
  · show (attnStart u w i).work? w = _
    rw [attnStart, State.modWork_work_self, State.modTile_work, hy, Option.map_some]

/-- What the turn of the tile leaves before it counts as done: the rows of the pass written after its batt is delivered, and which rows are empty. -/
theorem attnTurn_frame {m : Work} {old : Tile} (htile : v.tile i = old.withRows [rowsInit g qs] []) (hm : v.work? w = some m) (a : List Byte) (seed : Nat) :
    let t := (attnBatt v a g w i seed qs b).attnFinish w i a (((attnBatt v a g w i seed qs b).tile i).attn.getLastD (rowsInit g qs))
    let out := (old.delivered a g seed b).attnOut a (rowsAfter a g qs b)
    (∀ c, (t.tile i).rd c = out.1.rd c) ∧ (t.tile i).attn = [] ∧ (t.tile i).vstat = out.2.1 ∧ (∀ j, j ≠ i → t.tile j = v.tile j) ∧ t.mem = v.mem ∧
      ∃ f, t.work? w = some f ∧ f.phase = m.phase ∧ f.doneT = m.doneT ∧ f.cnt = m.cnt ∧ f.empty = m.empty ||| out.2.2.1 := by
  obtain ⟨hrun, hbtile, hothers, hworks⟩ := attnBatt_after (a := a) (w := w) (b := b) htile seed
  generalize attnBatt v a g w i seed qs b = u at hrun hbtile hothers hworks
  have hlast : (u.tile i).attn.getLastD (rowsInit g qs) = rowsAfter a g qs b := by rw [hbtile]; rfl
  obtain ⟨n, hn, hnm⟩ : ∃ n, u.work? w = some n ∧ n.unnoted = m.unnoted := by
    have := hworks w
    rw [hm, Option.map_some] at this
    exact Option.map_eq_some_iff.1 this
  obtain ⟨⟨left, hftile⟩, hfothers, hfmem, f, hf, hphase, hdone, hcnt, hempty⟩ := attnFinish_frame (i := i) hn a (rowsAfter a g qs b)
  rw [hbtile, attnOut_withRows] at hftile hempty
  intro t out
  have ht : t = u.attnFinish w i a (rowsAfter a g qs b) := congrArg (u.attnFinish w i a) hlast
  rw [ht, hftile]
  exact ⟨fun c => finished_rd .., rfl, rfl, fun j hj => (hfothers j hj).trans (hothers j hj), by rw [hfmem, hrun], f, hf,
    hphase.trans (unnoted_congr Work.phase (fun _ => rfl) hnm), hdone.trans (unnoted_congr Work.doneT (fun _ => rfl) hnm),
    hcnt.trans (unnoted_congr Work.cnt (fun _ => rfl) hnm), hempty.trans (congrArg (· ||| _) (unnoted_congr Work.empty (fun _ => rfl) hnm))⟩

/-- ATTN of one tile without a ring over a region of one batt. -/
theorem attn_completes {r : List Byte} (hp : Powered s) (hz : z = s.arrive w 8 (fun _ => true)) (hk : Whole z w 8 x) (hcnt : x.cnt = 1)
    (hprog : x.prog = []) (hok : attnOk x.args = true) (hring : atRing x.args = 0) (hspan : atSpan x.args = false)
    (hr : z.kernelRecord w x (fld x.args 0x10 0 64) 32 = (some r, u)) (hg : parseRegion r = some g) (hlayer : atLayer x.args < g.layers)
    (hhead : atHead x.args < g.heads) (hnb : g.nb = 1) (hi : i = x.siteIn z 0) (hqs : qs = (s.tile i).qRows x.args g.d)
    (hrd : (attnRows (attnStart u w i).draw.2 i (rowsInit g qs)).readBatt ((tileEng x.hood x.ctx i 1 x.ring).of w) g
      (g.addr (atLayer x.args) (atHead x.args) 0) (atMaxPos x.args) = (b, v, none)) :
    Completes (.attn w) s (fun t => ∃ seed,
      let out := ((s.tile i).delivered x.args g seed b).attnOut x.args (rowsAfter x.args g qs b)
      (∀ a, (t.tile i).rd a = out.1.rd a) ∧ (t.tile i).attn = [] ∧ (t.tile i).vstat = out.2.1 ∧ (∀ j, j ≠ i → t.tile j = s.tile j) ∧
      t.mem = v.mem ∧ ∃ y, t.work? w = some y ∧ y.phase = .finished ∧ y.ran = true ∧ y.empty = x.empty ||| out.2.2.1) := by
  have hztiles : z.tiles = s.tiles := by rw [hz, arrive_eq]
  obtain ⟨hu, -⟩ := kernelRecord_read hr
  have htile : ∀ j, u.tile j = s.tile j := fun j => by rw [State.tile, hu.tiles, hztiles]; rfl
  obtain ⟨hkernel, -, hdone, -⟩ := id hk
  obtain ⟨hx, hphase, -⟩ := kernel_spec hkernel
  obtain ⟨y, hy, hyx⟩ := hu.work hx
  rw [← htile] at hqs ⊢
  obtain ⟨hqtile, hqothers, hqwork⟩ := attnRows_start hy i (rowsInit g qs)
  obtain ⟨seed, hturn⟩ := attnTile_stream hy ((congrArg Work.prog hyx).trans hprog) hspan hnb hqs hrd
  have hacc := readBatt_accessed (attnRows (attnStart u w i).draw.2 i (rowsInit g qs)) ((tileEng x.hood x.ctx i 1 x.ring).of w) g
    (g.addr (atLayer x.args) (atHead x.args) 0) (atMaxPos x.args)
  rw [hrd] at hacc
  obtain ⟨m, hm, hmphase, hmdone, hmcnt, hmempty⟩ : ∃ m, v.work? w = some m ∧ m.phase = .started ∧ m.doneT = [] ∧ m.cnt = 1 ∧ m.empty = x.empty := by
    obtain ⟨m, hm, hmq⟩ := hacc.work hqwork
    exact ⟨m, hm, ((congrArg Work.phase hmq :).trans (congrArg Work.phase hyx :)).trans hphase,
      ((congrArg Work.doneT hmq :).trans (congrArg Work.doneT hyx :)).trans hdone,
      ((congrArg Work.cnt hmq :).trans (congrArg Work.cnt hyx :)).trans hcnt, (congrArg Work.empty hmq :).trans (congrArg Work.empty hyx :)⟩
  obtain ⟨hrd', hattn, hvstat, hothers, hmem, f, hf, hfphase, hfdone, hfcnt, hfempty⟩ :=
    attnTurn_frame (b := b) ((hacc.sameSpan.tile i).trans hqtile) hm x.args seed
  generalize State.attnFinish _ w i x.args _ = fin at hturn hrd' hattn hvstat hothers hmem hf
  have hfstarted : f.phase = .started := hfphase.trans hmphase
  have hfnil : f.doneT = [] := hfdone.trans hmdone
  have hfone : f.cnt = 1 := hfcnt.trans hmcnt
  obtain ⟨hrun, htiles, -, hwork⟩ := tileDone_kernelEnd hf hfstarted hfnil hfone
  have heff : attnEff w s = (fin.tileDone w 0).kernelEnd w := by
    have hdone : (fin.tileDone w 0).work? w = some { f with doneT := f.doneT ++ [0] } := by
      rw [State.tileDone, State.modWork_work_self, hf, Option.map_some]
    rw [attnEff_stream hz hk hcnt hok hring hr hg hlayer hhead]
    exact attnGo_stream hk hu hcnt hspan (hi ▸ hturn) hdone hfstarted (by simp [hfnil, hfone])
  have hend : ∀ j, ((fin.tileDone w 0).kernelEnd w).tile j = fin.tile j := fun j => congrArg (at' · j) htiles
  refine completes_run rfl rfl hp ⟨seed, ?_⟩
  rw [heff]
  simp only [finish_tile, finish_mem, finish_work, hend]
  refine ⟨hrd', hattn, hvstat, fun j hj => ?_, ?_, _, hwork, rfl, rfl, hmempty ▸ hfempty⟩
  · rw [hothers j hj, hacc.sameSpan.tile, hqothers j hj, htile]
  · rw [hrun, hmem]

end

/-- Settles O43: `attn_completes` follows one batt through its tile; a ring is set up in the engine that `find_free_engine` names and released by
`onlySent_freeRot`; `land_frame`, `sent_frame` and `missing_frame` say what becomes of pieces. -/
theorem attentionAndRingPieces : Obligations.AttentionAndRingPieces := by
  unfold Obligations.AttentionAndRingPieces
  intro s u v z q w e slot code i0 x k g r d b data dd psn pp hp
  refine ⟨fun hz hk hcnt hprog hok hring hspan hr hg hlayer hhead hnb hi hq hrd => ?_, fun hz hk hx hbad => ?_, fun hz hk hcnt hact hr => ?_,
    fun hz hk hact => ?_, fun he hkr hbytes => ?_, fun he hkr => ?_⟩
  · subst hq
    refine (attn_completes hp hz hk hcnt hprog hok hring hspan hr hg hlayer hhead hnb hi rfl hrd).imp ?_
    rintro t ⟨seed, hrun⟩
    exact ⟨seed, by cases b <;> exact hrun⟩
  · refine completes_endInvalid rfl rfl hp hk hx (hz ▸ arrive_pending ..) ?_
    subst hz
    simp only [attnEff, hk]
    exact if_pos (by simpa using hbad)
  · refine ⟨fun hnone hx => setUp_invalid hz hk hcnt hact hr hp hnone hx, fun hsome => ⟨fun hdie _ hfree hused => ?_, fun hused hx => ?_⟩⟩
    · exact setUp_completes hz hk hcnt hact hr hp hsome hdie hfree hused
    · exact setUp_fails hz hk hcnt hact hr hp hsome hused hx
  · exact ⟨tearDown_completes hp hz hk hact, tearDown_completes_none hp hz hk hact⟩
  · subst hkr
    obtain ⟨hrefuse, hland⟩ := landedEff_eq (slot := slot) hbytes
    refine ⟨fun hhood hstop hpart hslot hdd hfit hn hpos hfull n hwr => ?_, fun hbad => ?_⟩
    · have htakes : ¬ (s.rot e).refuses slot code dd := by
        unfold Rot.refuses
        push Not
        exact ⟨hhood, by simp [hstop], by simp [hpart], hslot, hfull, hdd, hfit, hn, hpos⟩
      refine completes_run rfl (decide_eq_true he) hp ?_
      rw [hland htakes]
      simp only [finish_rot, finish_mem, finish_hostMem]
      exact land_frame hwr
    · have hrefused : (s.rot e).refuses slot code dd := by
        have hfull : (∃ p, p ∈ (s.rot e).full ∧ p.1 = slot) → ∃ p ∈ (s.rot e).full, p.1 = slot ∨ p.2.1 = code :=
          fun ⟨p, hp, hslot⟩ => ⟨p, hp, Or.inl hslot⟩
        unfold Rot.refuses
        grind
      refine completes_run rfl (decide_eq_true he) hp (onlyPort_finish ?_)
      rw [hrefuse hrefused]
      rfl
  · subst hkr
    refine ⟨fun hidle => ?_, fun c rest hhood hstop hfault hpart hcred htodo hregion => ?_⟩
    · refine completes_run rfl (decide_eq_true he) hp (onlyPort_finish ?_)
      rw [sendEff_idle hidle]
      rfl
    · have hsends : Sends s e c rest g u := ⟨hhood, hstop, hfault, hpart, hcred, htodo, hregion⟩
      refine ⟨fun hown hrd => ?_, fun f hother hf hrd => ?_, fun hother hf => ?_⟩
      · refine completes_run rfl (decide_eq_true he) hp ?_
        simpa only [finish_rot, finish_mem, finish_tiles] using sent_frame hsends (if_pos hown) hrd
      · refine completes_run rfl (decide_eq_true he) hp ?_
        simpa only [finish_rot, finish_mem, finish_tiles] using
          sent_frame hsends ((if_neg hother).trans (by rw [hf, Option.map_some])) hrd
      · refine completes_run rfl (decide_eq_true he) hp ?_
        simpa only [finish_rot, finish_mem, finish_tiles] using
          missing_frame hsends ((if_neg hother).trans (by rw [hf, Option.map_none]))

end Sys2Proof.Machine
end

section
/-!
PROOFS. Repair of sites and channels (R143, R385, R386).
-/
namespace Sys2Proof.Machine

section
variable {s t : State} {f c : Nat} {ok : Bool}

/-! ### Sites in use (R143) -/

/-- The package's count of active tiles hangs on which sites are retired and which spares serve. -/
theorem activeTiles_congr (hsite : ∀ i, (t.site i).retired = (s.site i).retired) (hplank : ∀ p, (t.plank p).spare = (s.plank p).spare) :
    t.activeTiles = s.activeTiles := by
  have h : t.siteActive = s.siteActive := funext fun i => by simp only [State.siteActive, hsite, hplank]
  rw [State.activeTiles, State.activeTiles, h]

theorem activeTiles_lt (s : State) : s.activeTiles < 2 ^ 64 := by
  have h : s.activeTiles ≤ 1664 := (List.length_filter_le _ _).trans_eq List.length_range
  omega

/-- A site in use on a plank whose spare does not serve is none of the spare sites. -/
theorem ne_spareSite (ha : s.siteActive f = true) (hs : (s.plank (plankOf f)).spare = false) : f ≠ 13 * plankOf f + 12 := by
  simp only [State.siteActive, hs, Bool.or_false, Bool.and_eq_true, bne_iff_ne] at ha
  omega

/-! ### What a repair of a site of no hood does (R385) -/

@[simp] theorem retireSite_site_self (s : State) (f : Nat) : (s.retireSite f).site f = { s.site f with retired := true, isol := true } :=
  s.modSite_site_self f (fun k => { k with retired := true, isol := true })

@[simp] theorem retireSite_plank (s : State) (f p : Nat) : (s.retireSite f).plank p = s.plank p := rfl

@[simp] theorem retireSite_hoods (s : State) (f : Nat) : (s.retireSite f).hoods = s.hoods := rfl

@[simp] theorem retireSite_flash (s : State) (f : Nat) :
    (s.retireSite f).hat.flash = { s.hat.flash with retiredSites := s.hat.flash.retiredSites ++ [f] } := rfl

/-- A site is retired, and the spare of its plank is assigned, in the map and in the records. -/
def State.retireOnSpare (s : State) (f : Nat) : State :=
  let u := (s.retireSite f).modPlank (plankOf f) (fun k => { k with spare := true })
  { u with hat := { u.hat with flash := { u.hat.flash with spares := u.hat.flash.spares ++ [plankOf f] } } }

@[simp] theorem retireOnSpare_site (s : State) (f i : Nat) : (s.retireOnSpare f).site i = (s.retireSite f).site i := rfl

theorem retireOnSpare_spare (s : State) (f : Nat) : ((s.retireOnSpare f).plank (plankOf f)).spare = true :=
  congrArg Plank.spare ((s.retireSite f).modPlank_plank_self (plankOf f) (fun k => { k with spare := true }))

/-- A spare that was usable and has failed its test is marked. -/
def State.markSpare (s : State) (p : Nat) : State :=
  if !(s.plank p).spare && !(s.plank p).spareBad then s.modPlank p (fun k => { k with spareBad := true }) else s

theorem markSpare_eq (s : State) (p : Nat) : s.markSpare p = { s with planks := (s.markSpare p).planks } := by
  unfold State.markSpare
  split <;> rfl

@[simp] theorem markSpare_hat (s : State) (p : Nat) : (s.markSpare p).hat = s.hat := by rw [markSpare_eq]
@[simp] theorem markSpare_hoods (s : State) (p : Nat) : (s.markSpare p).hoods = s.hoods := by rw [markSpare_eq]

/-- Where its own spare does not serve, the plank's spare is bad once it has failed its test. -/
theorem markSpare_spareBad {p : Nat} (h : (s.plank p).spare = false) : ((s.markSpare p).plank p).spareBad = true := by
  unfold State.markSpare
  cases hb : (s.plank p).spareBad <;> simp [h, hb]

/-- A site on which REPAIR_SITE acts: active, isolated and of no hood, while no maintenance command runs. -/
structure Repairable (s : State) (f : Nat) : Prop where
  ready : Ready s
  idle : s.reg rTOP_MAINT_STATUS 0 % 8 ≠ 1
  lt : f < 1664
  active : s.siteActive f = true
  unowned : s.hoodsOfSite f = []
  isol : (s.site f).isol = true

theorem repairSiteEff_spare (h : Repairable s f) (hspare : (s.plank (plankOf f)).spare = false) (hbad : (s.plank (plankOf f)).spareBad = false) :
    repairSiteEff f true s = (((s.retireOnSpare f).modSite (13 * plankOf f + 12) (fun k => { k with isol := false })).setReg
      rTOP_ACTIVE_TILES 0 (s.retireOnSpare f).activeTiles).setReg rTOP_MAINT_STATUS 0 2 := by
  obtain ⟨⟨-, hr⟩, hi, hf, ha, hu, hs⟩ := h
  simp [repairSiteEff, State.maintBusy, State.failAll, State.retireOnSpare, hr, hi, ha, hu, hs, hspare, hbad, Nat.not_le.2 hf]

theorem repairSiteEff_lost (h : Repairable s f) (hno : (s.plank (plankOf f)).spare = true ∨ ok = false) :
    repairSiteEff f ok s = (((s.markSpare (plankOf f)).retireSite f).setReg
      rTOP_ACTIVE_TILES 0 ((s.markSpare (plankOf f)).retireSite f).activeTiles).setReg rTOP_MAINT_STATUS 0 5 := by
  obtain ⟨⟨-, hr⟩, hi, hf, ha, hu, hs⟩ := h
  have hunused : (!(s.plank (plankOf f)).spare && !(s.plank (plankOf f)).spareBad && ok) = false := by
    rcases hno with h | h <;> simp [h]
  simp [repairSiteEff, State.maintBusy, State.failAll, State.markSpare, hr, hi, ha, hu, hs, hunused, Nat.not_le.2 hf]

/-- A repair with a good spare: the spare serves in the place of the site. -/
theorem repairSite_spare (h : Repairable s f) (hspare : (s.plank (plankOf f)).spare = false) (hbad : (s.plank (plankOf f)).spareBad = false) :
    Completes (.repairSite f true) s (fun t =>
      t.reg rTOP_MAINT_STATUS 0 = 2 ∧ (t.site f).retired = true ∧ (t.plank (plankOf f)).spare = true ∧
      (t.site (13 * plankOf f + 12)).isol = false ∧ t.hat.flash.retiredSites = s.hat.flash.retiredSites ++ [f] ∧
      t.hat.flash.spares = s.hat.flash.spares ++ [plankOf f] ∧ t.reg rTOP_ACTIVE_TILES 0 = t.activeTiles ∧ t.hoods = s.hoods) := by
  refine completes_run (eff := repairSiteEff f true) rfl rfl h.ready.1 ?_
  have hne := ne_spareSite h.active hspare
  rw [repairSiteEff_spare h hspare hbad]
  generalize hu : s.retireOnSpare f = u
  have hsite : (u.site f).retired = true := by simp [← hu]
  have hplank : (u.plank (plankOf f)).spare = true := by rw [← hu, retireOnSpare_spare]
  have hretired : ∀ i, ((u.modSite (13 * plankOf f + 12) (fun k => { k with isol := false })).site i).retired = (u.site i).retired := fun i => by
    by_cases hi : i = 13 * plankOf f + 12
    · rw [hi, State.modSite_site_self]
    · rw [State.modSite_site_of_ne _ _ hi]
  refine ⟨?_, ?_, ?_, ?_, ?_, ?_, ?_, ?_⟩
  · simp
  · simpa [hretired] using hsite
  · simpa using hplank
  · simp
  · simp [← hu, State.retireOnSpare]
  · simp [← hu, State.retireOnSpare]
  · rw [finish_reg, State.setReg_reg_of_ne _ _ (regKey_ne (by decide) (by decide) (by decide)), State.setReg_reg_self,
      Nat.mod_eq_of_lt (activeTiles_lt u)]
    exact (activeTiles_congr (fun i => by simp [hretired]) (fun p => by simp)).symm
  · simp [← hu, State.retireOnSpare]

/-- A repair without a spare to serve: the site is lost. -/
theorem repairSite_lost (h : Repairable s f) (hno : (s.plank (plankOf f)).spare = true ∨ ok = false) :
    Completes (.repairSite f ok) s (fun t =>
      t.reg rTOP_MAINT_STATUS 0 = 5 ∧ (t.site f).retired = true ∧ t.plank (plankOf f) = (s.markSpare (plankOf f)).plank (plankOf f) ∧
      t.hat.flash.retiredSites = s.hat.flash.retiredSites ++ [f] ∧ t.hat.flash.spares = s.hat.flash.spares ∧ t.hoods = s.hoods) := by
  refine completes_run (eff := repairSiteEff f ok) rfl rfl h.ready.1 ?_
  rw [repairSiteEff_lost h hno]
  refine ⟨?_, ?_, ?_, ?_, ?_, ?_⟩ <;> simp

theorem repairSite_inactive (hs : Ready s) (hidle : s.reg rTOP_MAINT_STATUS 0 % 8 ≠ 1) (hf : f < 1664) (ha : s.siteActive f = false) :
    Completes (.repairSite f ok) s (fun t => t.reg rTOP_MAINT_STATUS 0 = 4 ∧ OnlyRegisters [(rTOP_MAINT_STATUS, 0)] s t) := by
  have heff : repairSiteEff f ok s = s.setReg rTOP_MAINT_STATUS 0 4 := by
    simp [repairSiteEff, State.maintBusy, hs.2, hidle, ha, Nat.not_le.2 hf]
  refine completes_run (eff := repairSiteEff f ok) rfl rfl hs.1 ?_
  rw [heff]
  exact ⟨by simp, onlyRegisters_finish (OnlyRegs.onlyRegisters (by simp) (onlyRegs_setReg ..))⟩

/-! ### RETIRE_CHANNEL (R386) -/

/-- The records of the flash name the channel as retired. -/
def State.recordChannel (s : State) (c : Nat) : State :=
  let l := s.hat.flash.retiredChans
  { s with hat := { s.hat with flash := { s.hat.flash with retiredChans := if l.contains c then l else l ++ [c] } } }

theorem mem_recordChannel (s : State) (c d : Nat) :
    d ∈ (s.recordChannel c).hat.flash.retiredChans ↔ d = c ∨ d ∈ s.hat.flash.retiredChans := by
  simp only [State.recordChannel, List.contains_iff_mem]
  split
  · next h => exact ⟨.inr, fun hd => hd.elim (fun e => e ▸ h) id⟩
  · rw [List.mem_append, List.mem_singleton, or_comm]

theorem retireChannel_recorded (hs : Ready s) (hidle : s.reg rTOP_MAINT_STATUS 0 % 8 ≠ 1) (hc : c < 256) :
    Completes (.retireChannel c) s (fun t =>
      t.reg rTOP_MAINT_STATUS 0 = 2 ∧ c ∈ t.hat.flash.retiredChans ∧ (∀ d, d ∈ s.hat.flash.retiredChans → d ∈ t.hat.flash.retiredChans) ∧
      t.chans = s.chans ∧ t.hoods = s.hoods) := by
  have heff : retireChannelEff c s = (s.recordChannel c).setReg rTOP_MAINT_STATUS 0 2 := by
    simp [retireChannelEff, State.maintBusy, State.recordChannel, hs.2, hidle, Nat.not_le.2 hc]
  refine completes_run (eff := retireChannelEff c) rfl rfl hs.1 ?_
  rw [heff]
  refine ⟨by simp, ?_, fun d hd => ?_, by rw [finish_chans]; rfl, by rw [finish_hoods]; rfl⟩
  · rw [finish_hat, State.setReg_hat, mem_recordChannel]; exact .inl rfl
  · rw [finish_hat, State.setReg_hat, mem_recordChannel]; exact .inr hd

theorem retireChannel_invalid (hs : Ready s) (hidle : s.reg rTOP_MAINT_STATUS 0 % 8 ≠ 1) (hc : 256 ≤ c) :
    Completes (.retireChannel c) s (fun t => t.reg rTOP_MAINT_STATUS 0 = 3 ∧ OnlyRegisters [(rTOP_MAINT_STATUS, 0)] s t) := by
  have heff : retireChannelEff c s = s.setReg rTOP_MAINT_STATUS 0 3 := by
    simp [retireChannelEff, State.maintBusy, hs.2, hidle, hc]
  refine completes_run (eff := retireChannelEff c) rfl rfl hs.1 ?_
  rw [heff]
  exact ⟨by simp, onlyRegisters_finish (OnlyRegs.onlyRegisters (by simp) (onlyRegs_setReg ..))⟩

end

/-- Settles O32: a repair of a site of no hood comes down to `retireOnSpare` or to `markSpare` and `retireSite`; the rest is the status alone. -/
theorem repairRetiresSitesAndChannels : Obligations.RepairRetiresSitesAndChannels := by
  unfold Obligations.RepairRetiresSitesAndChannels
  refine fun s f c ok hs hidle => ⟨fun hf ha hu hi hspare hbad => ?_, fun hf ha hu hi hspare => ?_, fun hf ha hu hi hspare => ?_,
    repairSite_inactive hs hidle, retireChannel_recorded hs hidle, retireChannel_invalid hs hidle⟩
  · exact repairSite_spare ⟨hs, hidle, hf, ha, hu, hi⟩ hspare hbad
  · refine (repairSite_lost ⟨hs, hidle, hf, ha, hu, hi⟩ (.inl hspare)).imp fun t ht => ?_
    obtain ⟨hst, hret, -, hsites, hspares, hhoods⟩ := ht
    exact ⟨hst, hret, hsites, hspares, hhoods⟩
  · refine (repairSite_lost ⟨hs, hidle, hf, ha, hu, hi⟩ (.inr rfl)).imp fun t ht => ?_
    obtain ⟨hst, hret, hplank, hrest⟩ := ht
    exact ⟨hst, hret, hplank ▸ markSpare_spareBad hspare, hrest⟩

end Sys2Proof.Machine
end

section
/-!
PROOFS. Coherence messages on arrival (R147 to R149): what holders answer, and what homes and requesters do with the answers.
-/
namespace Sys2Proof.Machine

/-! ### The coherent fabric as one part of the state -/

/-- The state with another coherent fabric. -/
def State.withCoh (s : State) (k : Coh) : State := { s with coh := k }

section
variable (s : State) (k : Coh) (line c : Nat)

@[simp] theorem withCoh_coh : (s.withCoh k).coh = k := rfl
@[simp] theorem withCoh_withCoh (j : Coh) : (s.withCoh k).withCoh j = s.withCoh j := rfl
@[simp] theorem withCoh_mem : (s.withCoh k).mem = s.mem := rfl
@[simp] theorem withCoh_poison : (s.withCoh k).poison = s.poison := rfl
@[simp] theorem withCoh_lineKey : (s.withCoh k).lineKey line = s.lineKey line := rfl
@[simp] theorem withCoh_keyGen (i : Nat) : (s.withCoh k).keyGen i = s.keyGen i := rfl
@[simp] theorem withCoh_keyless : (s.withCoh k).keyless line = s.keyless line := rfl
@[simp] theorem withCoh_chanDown : (s.withCoh k).chanDown c = s.chanDown c := rfl

theorem withCoh_self : s.withCoh s.coh = s := rfl

theorem sendC_eq (m : CMsg) : s.sendC m = s.withCoh { s.coh with msgs := s.coh.msgs ++ [m] } := rfl
theorem dropCopy_eq : s.dropCopy c line = s.withCoh { s.coh with caches := s.coh.caches.erase (cacheKey c line) } := rfl
theorem setTxn_eq (t : Txn) : s.setTxn line t = s.withCoh { s.coh with txns := s.coh.txns.insert line t } := rfl
theorem receive_eq (d : List Byte) (p : Bool) : s.receive c line d p = s.withCoh { s.coh with got := s.coh.got ++ [(c, line, d, p)] } := rfl
theorem txnOf_eq : s.txnOf line = (s.coh.txns.find line).getD {} := rfl
theorem dirOf_eq : s.dirOf line = (s.coh.dir.find line).getD {} := rfl

/-- What the directory reads as after a change of one entry. -/
theorem setDir_eq (d : Dir) : ∃ m r, s.setDir line d = s.withCoh { s.coh with dir := m, lru := r } ∧ (m.find line).getD {} = d := by
  unfold State.setDir
  split
  · next h =>
    refine ⟨_, _, rfl, ?_⟩
    obtain ⟨sh, ow⟩ := d
    simp only [Bool.and_eq_true, List.isEmpty_iff, Option.isNone_iff_eq_none] at h
    simp [h.1, h.2]
  · exact ⟨_, _, rfl, by simp⟩

/-- A cached line that counts as a copy: not invalid, and its tag is not stale (R358). -/
def State.isCopy (s : State) (line : Nat) (l : CLine) : Bool := l.st != .I && l.key == s.lineKey line && l.gen == s.keyGen l.key

theorem copyOf_eq : s.copyOf c line = (s.coh.caches.find (cacheKey c line)).filter (s.isCopy line) := rfl

theorem withCoh_copyOf : (s.withCoh k).copyOf c line = (k.caches.find (cacheKey c line)).filter (s.isCopy line) := rfl

/-- The line as it comes into a cache: under the tag of its key and that key's generation (R358). -/
def State.tagged (s : State) (line : Nat) (st : CState) (d : List Byte) (p : Bool) : CLine :=
  { st := st, data := d, psn := p, key := s.lineKey line, gen := s.keyGen (s.lineKey line) }

@[simp] theorem finish_copyOf (t : State) : (finish s t).copyOf c line = t.copyOf c line := by
  simp only [State.copyOf, State.lineKey, State.extentOf, State.chan, State.keyGen, finish_coh, finish_chans, finish_hat]

@[simp] theorem finish_txnOf (t : State) : (finish s t).txnOf line = t.txnOf line := by simp only [State.txnOf, finish_coh]
@[simp] theorem finish_dirOf (t : State) : (finish s t).dirOf line = t.dirOf line := by simp only [State.dirOf, finish_coh]

theorem isCopy_tagged {st : CState} (h : st ≠ .I) (d : List Byte) (p : Bool) : s.isCopy line (s.tagged line st d p) = true := by
  simp [State.isCopy, State.tagged, h]

/-- A line just installed is a copy. -/
theorem copyOf_installed {m : Table CLine} {st : CState} {d : List Byte} {p : Bool} (hst : st ≠ .I)
    (hk : k.caches = m.insert (cacheKey c line) (s.tagged line st d p)) : (s.withCoh k).copyOf c line = some (s.tagged line st d p) := by
  rw [withCoh_copyOf, hk, Table.find_insert_self, Option.filter_some, if_pos (isCopy_tagged s line hst d p)]

/-- A line just given up is no copy. -/
theorem copyOf_dropped {m : Table CLine} (hk : k.caches = m.erase (cacheKey c line)) : (s.withCoh k).copyOf c line = none := by
  rw [withCoh_copyOf, hk, Table.find_erase_self, Option.filter_none]

end

/-! ### Room in a cache (R144) -/

section
variable {s : State} {k : Coh} {line c : Nat}

theorem writeBack_free (s : State) (line : Nat) (d : List Byte) (p : Bool) : (s.writeBack line d p).free = s.free := by
  unfold State.writeBack State.chanWr
  split <;> rfl

theorem leaveDir_free (s : State) (c line : Nat) : (s.leaveDir c line).free = s.free := by
  obtain ⟨m, r, h, -⟩ := setDir_eq s line { sharers := (s.dirOf line).sharers.filter (fun x => x != c)
                                            owner := (s.dirOf line).owner.filter (fun x => x != c) }
  exact (congrArg State.free h).trans rfl

theorem spill_free (s : State) (c line : Nat) : (s.spill c line).free = s.free := by
  unfold State.spill
  rw [leaveDir_free, dropCopy_eq]
  show State.free _ = s.free
  split
  · split
    · exact writeBack_free ..
    · rfl
  · rfl

/-- A cache that gives no line up for another has room for it, whatever else is in flight: making room draws a free value. -/
theorem makeRoom_withCoh (h : s.makeRoom c line = s) (hk : k.caches = s.coh.caches) : (s.withCoh k).makeRoom c line = s.withCoh k := by
  unfold State.makeRoom at h ⊢
  rw [withCoh_coh, hk]
  dsimp only at h ⊢
  split at h
  · next hroom => rw [if_pos hroom]
  · next hroom =>
    rw [if_neg hroom]
    split at h
    · next hset => rw [if_pos hset]
    · have hfree := congrArg State.free h
      rw [spill_free] at hfree
      exact absurd hfree (Nat.succ_ne_self s.free)

theorem setCopy_withCoh (h : s.makeRoom c line = s) (hk : k.caches = s.coh.caches) (st : CState) (d : List Byte) (p : Bool) :
    (s.withCoh k).setCopy c line st d p =
      s.withCoh { k with caches := s.coh.caches.insert (cacheKey c line) (s.tagged line st d p) } := by
  unfold State.setCopy
  rw [makeRoom_withCoh h hk, ← hk]
  rfl

end

/-! ### A message in flight arrives (R147, R148) -/

/-- The row of the table whose command takes a message of this kind, line and end. -/
def CMsg.row : CMsg → Instr
  | .fwdS l h _ => .fwds l h
  | .fwdX l h _ => .fwdx l h
  | .fwdRd l h _ => .fwdrd l h
  | .inv l h => .inv l h
  | .recall l h => .recall l h
  | .invAck l h => .invack l h
  | .done l h => .done l h
  | .grant l q => .upgradeGrant l q
  | .atomResult l q _ _ => .atomresult l q
  | .wrAck l q => .wrack l q
  | .data l q _ _ _ => .data l q
  | .dataX l q _ _ => .datax l q
  | .wbData l h _ _ => .wbdata l h

/-- Each row takes the messages that are its own. -/
theorem row_takes (m : CMsg) : ∃ p, (∀ s, exec m.row s = run m.row.wf (cohMsgEff p) s) ∧ ∀ n, p n = true ↔ n.row = m.row := by
  cases m <;> exact ⟨_, fun _ => rfl, fun n => by cases n <;> simp [CMsg.row]⟩

theorem bare_row (m : CMsg) : m.bare.row = m.row := by cases m <;> rfl

/-- The cache or engine that a message names besides its line. -/
def CMsg.peer : CMsg → Nat
  | .fwdS _ h _ | .fwdX _ h _ | .fwdRd _ h _ | .inv _ h | .recall _ h | .invAck _ h | .done _ h | .grant _ h
  | .atomResult _ h _ _ | .wrAck _ h | .data _ h _ _ _ | .dataX _ h _ _ | .wbData _ h _ _ => h

theorem row_wf {m : CMsg} (hl : isLocalLine m.line = true) (hh : m.peer < 9) : m.row.wf = true := by
  cases m <;> simp_all [CMsg.line, CMsg.peer, CMsg.row, Instr.wf, lineOk]

theorem isFarLine_of_local {line : Nat} (hl : isLocalLine line = true) : isFarLine line = false := by
  simp only [isLocalLine, Bool.and_eq_true, decide_eq_true_eq] at hl
  simp only [isFarLine, Bool.and_eq_false_iff, decide_eq_false_iff_not]
  omega

theorem eraseP_congr {α : Type} {l : List α} {p q : α → Bool} (h : ∀ x ∈ l, p x = q x) : l.eraseP p = l.eraseP q := by
  induction l with
  | nil => rfl
  | cons x l ih =>
    obtain ⟨hx, hl⟩ := List.forall_mem_cons.1 h
    rw [List.eraseP_cons, List.eraseP_cons, hx, ih hl]

section
variable {s u : State} {m : CMsg} {line h q : Nat} {Q : State → Prop}

/-- A message in flight that its row takes: no other is of that row. -/
structure InFlight (s : State) (m : CMsg) : Prop where
  wf : m.row.wf = true
  mem : m ∈ s.coh.msgs
  only : ∀ n ∈ s.coh.msgs, n.row = m.row → n = m

/-- The state with a message taken out of flight. -/
def State.without (s : State) (m : CMsg) : State := s.withCoh { s.coh with msgs := s.coh.msgs.erase m }

@[simp] theorem without_copyOf (s : State) (m : CMsg) (c line : Nat) : (s.without m).copyOf c line = s.copyOf c line := rfl
@[simp] theorem without_txnOf (s : State) (m : CMsg) (line : Nat) : (s.without m).txnOf line = s.txnOf line := rfl

theorem InFlight.takeMsg (h : InFlight s m) : s.takeMsg m = s.without m := by
  have herase : s.coh.msgs.eraseP (fun x => x.bare == m.bare) = s.coh.msgs.erase m := by
    rw [List.erase_eq_eraseP']
    refine eraseP_congr fun n hn => ?_
    by_cases hnm : n = m
    · simp [hnm]
    · have hbare : n.bare ≠ m.bare := fun hb => hnm (h.only n hn (by rw [← bare_row n, hb, bare_row]))
      simp [hnm, hbare]
  unfold State.takeMsg
  rw [herase]
  rfl

theorem settled_of_not_hot (h : u.coh.hot = []) : u.settled = u := by
  unfold State.settled hotFlush
  rw [h]
  rfl

/-- What the command of a message leaves: what its arrival leaves, where that sends no hot-list entry. -/
theorem InFlight.completes (h : InFlight s m) (hp : Powered s) (hu : s.deliver m = u) (hhot : u.coh.hot = []) (hQ : Q (finish s u)) :
    Completes m.row s Q := by
  obtain ⟨p, hc, hpn⟩ := row_takes m
  refine completes_run (hc s) h.wf hp ?_
  have hfind : s.coh.msgs.find? p = some m := by
    cases hf : s.coh.msgs.find? p with
    | none => exact absurd ((hpn m).2 rfl) (List.find?_eq_none.1 hf m h.mem)
    | some n => rw [h.only n (List.mem_of_find?_eq_some hf) ((hpn n).1 (List.find?_some hf))]
  rw [cohMsgEff, hfind]
  dsimp only
  rw [hu, settled_of_not_hot hhot]
  exact hQ

/-- With nothing in flight no row does anything. -/
theorem row_idle (hp : Powered s) (hwf : m.row.wf = true) (h : s.coh.msgs = []) : Completes m.row s (fun t => OnlyPort s t) := by
  obtain ⟨p, hc, -⟩ := row_takes m
  refine completes_run (hc s) hwf hp (onlyPort_finish ?_)
  rw [cohMsgEff, h]
  rfl

/-! ### What holders answer -/

section
variable {c : CLine}

theorem deliver_fwdS (hn : InFlight s (.fwdS line h q)) (hc : s.copyOf h line = some c) (hroom : s.makeRoom h line = s) :
    s.deliver (.fwdS line h q) = s.withCoh { s.coh with
      msgs := s.coh.msgs.erase (.fwdS line h q) ++ [.data line q c.data false c.psn, if c.st = .M then .wbData line h c.data c.psn else .done line h]
      caches := s.coh.caches.insert (cacheKey h line) (s.tagged line .S c.data c.psn) } := by
  simp only [State.deliver, hn.takeMsg, without_copyOf, hc]
  by_cases hst : c.st = .M <;> simp [hst, State.without, sendC_eq, setCopy_withCoh hroom]

theorem deliver_fwdX (hn : InFlight s (.fwdX line h q)) (hc : s.copyOf h line = some c) :
    s.deliver (.fwdX line h q) = s.withCoh { s.coh with
      msgs := s.coh.msgs.erase (.fwdX line h q) ++ [.dataX line q c.data c.psn, .done line h]
      caches := s.coh.caches.erase (cacheKey h line) } := by
  simp only [State.deliver, hn.takeMsg, without_copyOf, hc]
  simp [State.without, sendC_eq, dropCopy_eq]

theorem deliver_fwdRd (hn : InFlight s (.fwdRd line h q)) (hc : s.copyOf h line = some c) :
    s.deliver (.fwdRd line h q) = s.withCoh { s.coh with
      msgs := s.coh.msgs.erase (.fwdRd line h q) ++ [.data line q c.data false c.psn, .done line h] } := by
  simp only [State.deliver, hn.takeMsg, without_copyOf, hc]
  simp [State.without, sendC_eq]

theorem deliver_recall (hn : InFlight s (.recall line h)) (hc : s.copyOf h line = some c) :
    s.deliver (.recall line h) = s.withCoh { s.coh with
      msgs := s.coh.msgs.erase (.recall line h) ++ [if c.st = .M then .wbData line h c.data c.psn else .invAck line h]
      caches := s.coh.caches.erase (cacheKey h line) } := by
  simp only [State.deliver, hn.takeMsg, without_copyOf, hc, beq_iff_eq]
  simp [State.without, sendC_eq, dropCopy_eq]

theorem deliver_inv (hn : InFlight s (.inv line h)) :
    s.deliver (.inv line h) = s.withCoh { s.coh with
      msgs := s.coh.msgs.erase (.inv line h) ++ [.invAck line h], caches := s.coh.caches.erase (cacheKey h line) } := by
  simp only [State.deliver, hn.takeMsg]
  simp [State.without, sendC_eq, dropCopy_eq]

/-- A holder that has no copy any more acknowledges, whatever it is asked; only a Recall also clears what may be left of the line. -/
theorem deliver_noCopy (hn : InFlight s m) (hm : m = .fwdS line h q ∨ m = .fwdX line h q ∨ m = .fwdRd line h q ∨ m = .recall line h)
    (hc : s.copyOf h line = none) : ∃ k, s.deliver m = s.withCoh { s.coh with
      msgs := s.coh.msgs.erase m ++ [.invAck line h], caches := k } ∧ (k = s.coh.caches ∨ k = s.coh.caches.erase (cacheKey h line)) := by
  rcases hm with rfl | rfl | rfl | rfl <;> simp only [State.deliver, hn.takeMsg, without_copyOf, hc]
  · exact ⟨_, rfl, .inl rfl⟩
  · exact ⟨_, rfl, .inl rfl⟩
  · exact ⟨_, rfl, .inl rfl⟩
  · exact ⟨_, rfl, .inr rfl⟩

end

/-! ### What the home does with the answers -/

theorem Quiet.withCoh {k : Coh} (h : Quiet s line) (hk : k.hot = []) : Quiet (s.withCoh k) line := ⟨hk, h.2⟩

theorem touchLine_quiet (h : Quiet s line) : s.touchLine line = s := by
  unfold State.touchLine
  split
  · rfl
  · next e he =>
    have hcold : (e.lent || s.reg rBIR_HOT_THR e.owner / 256 % 2 == 0) = true := by
      rcases h.2 e he with hlent | hoff
      · simp [hlent]
      · simp [hoff]
    exact if_pos hcold

/-- A line access that is not counted changes nothing of the fabric. -/
theorem lineAccess_coh (h : Quiet s line) (w : Who) : (s.lineAccess w line 1).coh = s.coh := by
  unfold State.lineAccess
  have htouch : forN 1 s (fun s _ => s.touchLine line) = s := touchLine_quiet h
  rw [htouch, ite_self]
  dsimp only
  split <;> rfl

/-- A line handed over: the requester owns it, DataX is on its way, and the home has answered. -/
theorem giveX_coh (h : Quiet s line) (w : Who) (q : Nat) : ∃ d p m r, (s.giveX w line q).coh = { s.coh with
      msgs := s.coh.msgs ++ [.dataX line q d p], dir := m, lru := r, txns := s.coh.txns.insert line { s.txnOf line with sup := true } } ∧
    (m.find line).getD {} = { sharers := [], owner := some q } := by
  obtain ⟨m, r, hdir, hm⟩ := setDir_eq (s.lineAccess w line 1) line { sharers := [], owner := some q }
  refine ⟨(s.homeLine line).1, (s.homeLine line).2, m, r, ?_, hm⟩
  simp only [State.giveX, State.answered, hdir, sendC_eq, setTxn_eq, txnOf_eq, withCoh_coh, withCoh_withCoh, lineAccess_coh h, Bool.or_false]

section
variable {b : Txn} {w : Who}

/-- A transaction goes on while its requester has not been answered, or has not got its answer. -/
theorem endTxn_stays (hb : s.coh.txns.find line = some b) (h : b.sup = false ∨ b.got = false) : s.endTxn line = s := by
  have hgoes : (!b.sup || !b.got || !b.acks.isEmpty) = true := by rcases h with h | h <;> simp [h]
  rw [State.endTxn, hb]
  exact if_pos hgoes

/-- A holder that keeps nothing has acknowledged: it leaves the holder vector, and the last one lets the home reply. -/
theorem ackFrom_acknowledged (hb : s.coh.txns.find line = some b) (hh : h ∈ b.acks) (hsup : b.sup = false) : ∃ m r,
    let u := s.withCoh { s.coh with txns := s.coh.txns.insert line { b with acks := b.acks.filter (fun x => x != h) }, dir := m, lru := r }
    s.ackFrom line h false = (if (b.acks.filter (fun x => x != h)).isEmpty then u.homeReply line b.req else u).endTxn line := by
  obtain ⟨m, r, hdir, -⟩ := setDir_eq (s.setTxn line { b with acks := b.acks.filter (fun x => x != h) }) line
    { sharers := (s.dirOf line).sharers.filter (fun x => x != h), owner := (s.dirOf line).owner.filter (fun x => x != h) }
  refine ⟨m, r, ?_⟩
  simp only [setTxn_eq, withCoh_withCoh, withCoh_coh, hsup] at hdir
  have hc : b.acks.contains h = true := by simp [hh]
  simp only [State.ackFrom, hb, hc, hsup, setTxn_eq, Bool.not_true, Bool.false_eq_true, if_false, Bool.or_false, Bool.not_false, Bool.and_true, hdir]

/-- An acknowledgement of a holder, while others are awaited. -/
theorem ackFrom_waits (hb : s.coh.txns.find line = some b) (hh : h ∈ b.acks) (hsup : b.sup = false) {k : Nat} {l : List Nat}
    (hl : b.acks.filter (fun x => x != h) = k :: l) : ∃ m r, s.ackFrom line h false = s.withCoh { s.coh with
      txns := s.coh.txns.insert line { b with acks := k :: l }, dir := m, lru := r } := by
  obtain ⟨m, r, hack⟩ := ackFrom_acknowledged hb hh hsup
  rw [hl] at hack
  exact ⟨m, r, hack.trans (endTxn_stays (Table.find_insert_self ..) (.inl hsup))⟩

/-- The last acknowledgement: the home hands the line over. -/
theorem ackFrom_last (hb : s.coh.txns.find line = some b) (hreq : b.req = .rdX w q) (hsup : b.sup = false) (hgot : b.got = false)
    (hacks : b.acks = [h]) (hq : Quiet s line) : ∃ d p m r x, (s.ackFrom line h false).coh = { s.coh with
      msgs := s.coh.msgs ++ [.dataX line q d p], dir := m, lru := r, txns := x } ∧
    (m.find line).getD {} = { sharers := [], owner := some q } ∧ x.find line = some { b with acks := [], sup := true } := by
  obtain ⟨req, acks, queue, sup, got⟩ := b
  dsimp only at hreq hsup hgot hacks
  subst hreq hsup hgot hacks
  obtain ⟨m, r, hack⟩ := ackFrom_acknowledged hb (List.mem_singleton_self h) rfl
  have hnone : [h].filter (fun x => x != h) = [] := by simp
  rw [hnone] at hack
  generalize hu : s.withCoh _ = u at hack
  have hquiet : Quiet u line := by rw [← hu]; exact hq.withCoh hq.1
  obtain ⟨d, p, m', r', hgive, hm'⟩ := giveX_coh hquiet w q
  have hub : u.txnOf line = { req := .rdX w q, acks := [], queue := queue } := by rw [← hu]; simp [txnOf_eq]
  rw [hub] at hgive
  have hstays : (u.giveX w line q).endTxn line = u.giveX w line q :=
    endTxn_stays (b := { req := .rdX w q, acks := [], queue := queue, sup := true }) (by rw [hgive]; simp) (.inr rfl)
  refine ⟨d, p, m', r', _, ?_, hm', Table.find_insert_self u.coh.txns line _⟩
  have hreply : s.ackFrom line h false = u.giveX w line q := hack.trans hstays
  rw [hreply, hgive, ← hu]
  rfl

/-- Done for an RdX: the holder has supplied the requester, which owns the line now. -/
theorem ackFrom_gave (hb : s.coh.txns.find line = some b) (hreq : b.req = .rdX w q) (hgot : b.got = false) (hacks : b.acks = [h]) :
    ∃ m r, s.ackFrom line h true = s.withCoh { s.coh with
      txns := s.coh.txns.insert line { b with acks := [], sup := true }, dir := m, lru := r } ∧
    (m.find line).getD {} = { sharers := [], owner := some q } := by
  obtain ⟨req, acks, queue, sup, got⟩ := b
  dsimp only at hreq hgot hacks
  subst hreq hgot hacks
  obtain ⟨m, r, hdir, hm⟩ := setDir_eq (s.setTxn line { req := .rdX w q, acks := [], queue := queue, sup := true }) line { sharers := [], owner := some q }
  refine ⟨m, r, ?_, hm⟩
  have hnone : [h].filter (fun x => x != h) = [] := by simp
  have hc : [h].contains h = true := by simp
  simp only [State.ackFrom, hb, hc, hnone, Bool.or_true, Bool.not_true, Bool.false_eq_true, if_false, if_true, Bool.and_false, hdir]
  exact endTxn_stays (Table.find_insert_self ..) (.inr rfl)

/-- The answer has arrived and nothing waits: the line leaves B. -/
theorem arrived_leavesB (hb : s.coh.txns.find line = some b) (hsup : b.sup = true) (hacks : b.acks = []) (hqueue : b.queue = [])
    (hwait : s.coh.waiting = []) : ∃ x, s.arrived line = s.withCoh { s.coh with txns := x } ∧ x.find line = none := by
  refine ⟨(s.coh.txns.insert line { b with got := true }).erase line, ?_, by simp⟩
  simp [State.arrived, hb, State.endTxn, State.tryWaiting, setTxn_eq, hsup, hacks, hqueue, hwait]
  rfl

/-- The home takes written-back data: it is what memory holds of the line now, with its mark (R99). -/
theorem writeBack_line {d : List Byte} (hdown : s.chanDown (chanOfLine line) = false) (hkey : s.keyless line = false) (hd : d.length = 64) (p : Bool) :
    s.writeBack line d p = (s.putBytes (line * 64) d).setPsn line p := by
  have hslice : slice d 0 64 = d := by simp [slice, hd]
  have hbytes : bytesOf (d.map (fun b => (b, p))) = d := by simp [bytesOf, Function.comp_def]
  have hmark : anyPsn (d.map (fun b => (b, p))) = p := by
    cases d with
    | nil => simp at hd
    | cons x l => cases p <;> simp [anyPsn]
  simp [State.writeBack, State.chanWr, hdown, hkey, hslice, hbytes, hmark, hd]

theorem putBytes_find (s : State) (ga : Nat) (d : List Byte) (i : Nat) :
    (s.putBytes ga d).mem.find i = if ga ≤ i ∧ i < ga + d.length then d[i - ga]? else s.mem.find i := by
  split
  · next hi =>
    have hkeys : (((List.range d.length).zip d).map (fun p => ga + p.1)).Nodup := by
      have hmap : ((List.range d.length).zip d).map (fun p => ga + p.1) = (List.range d.length).map (ga + ·) := by
        rw [← List.map_fst_zip (l₁ := List.range d.length) (l₂ := d) (by simp), List.map_map, List.map_fst_zip (by simp)]
        rfl
      rw [hmap]
      exact List.nodup_range.map fun _ _ h => Nat.add_left_cancel h
    obtain ⟨hwritten, -⟩ := foldl_writes (F := fun m (p : Nat × Byte) => Table.insert m (ga + p.1) p.2) (read := Table.find)
      (key := fun p => ga + p.1) (val := fun p => some p.2) (fun m p j => by
        split
        · next hj => rw [hj, Table.find_insert_self]
        · next hj => rw [Table.find_insert_of_ne m p.2 hj]) hkeys s.mem
    have hlt : i - ga < d.length := by omega
    have hin : (i - ga, d[i - ga]) ∈ (List.range d.length).zip d :=
      List.mem_of_getElem? (i := i - ga) (by simp [hlt])
    have hread := hwritten _ hin
    rw [show ga + (i - ga) = i by omega] at hread
    rw [List.getElem?_eq_getElem hlt]
    exact hread
  · next hi => exact putBytes_find_of_not s ga d i (by omega)

end
end

/-! ### The rows, from a line in B on -/

section
variable {s : State} {line h q : Nat} {b : Txn} {c : CLine} {w : Who}

theorem row_fwdS {n : CMsg} : n.row = .fwds line h ↔ ∃ r, n = .fwdS line h r := by cases n <;> simp [CMsg.row]
theorem row_fwdX {n : CMsg} : n.row = .fwdx line h ↔ ∃ r, n = .fwdX line h r := by cases n <;> simp [CMsg.row]
theorem row_fwdRd {n : CMsg} : n.row = .fwdrd line h ↔ ∃ r, n = .fwdRd line h r := by cases n <;> simp [CMsg.row]
theorem row_inv {n : CMsg} : n.row = .inv line h ↔ n = .inv line h := by cases n <;> simp [CMsg.row]
theorem row_recall {n : CMsg} : n.row = .recall line h ↔ n = .recall line h := by cases n <;> simp [CMsg.row]
theorem row_invAck {n : CMsg} : n.row = .invack line h ↔ n = .invAck line h := by cases n <;> simp [CMsg.row]
theorem row_done {n : CMsg} : n.row = .done line h ↔ n = .done line h := by cases n <;> simp [CMsg.row]
theorem row_grant {n : CMsg} : n.row = .upgradeGrant line h ↔ n = .grant line h := by cases n <;> simp [CMsg.row]
theorem row_wrAck {n : CMsg} : n.row = .wrack line h ↔ n = .wrAck line h := by cases n <;> simp [CMsg.row]
theorem row_data {n : CMsg} : n.row = .data line h ↔ ∃ x y z, n = .data line h x y z := by cases n <;> simp [CMsg.row]
theorem row_dataX {n : CMsg} : n.row = .datax line h ↔ ∃ x y, n = .dataX line h x y := by cases n <;> simp [CMsg.row]
theorem row_atomResult {n : CMsg} : n.row = .atomresult line h ↔ ∃ x y, n = .atomResult line h x y := by cases n <;> simp [CMsg.row]
theorem row_wbData {n : CMsg} : n.row = .wbdata line h ↔ ∃ x y, n = .wbData line h x y := by cases n <;> simp [CMsg.row]

/-- Every FWD of the line to the holder is for the requester `q`. -/
def FwdsFor (s : State) (line h q : Nat) : Prop :=
  ∀ m ∈ s.coh.msgs, m = .fwdS line h q ∨ m = .fwdX line h q ∨ m = .fwdRd line h q ∨
    ∀ r, m ≠ .fwdS line h r ∧ m ≠ .fwdX line h r ∧ m ≠ .fwdRd line h r

section
variable (hl : isLocalLine line = true) (hh : h < 9)
include hl hh

theorem next_recall (hm : .recall line h ∈ s.coh.msgs) : InFlight s (.recall line h) := ⟨row_wf hl hh, hm, fun _ _ hrow => row_recall.1 hrow⟩
theorem next_inv (hm : .inv line h ∈ s.coh.msgs) : InFlight s (.inv line h) := ⟨row_wf hl hh, hm, fun _ _ hrow => row_inv.1 hrow⟩
theorem next_invAck (hm : .invAck line h ∈ s.coh.msgs) : InFlight s (.invAck line h) := ⟨row_wf hl hh, hm, fun _ _ hrow => row_invAck.1 hrow⟩
theorem next_done (hm : .done line h ∈ s.coh.msgs) : InFlight s (.done line h) := ⟨row_wf hl hh, hm, fun _ _ hrow => row_done.1 hrow⟩
theorem next_grant (hm : .grant line h ∈ s.coh.msgs) : InFlight s (.grant line h) := ⟨row_wf hl hh, hm, fun _ _ hrow => row_grant.1 hrow⟩
theorem next_wrAck (hm : .wrAck line h ∈ s.coh.msgs) : InFlight s (.wrAck line h) := ⟨row_wf hl hh, hm, fun _ _ hrow => row_wrAck.1 hrow⟩

theorem next_wbData {d : List Byte} {p : Bool} (hm : .wbData line h d p ∈ s.coh.msgs)
    (hone : ∀ m ∈ s.coh.msgs, m = .wbData line h d p ∨ ∀ x y, m ≠ .wbData line h x y) : InFlight s (.wbData line h d p) := by
  refine ⟨row_wf hl hh, hm, fun n hn hrow => (hone n hn).resolve_right fun hne => ?_⟩
  obtain ⟨x, y, rfl⟩ := row_wbData.1 hrow
  exact hne x y rfl

theorem next_data {d : List Byte} {e p : Bool} (hm : .data line h d e p ∈ s.coh.msgs)
    (hone : ∀ m ∈ s.coh.msgs, m = .data line h d e p ∨ ∀ x y z, m ≠ .data line h x y z) : InFlight s (.data line h d e p) := by
  refine ⟨row_wf hl hh, hm, fun n hn hrow => (hone n hn).resolve_right fun hne => ?_⟩
  obtain ⟨x, y, z, rfl⟩ := row_data.1 hrow
  exact hne x y z rfl

theorem next_dataX {d : List Byte} {p : Bool} (hm : .dataX line h d p ∈ s.coh.msgs)
    (hone : ∀ m ∈ s.coh.msgs, m = .dataX line h d p ∨ ∀ x y, m ≠ .dataX line h x y) : InFlight s (.dataX line h d p) := by
  refine ⟨row_wf hl hh, hm, fun n hn hrow => (hone n hn).resolve_right fun hne => ?_⟩
  obtain ⟨x, y, rfl⟩ := row_dataX.1 hrow
  exact hne x y rfl

theorem next_atomResult {v : BitVec 128} {p : Bool} (hm : .atomResult line h v p ∈ s.coh.msgs)
    (hone : ∀ m ∈ s.coh.msgs, m = .atomResult line h v p ∨ ∀ x y, m ≠ .atomResult line h x y) : InFlight s (.atomResult line h v p) := by
  refine ⟨row_wf hl hh, hm, fun n hn hrow => (hone n hn).resolve_right fun hne => ?_⟩
  obtain ⟨x, y, rfl⟩ := row_atomResult.1 hrow
  exact hne x y rfl

variable (hone : FwdsFor s line h q)
include hone

theorem next_fwdS (hm : .fwdS line h q ∈ s.coh.msgs) : InFlight s (.fwdS line h q) := by
  refine ⟨row_wf hl hh, hm, fun n hn hrow => ?_⟩
  obtain ⟨r, rfl⟩ := row_fwdS.1 hrow
  simpa using hone _ hn

theorem next_fwdX (hm : .fwdX line h q ∈ s.coh.msgs) : InFlight s (.fwdX line h q) := by
  refine ⟨row_wf hl hh, hm, fun n hn hrow => ?_⟩
  obtain ⟨r, rfl⟩ := row_fwdX.1 hrow
  simpa using hone _ hn

theorem next_fwdRd (hm : .fwdRd line h q ∈ s.coh.msgs) : InFlight s (.fwdRd line h q) := by
  refine ⟨row_wf hl hh, hm, fun n hn hrow => ?_⟩
  obtain ⟨r, rfl⟩ := row_fwdRd.1 hrow
  simpa using hone _ hn

end

variable (hp : Powered s) (hquiet : Quiet s line)
include hp hquiet

/-- A holder without a copy acknowledges. -/
theorem noCopy_answered {m : CMsg} (hn : InFlight s m) (hm : m = .fwdS line h q ∨ m = .fwdX line h q ∨ m = .fwdRd line h q ∨ m = .recall line h)
    (hc : s.copyOf h line = none) : Completes m.row s (fun t =>
      t.coh.msgs = s.coh.msgs.erase m ++ [.invAck line h] ∧ t.copyOf h line = none ∧ t.mem = s.mem ∧ t.coh.dir = s.coh.dir) := by
  obtain ⟨k, hd, hk⟩ := deliver_noCopy hn hm hc
  refine hn.completes hp hd hquiet.1 ⟨by simp, ?_, by simp, by simp⟩
  rw [finish_copyOf]
  rcases hk with rfl | rfl
  · exact hc
  · exact copyOf_dropped s _ line h rfl

variable (hl : isLocalLine line = true) (hh : h < 9)
include hl hh

section
variable (hone : FwdsFor s line h q)
include hone

/-- A holder answers FwdS with its data, keeps S, and gives modified data back. -/
theorem fwds_answered (hc : s.copyOf h line = some c) (hroom : s.makeRoom h line = s) (hm : .fwdS line h q ∈ s.coh.msgs) :
    Completes (.fwds line h) s (fun t =>
      t.coh.msgs = s.coh.msgs.erase (.fwdS line h q) ++ [.data line q c.data false c.psn,
        if c.st = .M then .wbData line h c.data c.psn else .done line h] ∧
      (t.copyOf h line).map (fun k => (k.st, k.data, k.psn)) = some (.S, c.data, c.psn) ∧ t.mem = s.mem ∧ t.coh.dir = s.coh.dir) := by
  have hn := next_fwdS hl hh hone hm
  refine hn.completes hp (deliver_fwdS hn hc hroom) hquiet.1 ⟨by simp, ?_, by simp, by simp⟩
  rw [finish_copyOf, copyOf_installed s _ line h (by decide) rfl]
  rfl

theorem fwdx_answered (hc : s.copyOf h line = some c) (hm : .fwdX line h q ∈ s.coh.msgs) : Completes (.fwdx line h) s (fun t =>
    t.coh.msgs = s.coh.msgs.erase (.fwdX line h q) ++ [.dataX line q c.data c.psn, .done line h] ∧
    t.copyOf h line = none ∧ t.mem = s.mem ∧ t.coh.dir = s.coh.dir) := by
  have hn := next_fwdX hl hh hone hm
  refine hn.completes hp (deliver_fwdX hn hc) hquiet.1 ⟨by simp, ?_, by simp, by simp⟩
  rw [finish_copyOf, copyOf_dropped s _ line h rfl]

theorem fwdrd_answered (hc : s.copyOf h line = some c) (hm : .fwdRd line h q ∈ s.coh.msgs) : Completes (.fwdrd line h) s (fun t =>
    t.coh.msgs = s.coh.msgs.erase (.fwdRd line h q) ++ [.data line q c.data false c.psn, .done line h] ∧
    t.coh.caches = s.coh.caches ∧ t.mem = s.mem ∧ t.coh.dir = s.coh.dir) := by
  have hn := next_fwdRd hl hh hone hm
  exact hn.completes hp (deliver_fwdRd hn hc) hquiet.1 ⟨by simp, by simp, by simp, by simp⟩

end

/-- A holder answers Recall with modified data, or an acknowledgement, and keeps nothing. -/
theorem recall_answered (hc : s.copyOf h line = some c) (hm : .recall line h ∈ s.coh.msgs) : Completes (.recall line h) s (fun t =>
    t.coh.msgs = s.coh.msgs.erase (.recall line h) ++ [if c.st = .M then .wbData line h c.data c.psn else .invAck line h] ∧
    t.copyOf h line = none ∧ t.mem = s.mem) := by
  have hn := next_recall hl hh hm
  refine hn.completes hp (deliver_recall hn hc) hquiet.1 ⟨by simp, ?_, by simp⟩
  rw [finish_copyOf, copyOf_dropped s _ line h rfl]

theorem inv_answered (hm : .inv line h ∈ s.coh.msgs) : Completes (.inv line h) s (fun t =>
    t.coh.msgs = s.coh.msgs.erase (.inv line h) ++ [.invAck line h] ∧ t.copyOf h line = none ∧ t.mem = s.mem) := by
  have hn := next_inv hl hh hm
  refine hn.completes hp (deliver_inv hn) hquiet.1 ⟨by simp, ?_, by simp⟩
  rw [finish_copyOf, copyOf_dropped s _ line h rfl]

section
variable (hb : s.coh.txns.find line = some b)
include hb

/-- The home counts an acknowledgement. -/
theorem invack_counted (hm : .invAck line h ∈ s.coh.msgs) (hsup : b.sup = false) {k : Nat} {l : List Nat}
    (hk : b.acks.filter (fun k => k != h) = k :: l) (hin : h ∈ b.acks) : Completes (.invack line h) s (fun t =>
      (t.txnOf line).acks = k :: l ∧ t.coh.msgs = s.coh.msgs.erase (.invAck line h) ∧ t.mem = s.mem) := by
  have hn := next_invAck hl hh hm
  obtain ⟨m, r, hack⟩ := ackFrom_waits (s := s.without (.invAck line h)) hb hin hsup hk
  have hd : s.deliver (.invAck line h) = _ := (congrArg (State.ackFrom · line h false) hn.takeMsg).trans hack
  exact hn.completes hp hd hquiet.1 ⟨by simp [txnOf_eq], by simp [State.without], by simp [State.without]⟩

/-- The last acknowledgement: the home hands the line over. -/
theorem invack_handsOver (hm : .invAck line h ∈ s.coh.msgs) (hsup : b.sup = false) (hreq : b.req = .rdX w q) (hacks : b.acks = [h])
    (hgot : b.got = false) : Completes (.invack line h) s (fun t =>
      (∃ d p, t.coh.msgs = s.coh.msgs.erase (.invAck line h) ++ [.dataX line q d p]) ∧
      t.dirOf line = { sharers := [], owner := some q } ∧ (t.txnOf line).sup = true) := by
  have hn := next_invAck hl hh hm
  obtain ⟨d, p, m, r, x, hack, hdir, hx⟩ := ackFrom_last (s := s.without (.invAck line h)) hb hreq hsup hgot hacks (hquiet.withCoh hquiet.1)
  have hd : s.deliver (.invAck line h) = (s.without (.invAck line h)).ackFrom line h false := congrArg (State.ackFrom · line h false) hn.takeMsg
  refine hn.completes hp hd (by rw [hack]; exact hquiet.1) ⟨⟨d, p, ?_⟩, ?_, ?_⟩
  · rw [finish_coh, hack]; rfl
  · rw [finish_dirOf, dirOf_eq, hack]; exact hdir
  · rw [finish_txnOf, txnOf_eq, hack]; exact congrArg (fun y => (Option.getD y {}).sup) hx

/-- Done: the holder has supplied the requester, and the home records it as the owner. -/
theorem done_records (hm : .done line h ∈ s.coh.msgs) (hreq : b.req = .rdX w q) (hacks : b.acks = [h]) (hgot : b.got = false) :
    Completes (.done line h) s (fun t =>
      t.dirOf line = { sharers := [], owner := some q } ∧ (t.txnOf line).sup = true ∧ (t.txnOf line).acks = [] ∧
      t.coh.msgs = s.coh.msgs.erase (.done line h) ∧ t.mem = s.mem) := by
  have hn := next_done hl hh hm
  have htxn : s.txnOf line = b := by rw [txnOf_eq, hb, Option.getD_some]
  obtain ⟨m, r, hack, hdir⟩ := ackFrom_gave (s := s.without (.done line h)) hb hreq hgot hacks
  have hd : s.deliver (.done line h) = (s.without (.done line h)).ackFrom line h true := by
    simp only [State.deliver, hn.takeMsg, without_txnOf, htxn, hreq]
  refine hn.completes hp (hd.trans hack) hquiet.1 ⟨?_, by simp [txnOf_eq], by simp [txnOf_eq], by simp [State.without], by simp [State.without]⟩
  rw [finish_dirOf, dirOf_eq]
  exact hdir

/-- Written-back data reaches memory, and the home tells the holder, which is no owner any more. -/
theorem wbdata_stored {d : List Byte} {p : Bool} (hone : ∀ m ∈ s.coh.msgs, m = .wbData line h d p ∨ ∀ r x, m ≠ .wbData line h r x)
    (hm : .wbData line h d p ∈ s.coh.msgs) (hreq : b.req = .wbM h) (hdown : s.chanDown (chanOfLine line) = false) (hkey : s.keyless line = false)
    (hd : d.length = 64) : Completes (.wbdata line h) s (fun t =>
      t.coh.msgs = s.coh.msgs.erase (.wbData line h d p) ++ [.done line h] ∧ (t.dirOf line).owner = none ∧ (t.poison.find line).isSome = p ∧
      ∀ i, t.mem.find i = if line * 64 ≤ i ∧ i < line * 64 + 64 then d[i - line * 64]? else s.mem.find i) := by
  have hn := next_wbData hl hh hm hone
  have htxn : s.txnOf line = b := by rw [txnOf_eq, hb, Option.getD_some]
  generalize hv : ((s.without (.wbData line h d p)).putBytes (line * 64) d).setPsn line p = v
  have hback : (s.without (.wbData line h d p)).writeBack line d p = v := (writeBack_line (s := s.without (.wbData line h d p)) hdown hkey hd p).trans hv
  have hvcoh : v.coh = (s.without (.wbData line h d p)).coh := by rw [← hv]; rfl
  have hvtxn : v.txnOf line = b := by rw [txnOf_eq, hvcoh]; exact htxn
  obtain ⟨m, r, hdir, hown⟩ := setDir_eq (v.setTxn line { b with acks := [] }) line { v.dirOf line with owner := none }
  have hdel : s.deliver (.wbData line h d p) =
      ((v.setTxn line { b with acks := [] }).setDir line { v.dirOf line with owner := none }).homeReply line (.wbM h) := by
    simp only [State.deliver, hn.takeMsg, hback, hvtxn, hreq, if_true]
  rw [hdir] at hdel
  simp only [State.homeReply, State.answered, sendC_eq, setTxn_eq, withCoh_withCoh, withCoh_coh, hvcoh] at hdel
  refine hn.completes hp hdel hquiet.1 ⟨by simp [State.without], ?_, ?_, fun i => ?_⟩
  · rw [finish_dirOf, dirOf_eq]
    exact congrArg Dir.owner hown
  · rw [finish_poison, withCoh_poison, ← hv]
    cases p <;> simp [State.setPsn]
  · rw [finish_mem, withCoh_mem, ← hv, ← hd]
    exact putBytes_find ..

end

/-! ### What requesters do with the answers -/

section
omit hl hh
variable (hb : s.coh.txns.find line = some b) (hsup : b.sup = true) (hacks : b.acks = []) (hqueue : b.queue = []) (hwait : s.coh.waiting = [])
include hb hsup hacks hqueue hwait

/-- An answer that installs the line in a cache with room for it, and ends the transaction: the line leaves B. -/
theorem installed_leavesB {m : CMsg} {st : CState} {d : List Byte} {p : Bool} (hn : InFlight s m) (hroom : s.makeRoom h line = s) (hst : st ≠ .I)
    (hd : s.deliver m = ((s.without m).setCopy h line st d p).arrived line) : Completes m.row s (fun t =>
      t.copyOf h line = some (s.tagged line st d p) ∧ t.coh.txns.find line = none ∧ t.coh.msgs = s.coh.msgs.erase m ∧ t.mem = s.mem) := by
  rw [State.without, setCopy_withCoh (k := { s.coh with msgs := s.coh.msgs.erase m }) hroom rfl] at hd
  generalize hu : s.withCoh _ = u at hd
  obtain ⟨x, harr, hx⟩ := arrived_leavesB (s := u) (by rw [← hu]; exact hb) hsup hacks hqueue (by rw [← hu]; exact hwait)
  rw [← hu] at hd harr
  refine hn.completes hp (hd.trans harr) hquiet.1 ⟨?_, by simpa using hx, by simp, by simp⟩
  rw [finish_copyOf]
  exact copyOf_installed s _ line h hst rfl

/-- An answer that an engine receives, and that ends the transaction: the line leaves B. -/
theorem received_leavesB {m : CMsg} {d : List Byte} {p : Bool} (hn : InFlight s m)
    (hd : s.deliver m = ((s.without m).receive h line d p).arrived line) : Completes m.row s (fun t =>
      t.coh.got = s.coh.got ++ [(h, line, d, p)] ∧ t.coh.caches = s.coh.caches ∧ t.coh.txns.find line = none ∧ t.mem = s.mem) := by
  obtain ⟨x, harr, hx⟩ := arrived_leavesB (s := (s.without m).receive h line d p) hb hsup hacks hqueue hwait
  exact hn.completes hp (hd.trans harr) hquiet.1 ⟨by simp [State.without, receive_eq], by simp [State.without, receive_eq], by simpa using hx,
    by simp [State.without, receive_eq]⟩

end
end

/-- One message of each kind about a line. -/
def onLine (line h : Nat) : List CMsg :=
  [.fwdS line h 0, .fwdX line h 0, .fwdRd line h 0, .inv line h, .recall line h, .invAck line h, .done line h, .grant line h,
   .atomResult line h 0 false, .wrAck line h, .data line h [] false false, .dataX line h [] false, .wbData line h [] false]

theorem rows_of_line (line h : Nat) : [Instr.fwds line h, .fwdx line h, .fwdrd line h, .inv line h, .recall line h, .invack line h, .done line h,
    .upgradeGrant line h, .atomresult line h, .wrack line h, .data line h, .datax line h, .wbdata line h] = (onLine line h).map CMsg.row := rfl

theorem onLine_ends (line h : Nat) : ∀ m ∈ onLine line h, m.line = line ∧ m.peer = h := by simp [onLine, CMsg.line, CMsg.peer]

/-- Settles O45: every row takes its message out of flight and lets it arrive (`InFlight.completes`); what the arrival does is read off `deliver`. -/
theorem coherenceAnswers : Obligations.CoherenceAnswers := by
  unfold Obligations.CoherenceAnswers
  intro s line h q b c d v w e p hp hl hh hq hb hquiet
  have htxn : s.txnOf line = b := by rw [txnOf_eq, hb, Option.getD_some]
  refine ⟨fun hc hroom hone => ⟨fwds_answered hp hquiet hl hh hone hc hroom, fwdx_answered hp hquiet hl hh hone hc,
    fwdrd_answered hp hquiet hl hh hone hc, recall_answered hp hquiet hl hh hc⟩, fun hc m hmem hm hone => ?_, inv_answered hp hquiet hl hh,
    fun hm hsup hreq => ⟨fun k l hk hin => invack_counted hp hquiet hl hh hb hm hsup hk hin, invack_handsOver hp hquiet hl hh hb hm hsup hreq⟩,
    done_records hp hquiet hl hh hb, wbdata_stored hp hquiet hl hh hb, fun hsup hacks hqueue hwait => ⟨fun hm hc hroom => ?_,
    fun hone hm => ⟨fun hreq hroom => ?_, fun hreq => ?_⟩, fun hone hm hroom => ?_, fun hone hm => ?_, fun hm => ?_⟩, fun hnone i hi => ?_⟩
  · have hfwds : ∀ {k : CMsg}, (∀ n ∈ s.coh.msgs, n = k ∨ ∀ r, n ≠ .fwdS line h r ∧ n ≠ .fwdX line h r ∧ n ≠ .fwdRd line h r) →
        k = .fwdS line h q ∨ k = .fwdX line h q ∨ k = .fwdRd line h q ∨ k = .recall line h → FwdsFor s line h q := by
      intro k hk hkind n hn
      rcases hk n hn with rfl | hne
      · rcases hkind with rfl | rfl | rfl | rfl <;> simp
      · exact .inr (.inr (.inr hne))
    simp only [List.mem_cons, List.not_mem_nil, or_false] at hmem
    rcases hmem with rfl | rfl | rfl | rfl
    · exact noCopy_answered hp hquiet (next_fwdS hl hh (hfwds hone (.inl rfl)) hm) (.inl rfl) hc
    · exact noCopy_answered hp hquiet (next_fwdX hl hh (hfwds hone (.inr (.inl rfl))) hm) (.inr (.inl rfl)) hc
    · exact noCopy_answered hp hquiet (next_fwdRd hl hh (hfwds hone (.inr (.inr (.inl rfl)))) hm) (.inr (.inr (.inl rfl))) hc
    · exact noCopy_answered (q := q) hp hquiet (next_recall hl hh hm) (.inr (.inr (.inr rfl))) hc
  · have hn := next_grant hl hq hm
    refine (installed_leavesB hp hquiet hb hsup hacks hqueue hwait hn hroom (st := .M) (d := c.data) (p := c.psn) (by decide) ?_).imp fun t ht => ?_
    · simp only [State.deliver, hn.takeMsg, without_copyOf, hc]
    · obtain ⟨hcopy, htx, hmsgs, hmem⟩ := ht
      exact ⟨by rw [hcopy]; rfl, htx, hmsgs, hmem⟩
  · have hn := next_data hl hq hm hone
    have hfar : (s.without (.data line q d e p)).farGone line = false := by rw [State.farGone, isFarLine_of_local hl, Bool.false_and]
    refine (installed_leavesB hp hquiet hb hsup hacks hqueue hwait hn hroom (st := if e then .E else .S) (d := d) (p := p)
      (by cases e <;> decide) ?_).imp fun t ht => ?_
    · simp only [State.deliver, hn.takeMsg, without_txnOf, htxn, hreq, hfar]
      rfl
    · obtain ⟨hcopy, htx, hmsgs, hmem⟩ := ht
      exact ⟨by rw [hcopy]; rfl, htx, hmsgs, hmem⟩
  · have hn := next_data hl hq hm hone
    refine received_leavesB hp hquiet hb hsup hacks hqueue hwait hn ?_
    simp only [State.deliver, hn.takeMsg, without_txnOf, htxn, hreq]
  · have hn := next_dataX hl hq hm hone
    refine (installed_leavesB hp hquiet hb hsup hacks hqueue hwait hn hroom (st := .M) (d := d) (p := p) (by decide) ?_).imp fun t ht => ?_
    · simp only [State.deliver, hn.takeMsg]
    · obtain ⟨hcopy, htx, hmsgs, hmem⟩ := ht
      exact ⟨by rw [hcopy]; rfl, htx, hmsgs, hmem⟩
  · have hn := next_atomResult hl hq hm hone
    refine (received_leavesB (h := q) (d := leBytes 16 v.toNat) (p := p) hp hquiet hb hsup hacks hqueue hwait hn
      (by simp only [State.deliver, hn.takeMsg])).imp fun t ht => ?_
    obtain ⟨hgot, -, htx, hmem⟩ := ht
    exact ⟨hgot, htx, hmem⟩
  · have hn := next_wrAck hl hq hm
    refine (received_leavesB (h := q) (d := []) (p := false) hp hquiet hb hsup hacks hqueue hwait hn
      (by simp only [State.deliver, hn.takeMsg])).imp fun t ht => ?_
    obtain ⟨hgot, -, htx, hmem⟩ := ht
    exact ⟨hgot, htx, hmem⟩
  · obtain ⟨m, hm, rfl⟩ := List.mem_map.1 (rows_of_line line h ▸ hi)
    obtain ⟨hml, hmh⟩ := onLine_ends line h m hm
    exact row_idle hp (row_wf (hml.symm ▸ hl) (hmh.symm ▸ hh)) hnone

end Sys2Proof.Machine
end

section
/-!
PROOFS. How works end (R141, R247, R249, R250), what a superseded dispatch leaves (R173), and barriers (R138).
-/
namespace Sys2Proof.Machine

/-! ### The end of a top-level work -/

section
variable {s u v : State} {w : Nat} {x y : Work}

theorem modWork_eq_const (hx : s.work? w = some x) (f : Work → Work) : s.modWork w f = s.modWork w (fun _ => f x) := by
  rw [State.work?] at hx
  simp only [State.modWork, hx]

theorem modWork_ring (s : State) (w : Nat) (f : Work → Work) (r : Nat) : (s.modWork w f).ring r = s.ring r := by rw [State.modWork_eq]; rfl

/-- Memory, tiles, registers and the started descriptors of rings are as they were. -/
structure DataKept (s t : State) : Prop where
  mem : t.mem = s.mem
  hostMem : t.hostMem = s.hostMem
  tiles : t.tiles = s.tiles
  regs : t.regs = s.regs
  started : ∀ r, (t.ring r).started = (s.ring r).started

theorem dataKept_modWork (s : State) (w : Nat) (f : Work → Work) : DataKept s (s.modWork w f) := by
  rw [State.modWork_eq]
  exact ⟨rfl, rfl, rfl, rfl, fun _ => rfl⟩

/-- What is left where top-level work `w` of `u` has ended: it is gone from works and from its ring, and memory, tiles and registers are
as in `u`. -/
structure EndsWork (u : State) (w : Nat) (x : Work) (t : State) : Prop where
  ended : Ended u w x t
  mem : t.mem = u.mem
  hostMem : t.hostMem = u.hostMem
  tiles : t.tiles = u.tiles
  regs : t.regs = u.regs

/-- A release frees the copy engine of the work. -/
theorem releaseWork_engine {c : Nat} (hx : u.work? w = some x) (hc : x.engine = some c) : (u.releaseWork w).front.engines.find c = none := by
  have hacc : (u.accrue w).work? w = some { x with since := u.now } := by rw [accrue_work, hx, Option.map_some]
  simp only [State.releaseWork, hacc, hc]
  rw [State.modWork_eq]
  exact Table.find_erase_self ..

/-- Save slots that are freed leave the front end. -/
theorem freeSlots_front (s : State) (h : Nat) (ks : List Nat) : (s.freeSlots h ks).front = s.front := by
  unfold State.freeSlots
  generalize hu : s.modHood h _ = u
  have hsu : u.front = s.front := by rw [← hu]; rfl
  clear hu
  induction ks generalizing u with
  | nil => exact hsu
  | cons k ks ih => exact ih _ hsu

/-- What `endTop` does once the record is written. -/
def State.leave (s : State) (w : Nat) (x : Work) : State :=
  (((s.modRing x.ring (fun k => { k with
      started := k.started.filter (fun i => i != w), psn := k.psn || x.psnw
      lenders := if x.kind = 4 then k.lenders else (k.lenders ++ x.lenders).eraseDups })).releaseWork w).freeSlots x.hood
    (x.slots.map (fun e => e.2) ++ x.outT.map (fun e => e.2) ++ x.moveT.map (fun e => e.2))).dropWork w

/-- A top-level work that is no launch ends once its record is written. -/
theorem completeWork_leave (hx : u.work? w = some x) (hkind : x.kind ≠ 2) (hpar : x.parent = none) (hrec : (u.writeRecord w x).1 = some v) :
    u.completeWork w = v.leave w x := by
  simp only [State.completeWork, hx, hpar, State.endTop]
  generalize u.writeRecord w x = p at hrec
  obtain ⟨r, t⟩ := p
  cases hrec
  exact if_neg hkind

theorem leave_ends (v : State) (w : Nat) (x : Work) : EndsWork v w x (v.leave w x) := by
  unfold State.leave
  generalize x.slots.map (fun e => e.2) ++ x.outT.map (fun e => e.2) ++ x.moveT.map (fun e => e.2) = ks
  generalize hq : State.modRing v x.ring _ = q
  have hring : (q.ring x.ring).started = (v.ring x.ring).started.filter (fun i => i != w) := by
    rw [← hq, State.modRing_ring_self]
  have hrel : OnlyReleased q (((q.releaseWork w).freeSlots x.hood ks).dropWork w) :=
    ((onlyReleased_releaseWork ..).trans (onlyReleased_freeSlots ..)).trans rfl
  refine ⟨⟨Table.find_erase_self .., ?_⟩, ?_, ?_, ?_, ?_⟩
  · rw [hrel]; exact hring
  all_goals rw [hrel, ← hq]; rfl

theorem leave_engine {c : Nat} (hy : v.work? w = some y) (hc : y.engine = some c) : (v.leave w x).front.engines.find c = none := by
  show ((State.freeSlots _ _ _).front.engines).find c = none
  rw [freeSlots_front]
  exact releaseWork_engine hy hc

theorem writeRecord_none (u : State) (w : Nat) (h : dCpl x.desc = 0) : (u.writeRecord w x).1 = some u := by
  rw [State.writeRecord, if_pos h]

theorem writeRecord_written {n : Nat} (h : dCpl x.desc ≠ 0)
    (hwr : u.wrVA ((feEng x.hood x.ctx).of w) (dCpl x.desc) (clean (x.record u.now)) = (n, v, none)) : (u.writeRecord w x).1 = some v := by
  simp only [State.writeRecord, h, hwr, if_false]

/-- A completion is the end of the work, after which the scheduler decides. -/
theorem complete_schedules {P : State → Prop} (hy : u.work? w = some y) (hhood : y.hood = x.hood) (hP : P (u.completeWork w)) :
    ThenSchedules s x.hood P (finish s (u.complete w)) :=
  ⟨_, hP, by simp only [State.complete, hy, hhood]⟩

/-- A work that names no record ends as it is. -/
theorem completeWork_ends (hx : u.work? w = some x) (hkind : x.kind ≠ 2) (hrec : Unrecorded x) : EndsWork u w x (u.completeWork w) := by
  obtain ⟨hpar, hcpl⟩ := hrec
  rw [completeWork_leave hx hkind hpar (writeRecord_none u w hcpl)]
  exact leave_ends u w x

/-- The work as `setInvalid` and its completion leave it (R249). -/
def State.invalidated (s : State) (w : Nat) (x : Work) : State :=
  (s.countReg rCTX_INVALID x.ctx 1).modWork w (fun _ => { x with status := 1, ran := true, phase := .finished })

theorem endInvalid_eq (hx : s.work? w = some x) : s.endInvalid w = (s.invalidated w x).complete w := by
  have hx' : (s.countReg rCTX_INVALID x.ctx 1).work? w = some x := hx
  simp only [State.endInvalid, State.setInvalid, hx, State.invalidated]
  rw [modWork_eq_const hx']

theorem invalidated_work (hx : s.work? w = some x) :
    (s.invalidated w x).work? w = some { x with status := 1, ran := true, phase := .finished } := by
  rw [State.invalidated, State.modWork_work_self]
  exact congrArg (Option.map _) hx

/-- A top-level work that names no record and is no launch completes INVALID. -/
theorem endInvalid_unrecorded (hx : s.work? w = some x) (hkind : x.kind ≠ 2) (hrec : Unrecorded x) :
    EndedInvalid s w x (finish s (s.endInvalid w)) := by
  have hy := invalidated_work hx
  have hkept : DataKept (s.countReg rCTX_INVALID x.ctx 1) (s.invalidated w x) := dataKept_modWork ..
  obtain ⟨⟨hgone, hring⟩, hmem, hhost, htiles, hregs⟩ := completeWork_ends hy hkind hrec
  rw [endInvalid_eq hx]
  refine complete_schedules hy rfl ⟨⟨hgone, hring.trans (congrArg _ (hkept.started _))⟩, ?_, hmem.trans hkept.mem, hhost.trans hkept.hostMem,
    htiles.trans hkept.tiles⟩
  rw [State.reg, hregs, hkept.regs]
  exact (State.setReg_reg_self ..).trans (Nat.mod_eq_of_lt (satAdd_lt ..))

end

/-! ### NOP (R247, R249, R250) -/

section
variable {s v : State} {w : Nat} {x : Work}

/-- A NOP, or a descriptor of an unlisted KIND, as it completes. -/
def Work.nopped (x : Work) : Work := { x with status := if descOk x.desc then 0 else 1, ran := true, phase := .finished }

/-- The package as it is before the record of a NOP is written. -/
def State.nopped (s : State) (w : Nat) (x : Work) : State :=
  (if descOk x.desc then s else s.countReg rCTX_INVALID x.ctx 1).modWork w (fun _ => x.nopped)

theorem begun_spec {p : Nat → Bool} (h : s.begun w p = some x) : s.work? w = some x ∧ p x.kind = true := by
  obtain ⟨hw, hb⟩ := Option.filter_eq_some_iff.1 h
  simp only [Bool.and_eq_true] at hb
  obtain ⟨⟨⟨⟨⟨⟨hkind, -⟩, -⟩, -⟩, -⟩, -⟩, -⟩ := hb
  exact ⟨hw, hkind⟩

theorem nop_kind_ne (h : s.begun w (fun k => k == 0 || decide (8 ≤ k)) = some x) : x.kind ≠ 2 := by
  intro hk
  simpa [hk] using (begun_spec h).2

theorem nopEff_eq (h : s.begun w (fun k => k == 0 || decide (8 ≤ k)) = some x) : nopEff w s = (s.nopped w x).complete w := by
  have hx := (begun_spec h).1
  simp only [nopEff, h, State.nopped, Work.nopped]
  cases hok : descOk x.desc with
  | true => simp only [if_true, State.completeAs, modWork_eq_const hx]
  | false => exact endInvalid_eq hx

theorem nopped_work (s : State) {w : Nat} {x : Work} (hx : s.work? w = some x) : (s.nopped w x).work? w = some x.nopped := by
  unfold State.nopped
  rw [State.modWork_work_self]
  split <;> exact congrArg (Option.map _) hx

theorem nopped_of_ok (h : descOk x.desc = true) : s.nopped w x = s.modWork w (fun _ => x.nopped) := by rw [State.nopped, if_pos h]

theorem nopped_started (r : Nat) : ((s.nopped w x).ring r).started = (s.ring r).started := by
  unfold State.nopped
  rw [modWork_ring]
  split <;> rfl

theorem nopped_tiles : (s.nopped w x).tiles = s.tiles := by
  unfold State.nopped
  rw [modWork_tiles]
  split <;> rfl

theorem nopped_now : (s.nopped w x).now = s.now := by
  unfold State.nopped
  rw [State.modWork_eq]
  split <;> rfl

section
variable (hp : Powered s) (h : s.begun w (fun k => k == 0 || decide (8 ≤ k)) = some x) (hpar : x.parent = none)
include hp h hpar

theorem nop_ends (hcpl : dCpl x.desc = 0) (hok : descOk x.desc = true) : Completes (.nop w) s (ThenSchedules s x.hood (fun u =>
    Ended s w x u ∧ u.mem = s.mem ∧ u.hostMem = s.hostMem ∧ u.tiles = s.tiles ∧ u.regs = s.regs)) := by
  have hy := nopped_work s (begun_spec h).1
  have hkept : DataKept s (s.nopped w x) := nopped_of_ok hok ▸ dataKept_modWork ..
  obtain ⟨⟨hgone, hring⟩, hmem, hhost, htiles, hregs⟩ := completeWork_ends hy (nop_kind_ne h :) ⟨hpar, hcpl⟩
  refine completes_run (eff := nopEff w) rfl rfl hp (nopEff_eq h ▸ complete_schedules hy rfl ?_)
  exact ⟨⟨hgone, hring.trans (congrArg _ (hkept.started _))⟩, hmem.trans hkept.mem, hhost.trans hkept.hostMem, htiles.trans hkept.tiles,
    hregs.trans hkept.regs⟩

theorem nop_invalid (hcpl : dCpl x.desc = 0) (hok : descOk x.desc = false) : Completes (.nop w) s (EndedInvalid s w x) := by
  have heff : nopEff w s = s.endInvalid w := by simp [nopEff, h, hok]
  exact completes_run (eff := nopEff w) rfl rfl hp (heff ▸ endInvalid_unrecorded (begun_spec h).1 (nop_kind_ne h) ⟨hpar, hcpl⟩)

/-- The record is written by one access, and the work ends. -/
theorem nop_recorded {n : Nat} (hcpl : dCpl x.desc ≠ 0)
    (hwr : (s.nopped w x).wrVA ((feEng x.hood x.ctx).of w) (dCpl x.desc) (clean (x.nopped.record s.now)) = (n, v, none)) :
    Completes (.nop w) s (ThenSchedules s x.hood (fun u => Ended s w x u ∧ u.mem = v.mem ∧ u.hostMem = v.hostMem ∧ u.tiles = s.tiles)) := by
  have hy := nopped_work s (begun_spec h).1
  have hrec : ((s.nopped w x).writeRecord w x.nopped).1 = some v := writeRecord_written hcpl (by rw [nopped_now]; exact hwr)
  have hacc := wrVA_accessed (s.nopped w x) ((feEng x.hood x.ctx).of w) (dCpl x.desc) (clean (x.nopped.record s.now))
  rw [hwr] at hacc
  obtain ⟨-, htiles, -, -, -, -, hstarted, -⟩ := hacc
  have hend := leave_ends v w x.nopped
  rw [← completeWork_leave hy (nop_kind_ne h :) hpar hrec] at hend
  obtain ⟨⟨hgone, hring⟩, hmem, hhost, htiles', -⟩ := hend
  refine completes_run (eff := nopEff w) rfl rfl hp (nopEff_eq h ▸ complete_schedules hy rfl ?_)
  exact ⟨⟨hgone, hring.trans (congrArg _ ((hstarted _).trans (nopped_started _)))⟩, hmem, hhost, htiles'.trans (htiles.trans nopped_tiles)⟩

end

end

/-! ### KERNEL_COMPLETE and COPY_COMPLETE (R141, R249, R251) -/

section
variable {s : State} {w : Nat} {x : Work}

/-- A command without effect. -/
theorem completes_idle {c : Instr} {eff : State → State} (hc : exec c s = run c.wf eff s) (hwf : c.wf = true) (hp : Powered s) (heff : eff s = s) :
    Completes c s (fun t => OnlyPort s t) :=
  completes_run hc hwf hp (by rw [heff]; exact onlyPort_finish rfl)

/-- A finished work that names no record ends by its completion. -/
theorem completes_complete {c : Instr} {eff : State → State} (hc : exec c s = run c.wf eff s) (hwf : c.wf = true) (hp : Powered s)
    (heff : eff s = s.complete w) (hx : s.work? w = some x) (hkind : x.kind ≠ 2) (hrec : Unrecorded x) {P : State → Prop}
    (hP : EndsWork s w x (s.completeWork w) → P (s.completeWork w)) : Completes c s (ThenSchedules s x.hood P) :=
  completes_run hc hwf hp (heff ▸ complete_schedules hx rfl (hP (completeWork_ends hx hkind hrec)))

section
variable (hp : Powered s) (hx : s.work? w = some x) (hcur : s.current x = true) (hphase : x.phase = .finished) (hrec : Unrecorded x)
  (hack : s.allAcked w = true)
include hp hx hcur hphase hrec hack

theorem kernelComplete_ends (hkind : x.kind = 1) : Completes (.kernelComplete w) s (ThenSchedules s x.hood (fun u =>
    Ended s w x u ∧ u.mem = s.mem ∧ u.tiles = s.tiles)) := by
  have heff : kernelCompleteEff w s = s.complete w := by simp [kernelCompleteEff, hx, hkind, hcur, hphase, hack]
  exact completes_complete rfl rfl hp heff hx (by omega) hrec fun h => ⟨h.ended, h.mem, h.tiles⟩

theorem copyComplete_ends {c : Nat} (hkind : x.kind = 6) (hc : x.engine = some c) : Completes (.copyComplete w) s (ThenSchedules s x.hood (fun u =>
    Ended s w x u ∧ u.front.engines.find c = none ∧ u.mem = s.mem ∧ u.tiles = s.tiles)) := by
  have heff : copyCompleteEff w s = s.complete w := by simp [copyCompleteEff, hx, hkind, hcur, hphase, hack]
  refine completes_complete rfl rfl hp heff hx (by omega) hrec fun h => ⟨h.ended, ?_, h.mem, h.tiles⟩
  rw [completeWork_leave hx (by omega) hrec.1 (writeRecord_none s w hrec.2)]
  exact leave_engine hx hc

end

theorem kernelComplete_invalid (hp : Powered s) (hx : s.work? w = some x) (hcur : s.current x = true) (hphase : x.phase = .started)
    (hran : x.ran = false) (hkind : x.kind = 1) (hop : argBytes x.op = 0 ∨ (x.op = 7 ∧ vopListed (fld x.args 0 0 8) = false))
    (hrec : Unrecorded x) : Completes (.kernelComplete w) s (EndedInvalid s w x) := by
  have heff : kernelCompleteEff w s = s.endInvalid w := by simp [kernelCompleteEff, hx, hkind, hcur, hphase, hran, hop]
  exact completes_run (eff := kernelCompleteEff w) rfl rfl hp (heff ▸ endInvalid_unrecorded hx (by omega) hrec)

/-- Neither completion does anything for no work. -/
theorem completions_of_none (hp : Powered s) (hx : s.work? w = none) :
    Completes (.kernelComplete w) s (fun t => OnlyPort s t) ∧ Completes (.copyComplete w) s (fun t => OnlyPort s t) :=
  ⟨completes_idle (eff := kernelCompleteEff w) rfl rfl hp (by simp [kernelCompleteEff, hx]),
    completes_idle (eff := copyCompleteEff w) rfl rfl hp (by simp [copyCompleteEff, hx])⟩

/-- Neither completion does anything for finished work that awaits acknowledgements. -/
theorem completions_unacked (hp : Powered s) (hx : s.work? w = some x) (hphase : x.phase = .finished) (hack : s.allAcked w = false) :
    Completes (.kernelComplete w) s (fun t => OnlyPort s t) ∧ Completes (.copyComplete w) s (fun t => OnlyPort s t) :=
  ⟨completes_idle (eff := kernelCompleteEff w) rfl rfl hp (by simp [kernelCompleteEff, hx, hphase, hack]),
    completes_idle (eff := copyCompleteEff w) rfl rfl hp (by simp [copyCompleteEff, hx, hack])⟩

end

/-! ### A dispatch of another epoch (R173) -/

section
variable {s : State} {w op : Nat} {x : Work} {mine : List Byte → Bool}

/-- The dispatch is refused: it completes without effect, and is counted for each of its tiles. -/
def State.refused (s : State) (w : Nat) (x : Work) : State :=
  (s.draw.2.countReg rHOOD_REJECT_COUNT x.hood x.cnt).modWork w (fun x => { x with doneT := List.range x.cnt, ran := true, phase := .finished })

theorem arrive_refused (hk : s.kernel w op = some x) (hmine : mine x.args = true) (htaken : x.taken = false)
    (hepoch : x.epoch ≠ s.reg rHOOD_EPOCH x.hood) (hfree : Config.choice s.draw.1 % 2 ≠ 0) : s.arrive w op mine = s.refused w x := by
  simp only [State.arrive, hk]
  rw [if_neg (by simp [hmine, htaken]), if_neg (by simpa using hepoch), if_neg hfree]
  rfl

theorem refused_work (hx : s.work? w = some x) :
    (s.refused w x).work? w = some { x with doneT := List.range x.cnt, ran := true, phase := .finished } := by
  rw [State.refused, State.modWork_work_self]
  exact congrArg (Option.map _) hx

/-- What has run is no kernel that may run. -/
theorem kernel_refused (hx : s.work? w = some x) : (s.refused w x).kernel w op = none := by
  have hb : ∀ p, (s.refused w x).begun w p = none := fun p => by
    simp [State.begun, refused_work hx, Option.filter]
  rw [State.kernel, hb]
  rfl

/-- Each row that runs a KERNEL first takes its dispatch, and does no more where that leaves no kernel to run. -/
theorem exec_kernelRows {p : Nat × (List Byte → Bool) × Instr} (h : p ∈ kernelRows w) : ∃ eff, p.2.2.wf = true ∧
    exec p.2.2 s = run p.2.2.wf eff s ∧ ((s.arrive w p.1 p.2.1).kernel w p.1 = none → eff s = s.arrive w p.1 p.2.1) := by
  simp only [kernelRows, List.mem_append, List.mem_map] at h
  rcases h with h | ⟨q, hq, rfl⟩
  · simp only [List.mem_cons, List.not_mem_nil, or_false] at h
    rcases h with rfl | rfl | rfl | rfl | rfl | rfl | rfl | rfl | rfl | rfl
    · exact ⟨mmaEff w, rfl, rfl, fun h => by simp only [mmaEff, h]⟩
    · exact ⟨wbEff w, rfl, rfl, fun h => by simp only [wbEff, h]⟩
    · exact ⟨mergeEff w, rfl, rfl, fun h => by simp only [mergeEff, h]⟩
    · exact ⟨loadEff w, rfl, rfl, fun h => by simp only [loadEff, h]⟩
    · exact ⟨storeEff w, rfl, rfl, fun h => by simp only [storeEff, h]⟩
    · exact ⟨kvcEff w, rfl, rfl, fun h => by simp only [kvcEff, h]⟩
    · exact ⟨attnEff w, rfl, rfl, fun h => by simp only [attnEff, h]⟩
    · exact ⟨ringUpEff w, rfl, rfl, fun h => by simp only [ringUpEff, h]⟩
    · exact ⟨ringDownEff w, rfl, rfl, fun h => by simp only [ringDownEff, h]⟩
    · exact ⟨barEff w, rfl, rfl, fun h => by simp only [barEff, h]⟩
  · obtain ⟨hwf, hexec⟩ := exec_vecRows (s := s) hq
    exact ⟨vecEff q.1 w, hwf, hexec, fun h => by simp only [vecEff, h]⟩

theorem staleDispatch_refused {p : Nat × (List Byte → Bool) × Instr} (hp : Powered s) (hrow : p ∈ kernelRows w) (hk : s.kernel w p.1 = some x)
    (hmine : p.2.1 x.args = true) (htaken : x.taken = false) (hepoch : x.epoch ≠ s.reg rHOOD_EPOCH x.hood) :
    Completes p.2.2 s (fun t => Config.choice s.draw.1 % 2 = 0 ∨
      ((∃ y, t.work? w = some y ∧ y.phase = .finished ∧ y.ran = true ∧ y.doneT = List.range x.cnt) ∧ t.tiles = s.tiles ∧ t.mem = s.mem ∧
      t.reg rHOOD_REJECT_COUNT x.hood = satAdd 32 (s.reg rHOOD_REJECT_COUNT x.hood) x.cnt)) := by
  obtain ⟨eff, hwf, hexec, hnone⟩ := exec_kernelRows (s := s) hrow
  refine completes_run hexec hwf hp (or_iff_not_imp_left.2 fun hfree => ?_)
  have hx := (kernel_spec hk).1
  have harr := arrive_refused hk hmine htaken hepoch hfree
  have heff : eff s = s.refused w x := by
    rw [harr] at hnone
    exact hnone (kernel_refused hx)
  have hkept : DataKept (s.draw.2.countReg rHOOD_REJECT_COUNT x.hood x.cnt) (s.refused w x) := dataKept_modWork ..
  rw [heff]
  refine ⟨⟨_, (finish_work ..).trans (refused_work hx), rfl, rfl, rfl⟩, ?_, ?_, ?_⟩
  · rw [finish_tiles, hkept.tiles]; rfl
  · rw [finish_mem, hkept.mem]; rfl
  · rw [finish_reg, State.reg, hkept.regs]
    exact (State.setReg_reg_self ..).trans (Nat.mod_eq_of_lt (satAdd_lt ..))

end

/-! ### BAR (R138, R251) -/

section
variable {s z : State} {w : Nat} {x : Work}

theorem kernel_ran {op : Nat} (h : z.kernel w op = some x) : x.ran = false := by
  obtain ⟨h, -⟩ := Option.filter_eq_some_iff.1 h
  obtain ⟨-, hb⟩ := Option.filter_eq_some_iff.1 h
  simp only [Bool.and_eq_true, Bool.not_eq_true'] at hb
  obtain ⟨⟨⟨⟨⟨-, hran⟩, -⟩, -⟩, -⟩, -⟩ := hb
  exact hran

/-- The wait of a BAR for the release of its unit, with the timeout of R274. -/
def State.barWait (s : State) (w : Nat) (x : Work) : Wait :=
  { work := w, ctx := x.ctx, ring := x.ring, hood := x.hood, loc := noLoc, kind := 2, start := s.now, timeout := (s.ctx x.ctx).defto }

/-- The BAR waits at its unit. -/
def State.barWaits (s : State) (w : Nat) (x : Work) : State :=
  { s.modWork w (fun x => { x with phase := .waiting, prog := x.prog.insert 4097 1 }) with waits := s.waits ++ [s.barWait w x] }

theorem barWaits_work (hx : z.work? w = some x) :
    (z.barWaits w x).work? w = some { x with phase := .waiting, prog := x.prog.insert 4097 1 } := by
  show (z.modWork w _).work? w = _
  rw [State.modWork_work_self, hx, Option.map_some]

section
variable (hp : Powered s) (hz : z = s.arrive w 10 (fun _ => true)) (hk : z.kernel w 10 = some x)
include hz

theorem arrive_bar (n : Nat) : z.bar n = s.bar n := by
  have h := arrive_eq s w 10 (fun _ => true)
  rw [← hz] at h
  exact (congrArg (State.bar · n) h :)

include hk

/-- What BAR does, by the case: its records or its unit are not in order, it has no tile, or it waits. -/
theorem barEff_eq : barEff w s = if x.recordsOk = false ∨ (s.bar (64 * x.hood + fld x.args 0 0 6)).owner ≠ x.hood + 1 then z.endInvalid w
    else if (x.prog.find 4097).isSome then z.modWork w (fun x => { x with phase := .waiting })
    else if x.cnt = 0 then z.kernelEnd w else z.barWaits w x := by
  have hw : (z.modWork w (fun x => { x with phase := .waiting, prog := x.prog.insert 4097 1 })).waits = z.waits := by rw [State.modWork_eq]
  rw [← arrive_bar hz]
  simp only [barEff, ← hz, hk, State.barWaits, State.barWait, hw]
  congr 1
  simp

include hp

theorem bar_waits {n : Nat} (hrec : x.recordsOk = true) (hn : n = 64 * x.hood + fld x.args 0 0 6) (hown : (s.bar n).owner = x.hood + 1)
    (hfirst : x.prog.find 4097 = none) (hcnt : 0 < x.cnt) : Completes (.bar w) s (fun t =>
      (∃ q, t.waits = s.waits ++ [q] ∧ q.work = w ∧ q.kind = 2 ∧ q.start = s.now ∧ q.timeout = (s.ctx x.ctx).defto) ∧
      (∃ y, t.work? w = some y ∧ y.phase = .waiting ∧ y.ran = false) ∧ t.tiles = s.tiles ∧ t.mem = s.mem ∧ t.bars = s.bars) := by
  subst hn
  have heff : barEff w s = z.barWaits w x := by
    rw [barEff_eq hz hk, if_neg (by simp [hrec, hown]), if_neg (by simp [hfirst]), if_neg (by omega)]
  have harr := arrive_eq s w 10 (fun _ => true)
  rw [← hz] at harr
  have hkept : z.barWaits w x = { s with
      works := (z.barWaits w x).works, regs := z.regs, free := z.free, waits := s.waits ++ [s.barWait w x] } := by
    rw [State.barWaits, State.modWork_eq, harr]
    rfl
  refine completes_run (eff := barEff w) rfl rfl hp ?_
  rw [heff]
  refine ⟨⟨s.barWait w x, ?_, rfl, rfl, rfl, rfl⟩, ⟨_, (finish_work ..).trans (barWaits_work (kernel_spec hk).1), rfl, (kernel_ran hk :)⟩,
    ?_, ?_, ?_⟩
  · rw [finish_waits, hkept]
  · rw [finish_tiles, hkept]
  · rw [finish_mem, hkept]
  · rw [finish_bars, hkept]

theorem bar_invalid (hx : Unrecorded x) (hbad : x.recordsOk = false ∨ (s.bar (64 * x.hood + fld x.args 0 0 6)).owner ≠ x.hood + 1) :
    Completes (.bar w) s (EndedInvalid z w x) :=
  completes_endInvalid (eff := barEff w) rfl rfl hp hk hx (hz ▸ arrive_pending ..) (by rw [barEff_eq hz hk, if_pos hbad])

theorem bar_empty (hrec : x.recordsOk = true) (hown : (s.bar (64 * x.hood + fld x.args 0 0 6)).owner = x.hood + 1)
    (hfirst : x.prog.find 4097 = none) (hcnt : x.cnt = 0) (hdone : x.doneT = []) : Completes (.bar w) s (fun t =>
      (∃ y, t.work? w = some y ∧ y.phase = .finished ∧ y.ran = true) ∧ t.tiles = s.tiles ∧ t.mem = s.mem ∧ t.bars = s.bars) := by
  have heff : barEff w s = z.kernelEnd w := by
    rw [barEff_eq hz hk, if_neg (by simp [hrec, hown]), if_neg (by simp [hfirst]), if_pos hcnt]
  have harr := arrive_eq s w 10 (fun _ => true)
  rw [← hz] at harr
  obtain ⟨hw, hphase, -⟩ := kernel_spec hk
  obtain ⟨htiles, hrun, hend⟩ := kernelEnd_finished hw hphase (by rw [hdone, hcnt, List.length_nil])
  refine completes_run (eff := barEff w) rfl rfl hp ?_
  rw [heff]
  refine ⟨⟨_, (finish_work ..).trans hend, rfl, rfl⟩, ?_, ?_, ?_⟩
  · rw [finish_tiles, htiles, harr]
  · rw [finish_mem, hrun, harr]
  · rw [finish_bars, hrun, harr]

end

end

/-! ### What the release of a barrier leaves (R331, R332, R334, R337) -/

section
variable {s t u : State}

/-- Works and barriers are as they were. -/
structure BarsKept (s t : State) : Prop where
  works : t.works = s.works
  bars : t.bars = s.bars

theorem BarsKept.refl (s : State) : BarsKept s s := ⟨rfl, rfl⟩

theorem BarsKept.trans (h : BarsKept s t) (k : BarsKept t u) : BarsKept s u := ⟨k.works.trans h.works, k.bars.trans h.bars⟩

theorem OnlyPower.barsKept {ks : List Nat} (h : OnlyPower ks s t) : BarsKept s t := by rw [h.1]; exact ⟨rfl, rfl⟩

theorem OnlyRegs.barsKept {ks : List Nat} (h : OnlyRegs ks s t) : BarsKept s t := by rw [h.1]; exact ⟨rfl, rfl⟩

theorem OnlySent.barsKept (h : OnlySent s t) : BarsKept s t := by rw [h]; exact ⟨rfl, rfl⟩

/-- A loop keeps what each turn keeps. -/
theorem foldl_barsKept {α : Type} {f : State → α → State} (h : ∀ t a, BarsKept t (f t a)) (l : List α) (s : State) : BarsKept s (l.foldl f s) := by
  induction l generalizing s with
  | nil => exact .refl s
  | cons a l ih => exact (h s a).trans (ih (f s a))

theorem barsKept_draw (s : State) : BarsKept s s.draw.2 := ⟨rfl, rfl⟩

theorem barsKept_power (s : State) (p : Power) : BarsKept s { s with power := p } := ⟨rfl, rfl⟩

theorem barsKept_setReg (s : State) (off i v : Nat) : BarsKept s (s.setReg off i v) := (onlyRegs_setReg s off i v).barsKept

theorem barsKept_modHood (s : State) (h : Nat) (f : Hood → Hood) : BarsKept s (s.modHood h f) := ⟨rfl, rfl⟩

theorem barsKept_reweigh (s : State) (h : Nat) (times : List (Nat × Nat)) : BarsKept s (s.reweigh h times) := by
  unfold State.reweigh
  split
  · exact .refl s
  · exact foldl_barsKept (fun t e => barsKept_modHood t h _) _ s

theorem barsKept_ite {c : Prop} [Decidable c] (h : BarsKept s t) (k : BarsKept s u) : BarsKept s (if c then t else u) := by
  split
  · exact h
  · exact k

theorem barsKept_applyStage (s : State) (h : Nat) : BarsKept s (s.applyStage h) := by
  unfold State.applyStage
  refine barsKept_ite (.refl s) ?_
  extract_lets p s₀ req pending s₁ s₂ s₃ s₄ s₅
  have h₀ : BarsKept s s₀ := barsKept_power ..
  have h₁ : BarsKept s₀ s₁ := barsKept_ite (onlyPower_stage [] ..).barsKept (.refl _)
  have h₂ : BarsKept s₁ s₂ := barsKept_ite ((barsKept_ite (barsKept_setReg ..) (.refl _)).trans (barsKept_setReg ..)) (.refl _)
  have h₃ : BarsKept s₂ s₃ := barsKept_ite ((barsKept_setReg ..).trans (barsKept_setReg ..)) (.refl _)
  have h₄ : BarsKept s₃ s₄ := barsKept_ite (onlyRegs_cause ..).barsKept (.refl _)
  have h₅ : BarsKept s₄ s₅ := (onlyPower_redivide [] ..).barsKept
  exact ((((h₀.trans h₁).trans h₂).trans h₃).trans h₄).trans (h₅.trans (onlyPower_capDone _).barsKept)

theorem barsKept_startRamp (s : State) (ps : List Nat) : BarsKept s (s.startRamp ps) := by
  have hlapse : ∀ (t : State) (p : Nat), BarsKept t (t.lapsePlank p) := fun t p =>
    foldl_barsKept (fun v e => barsKept_ite (onlyRegs_countReg ..).barsKept (.refl v)) _ t
  refine barsKept_ite (barsKept_draw s) ((barsKept_draw s).trans (foldl_barsKept (fun t p => ?_) ps _))
  exact barsKept_ite (.refl t) (BarsKept.trans (t := t.modPlank p _) ⟨rfl, rfl⟩ (hlapse ..))

theorem barsKept_sendShift (s : State) (i : Nat) : BarsKept s (s.sendShift i) := by
  have htake : ∀ seq off time, BarsKept s (s.takeShift seq off time) := fun seq off time =>
    (barsKept_power s _).trans <| barsKept_ite (.refl _) <|
      barsKept_ite ((barsKept_power ..).trans (onlyPower_changeCap _).barsKept) (barsKept_power ..)
  exact barsKept_ite (htake ..) ((barsKept_draw s).trans (onlySent_stlSend ..).barsKept)

theorem barsKept_moveCap (s : State) : BarsKept s s.moveCap := by
  unfold State.moveCap
  refine barsKept_ite (.refl s) ((barsKept_power ..).trans (barsKept_ite (.refl _) (barsKept_ite (.refl _) ?_)))
  exact ((barsKept_power ..).trans (barsKept_sendShift ..)).trans (barsKept_sendShift ..)

theorem barsKept_groupBoundary (s : State) (h : Nat) : BarsKept s (s.groupBoundary h) := by
  unfold State.groupBoundary
  refine barsKept_ite (.refl s) ((barsKept_power ..).trans (barsKept_ite ((barsKept_power ..).trans (barsKept_moveCap _)) ?_))
  exact (onlySent_stlSend ..).barsKept

end

/-! ### The release of the BAR kernels that wait (R138) -/

section
variable {s : State} {n v : Nat} {y : Work}

/-- A BAR kernel as the release of its unit leaves it. -/
def Work.released (x : Work) : Work :=
  { x with ran := true, doneT := List.range x.cnt, phase := if x.phase == .waiting || x.phase == .started then .finished else x.phase }

/-- The release of one BAR kernel. -/
def State.releaseBar (s : State) (e : Nat × Work) : State :=
  { s with waits := s.waits.filter (fun q => q.work != e.1) }.modWork e.1 Work.released

/-- A BAR kernel that waits at the unit. -/
def barAt (n : Nat) (x : Work) : Bool :=
  x.kind == 1 && x.op == 10 && !x.ran && (x.prog.find 4097).isSome && 64 * x.hood + fld x.args 0 0 6 == n

theorem barRelease_eq (s : State) (n : Nat) : s.barRelease n = (s.worksOf (barAt n)).foldl State.releaseBar s := rfl

/-- The work has run and awaits its completion. -/
def State.hasRun (s : State) (v : Nat) : Prop := ∃ z, s.work? v = some z ∧ z.phase = .finished ∧ z.ran = true

theorem releaseBar_work_of_ne (s : State) (e : Nat × Work) (h : e.1 ≠ v) : (s.releaseBar e).work? v = s.work? v :=
  State.modWork_work_of_ne _ _ h.symm

theorem releaseBar_bars (s : State) (e : Nat × Work) : (s.releaseBar e).bars = s.bars := by
  unfold State.releaseBar
  rw [State.modWork_eq]

/-- A release ends the work that it names, whether it waits or has ended already. -/
theorem releaseBar_hasRun {e : Nat × Work} (he : e.1 = v) (hy : s.work? v = some y) (hphase : y.phase = .waiting ∨ y.phase = .finished) :
    (s.releaseBar e).hasRun v := by
  have hwork : (s.releaseBar e).work? v = some y.released := by
    subst he
    rw [State.releaseBar, State.modWork_work_self]
    exact congrArg (Option.map _) hy
  refine ⟨_, hwork, ?_, rfl⟩
  rcases hphase with h | h <;> simp [Work.released, h]

theorem releaseBar_keeps (h : s.hasRun v) (e : Nat × Work) : (s.releaseBar e).hasRun v := by
  obtain ⟨z, hz, hphase, hran⟩ := h
  by_cases he : e.1 = v
  · exact releaseBar_hasRun he hz (.inr hphase)
  · exact ⟨z, (releaseBar_work_of_ne s e he).trans hz, hphase, hran⟩

theorem foldl_releaseBar_keeps (l : List (Nat × Work)) (h : s.hasRun v) : (l.foldl State.releaseBar s).hasRun v := by
  induction l generalizing s with
  | nil => exact h
  | cons e l ih => exact ih (releaseBar_keeps h e)

theorem foldl_releaseBar_hasRun {l : List (Nat × Work)} (hl : (v, y) ∈ l) {z : Work} (hz : s.work? v = some z) (hphase : z.phase = .waiting) :
    (l.foldl State.releaseBar s).hasRun v := by
  induction l generalizing s with
  | nil => cases hl
  | cons e l ih =>
    by_cases he : e.1 = v
    · exact foldl_releaseBar_keeps l (releaseBar_hasRun he hz (.inl hphase))
    · have hl' : (v, y) ∈ l := (List.mem_cons.1 hl).resolve_left fun h => he (h ▸ rfl)
      exact ih hl' ((releaseBar_work_of_ne s e he).trans hz)

theorem barRelease_hasRun (hy : s.work? v = some y) (hat : barAt n y = true) (hphase : y.phase = .waiting) : (s.barRelease n).hasRun v :=
  foldl_releaseBar_hasRun (List.mem_filter.2 ⟨Table.mem_of_find hy, hat⟩) hy hphase

theorem barRelease_bars (s : State) (n : Nat) : (s.barRelease n).bars = s.bars := by
  rw [barRelease_eq]
  generalize s.worksOf (barAt n) = l
  induction l generalizing s with
  | nil => rfl
  | cons e l ih => exact (ih _).trans (releaseBar_bars s e)

/-- The unit as its release leaves it. -/
def State.clearBar (s : State) (n : Nat) : State := s.modBar n (fun b => { b with arrived := [], times := [], fulling := 0 })

/-- Between the last arrival and the release of the kernels, and after it, neither works nor barriers change. -/
theorem barDone_spec (s : State) (n : Nat) : ∃ r, BarsKept (s.clearBar n) r ∧ BarsKept (r.barRelease n) (s.barDone n) := by
  unfold State.barDone
  extract_lets h b ps s₁ s₂ s₃
  have h₂ : BarsKept s₁ s₂ := ((barsKept_reweigh ..).trans (barsKept_applyStage ..)).trans (onlyPower_redivide [] ..).barsKept
  have h₃ : BarsKept s₂ s₃ := barsKept_ite (barsKept_startRamp ..) (.refl _)
  exact ⟨s₃, h₂.trans h₃, barsKept_groupBoundary ..⟩

theorem barDone_bar (s : State) (n : Nat) : ((s.barDone n).bar n).arrived = [] ∧ ((s.barDone n).bar n).fulling = 0 := by
  obtain ⟨r, hr, hdone⟩ := barDone_spec s n
  have hbar : (s.barDone n).bar n = (s.clearBar n).bar n := by
    simp only [State.bar, hdone.bars, barRelease_bars, hr.bars]
  rw [hbar, State.clearBar, State.modBar_bar_self]
  exact ⟨rfl, rfl⟩

theorem barDone_hasRun (hy : s.work? v = some y) (hat : barAt n y = true) (hphase : y.phase = .waiting) : (s.barDone n).hasRun v := by
  obtain ⟨r, hr, hdone⟩ := barDone_spec s n
  have hyr : r.work? v = some y := by
    rw [State.work?, hr.works]
    exact hy
  obtain ⟨z, hz, hz'⟩ := barRelease_hasRun hyr hat hphase
  exact ⟨z, by rw [State.work?, hdone.works]; exact hz, hz'⟩

end

/-! ### BARRIER_ARRIVAL (R19, R138, R376) -/

section
variable {s : State} {n i lt : Nat}

/-- The unit with one more arrival. -/
def State.arriveAt (s : State) (n t : Nat) : State := s.modBar n (fun b => { b with
  arrived := b.arrived.filter (s.barMembers n).contains ++ [t]
  times := b.times.filter (fun p => (s.barMembers n).contains p.1) ++ [(t, s.now)], fulling := if b.fulling = 0 then 1 else b.fulling })

theorem arriveAt_bar (s : State) (n t : Nat) : ((s.arriveAt n t).bar n).arrived = (s.bar n).arrived.filter (s.barMembers n).contains ++ [t] := by
  rw [State.arriveAt, State.modBar_bar_self]

section
variable (hp : Powered s) (hn : n < 1024) (hi : i < 1664)
include hp hn hi

theorem completes_arrival {g : Nat} {Q : State → Prop} (hQ : Q (finish s (arrivalEff n i g s))) : Completes (.barrierArrival n i g) s Q :=
  completes_run rfl (Bool.and_eq_true_iff.2 ⟨decide_eq_true hn, decide_eq_true hi⟩) hp hQ

/-- An arrival at a unit of no hood, or of another GEN, does nothing. -/
theorem arrival_stale {g : Nat} (h : (s.bar n).owner ≠ n / 64 + 1 ∨ g ≠ (s.hood (n / 64)).gen) :
    Completes (.barrierArrival n i g) s (fun t => OnlyPort s t) := by
  refine completes_arrival hp hn hi ?_
  have heff : arrivalEff n i g s = s := if_pos (by simpa using h)
  rw [heff]
  exact onlyPort_finish rfl

variable (hown : (s.bar n).owner = n / 64 + 1)
include hown

theorem arrival_foreign (hmap : (s.tmap (n / 64)).contains i = false) : Completes (.barrierArrival n i (s.hood (n / 64)).gen) s (fun t =>
    t.reg rHOOD_REJECT_COUNT (n / 64) = satAdd 32 (s.reg rHOOD_REJECT_COUNT (n / 64)) 1 ∧
    OnlyRegisters [(rHOOD_REJECT_COUNT, n / 64)] s t) := by
  have heff : arrivalEff n i (s.hood (n / 64)).gen s = s.reject (n / 64) :=
    (if_neg (by simp [hown])).trans (if_pos (by simpa [State.tmap] using hmap))
  refine completes_arrival hp hn hi ?_
  rw [heff]
  refine ⟨(finish_reg ..).trans ((State.setReg_reg_self ..).trans (Nat.mod_eq_of_lt (satAdd_lt ..))), onlyRegisters_finish ?_⟩
  exact OnlyRegs.onlyRegisters (by simp; omega) (onlyRegs_reject ..)

variable (hmap : (s.tmap (n / 64)).contains i = true) (hlt : lt = (s.tmap (n / 64)).idxOf i) (hmem : lt ∈ s.barMembers n)
  (hnew : lt ∉ (s.bar n).arrived)
include hmap hlt hmem hnew

omit hp hn hi in
theorem arrivalEff_member : arrivalEff n i (s.hood (n / 64)).gen s =
    if (s.barMembers n).all ((s.arriveAt n lt).bar n).arrived.contains then (s.arriveAt n lt).barDone n else s.arriveAt n lt := by
  subst hlt
  refine (if_neg (by simp [hown])).trans ((if_neg (by simpa [State.tmap] using hmap)).trans ?_)
  refine (if_neg ?_).trans rfl
  simpa [State.tmap] using ⟨hmem, hnew⟩

/-- An arrival that is not the last is kept. -/
theorem arrival_kept (hmiss : ∃ m, m ∈ s.barMembers n ∧ m ≠ lt ∧ m ∉ (s.bar n).arrived) :
    Completes (.barrierArrival n i (s.hood (n / 64)).gen) s (fun t =>
      lt ∈ (t.bar n).arrived ∧ t.works = s.works ∧ t.waits = s.waits ∧ t.mem = s.mem ∧ t.tiles = s.tiles ∧
      ∀ m, m ≠ n → t.bar m = s.bar m) := by
  obtain ⟨m, hm, hne, hout⟩ := hmiss
  have heff : arrivalEff n i (s.hood (n / 64)).gen s = s.arriveAt n lt := by
    rw [arrivalEff_member hown hmap hlt hmem hnew, arriveAt_bar]
    refine if_neg fun hall => ?_
    have hin := List.all_eq_true.1 hall m hm
    simp [hne, hout] at hin
  refine completes_arrival hp hn hi ?_
  rw [heff]
  refine ⟨?_, finish_works .., finish_waits .., finish_mem .., finish_tiles .., fun j hj => ?_⟩
  · rw [finish_bar, arriveAt_bar]
    exact List.mem_append_right _ (List.mem_singleton_self lt)
  · rw [finish_bar]
    exact State.modBar_bar_of_ne _ _ hj

/-- The last arrival releases the unit and every BAR that waits there. -/
theorem arrival_last (hall : ∀ m, m ∈ s.barMembers n → m = lt ∨ m ∈ (s.bar n).arrived) :
    Completes (.barrierArrival n i (s.hood (n / 64)).gen) s (fun t => (t.bar n).arrived = [] ∧ (t.bar n).fulling = 0 ∧
      ∀ v y, s.work? v = some y → barAt n y = true → y.phase = .waiting → t.hasRun v) := by
  have heff : arrivalEff n i (s.hood (n / 64)).gen s = (s.arriveAt n lt).barDone n := by
    rw [arrivalEff_member hown hmap hlt hmem hnew, arriveAt_bar]
    refine if_pos (List.all_eq_true.2 fun m hm => ?_)
    rcases hall m hm with rfl | h
    · simp
    · simp [hm, h]
  obtain ⟨harrived, hfulling⟩ := barDone_bar (s.arriveAt n lt) n
  refine completes_arrival hp hn hi ?_
  rw [heff]
  refine ⟨by rw [finish_bar, harrived], by rw [finish_bar, hfulling], fun v y hy hat hphase => ?_⟩
  obtain ⟨z, hz, hz'⟩ := barDone_hasRun (s := s.arriveAt n lt) hy hat hphase
  exact ⟨z, (finish_work ..).trans hz, hz'⟩

end

end

/-- Settles O35. How a work ends is said once (`leave_ends`), for NOP, KERNEL_COMPLETE, COPY_COMPLETE and what is INVALID; a refused dispatch leaves no
kernel to run; and neither power nor links touch works and barriers (`BarsKept`), so that the last arrival leaves what `barRelease` does. -/
theorem completionsAndBarriers : Obligations.CompletionsAndBarriers := by
  unfold Obligations.CompletionsAndBarriers
  refine ⟨fun s v w n x y hp hb hpar => ⟨?_, ?_, ?_⟩, fun s z w n i x hp => ⟨?_, ?_, ?_, ?_, ?_, ?_, ?_, ?_,
    completions_of_none hp, completions_unacked hp⟩⟩
  · exact nop_ends hp hb hpar
  · exact nop_invalid hp hb hpar
  · rintro hcpl rfl hwr
    exact nop_recorded hp hb hpar hcpl hwr
  · exact fun p hrow hk hmine htaken hepoch => staleDispatch_refused hp hrow hk hmine htaken hepoch
  · exact fun hz hk hrec hn hown hfirst hcnt => bar_waits hp hz hk hrec hn hown hfirst hcnt
  · exact fun hz hk hx hbad => bar_invalid hp hz hk hx hbad
  · exact fun hz hk hrec hown hfirst hcnt hdone => bar_empty hp hz hk hrec hown hfirst hcnt hdone
  · exact fun hn hi hown g => arrival_stale hp hn hi (.inl hown)
  · refine fun hn hi hown => ⟨fun g hg => arrival_stale hp hn hi (.inr hg), arrival_foreign hp hn hi hown,
      fun lt hmap hlt hmem hnew => ⟨arrival_kept hp hn hi hown hmap hlt hmem hnew, fun hall => ?_⟩⟩
    refine (arrival_last hp hn hi hown hmap hlt hmem hnew hall).imp fun t ⟨harrived, hfulling, hrun⟩ => ⟨harrived, hfulling, ?_⟩
    intro v y hy hkind hop hran hprog hunit hphase
    exact hrun v y hy (by simp [barAt, hkind, hop, hran, hprog, hunit]) hphase
  · exact fun hx hcur hphase hrec hack => ⟨kernelComplete_ends hp hx hcur hphase hrec hack,
      fun c hkind hc => copyComplete_ends hp hx hcur hphase hrec hack hkind hc⟩
  · exact fun hx hcur hphase hran hkind hop hrec => kernelComplete_invalid hp hx hcur hphase hran hkind hop hrec

end Sys2Proof.Machine
end
